-- ==== Sys2Proof/Word.lean ====
section
/-!
DEFINITION. Word.lean: the word types of the XG9480 and their plainest arithmetic. Every register of the part is
32 bits wide and little-endian (00_scope.md R8); memories are byte addressed.
-/
namespace Sys2Proof

/-- One byte. -/
abbrev Byte := BitVec 8
/-- A halfword of a data memory or an address register (R181). -/
abbrev Half := BitVec 16
/-- A register of the part (R8), or a Tequen g register (R179). -/
abbrev Word := BitVec 32
/-- A 64-bit quantity held in two consecutive registers (R11), or a Press Time count (R26). -/
abbrev DWord := BitVec 64

end Sys2Proof
end

