-- ==== Sys2Proof/Machine/Types.lean ====
section
/-!
DEFINITION. Machine/Types.lean: the names of the part's units and the operands of its commands (00_scope.md R4, R5,
R15, R16). Each is an index or a fixed set of names.
-/
namespace Sys2Proof

/-- Formes 0 to 15 (R4). -/
abbrev FormeId := Fin 16
/-- Press f.p as 8 * f + p (R4, R5). -/
abbrev PressId := Fin 128
/-- HBM stacks HS0 to HS7 (R4). -/
abbrev StackId := Fin 8
/-- Command buses of a stack (R296). -/
abbrev BusId := Fin 32
/-- Lane quads LQ00 to LQ23 (R4). -/
abbrev QuadId := Fin 24
/-- Lanes of a quad (R325). -/
abbrev LaneId := Fin 4
/-- Fount regions FN00 to FN23 (R4). -/
abbrev RegionId := Fin 24
/-- Global clock trees (R404). -/
abbrev TreeId := Fin 32
/-- Fount PLLs (R405). -/
abbrev PllId := Fin 8
/-- Direct fount feeds, 2 * forme + feed (R412). -/
abbrev FeedId := Fin 32
/-- Power domains PD000 to PD203 (R5). -/
abbrev DomainId := Fin 204
/-- Ticket rings (R482). -/
abbrev RingId := Fin 64
/-- Proof queues (R487). -/
abbrev PqId := Fin 8
/-- A register address: an offset of PF0 BAR0, or of PF1 BAR0 (R469). -/
abbrev RegAddr := BitVec 25

/-- The two platens of a press (R4). -/
inductive PlatenId where
  | A | B
  deriving DecidableEq, Repr

/-- The three PCI Express functions (R469). -/
inductive FnId where
  | pf0 | pf1 | pf2
  deriving DecidableEq, Repr

/-- Who writes a register: the host through a function, or Foreman, the maker-signed firmware (R12). -/
inductive Requester where
  | pf0 | pf1 | pf2 | foreman
  deriving DecidableEq, Repr

/-- The two populations of the family (R1). -/
inductive Part where
  | xg9480 | xg9460
  deriving DecidableEq, Repr

/-- The time inputs of R21. -/
inductive TimeInput where
  | refclk | sync | code
  deriving DecidableEq, Repr

/-- A chase switch: a forme switch, a die switch or the root (R265, R269). -/
inductive SwitchId where
  | forme (f : Fin 16)
  | die (d : Fin 2)
  | root
  deriving DecidableEq, Repr

/-- How a chase message fared on its way (R269): well (correctable flits included), with a flit that a hop could not
correct, with a header whose parity fails at the receiver, or at an endpoint that its header does not name. -/
inductive HopCondition where
  | ok
  | uncorrectable (switch : SwitchId)
  | parity
  | misrouted (reached : Fin 1024)
  deriving DecidableEq, Repr

/-- One request for a 64-byte column unit of a stack (R287): a read, or a write of 64 bytes; `flips` are the bits of the
two blocks and their check words that the array has inverted by the time of the request (bit 288k + b: data bit b of
block k, 288k + 256 + b: check bit b). -/
structure HbmReq where
  unit  : BitVec 30
  write : Option (BitVec 512)
  flips : BitVec 576
  deriving DecidableEq, Repr

/-- The memories that keep a coalescing table (R305). -/
inductive CoalesceUnit where
  | hbm (n : StackId)
  | galley (p : PressId)
  | forme (f : FormeId)
  deriving DecidableEq, Repr

/-- What a fill of R313 fills. -/
inductive FillUnit where
  | stack (n : StackId)
  | forme (f : FormeId)
  | galley (p : PressId)
  deriving DecidableEq, Repr

/-- What a hunting lane finds at the candidate that passes (R329): 64 block headers in a row, header i at bits 2i + 1 and 2i,
the next block 0 with its header, and the bit time at which that block came (R331). -/
structure LaneHunt where
  headers : BitVec 128
  mark    : BitVec 130
  time    : Nat
  deriving DecidableEq, Repr

/-- A codeword that a port has decoded since its last flit (R330): whether a lane of its upper quad carried it, its symbol
errors, and whether it carries a block of the flit. -/
structure Codeword where
  upper   : Bool
  errors  : Nat
  carries : Bool
  deriving DecidableEq, Repr

/-- Who sends a Forron chunk: a transfer of a press, by its place in the press's list, or a die's sequence engine. -/
inductive ForronSender where
  | transfer (p : PressId) (index : Nat)
  | engine (die : Fin 2)
  deriving DecidableEq, Repr

/-- A read-data beat of user logic (R409): rd_data, rd_par, rd_be and rd_last. -/
structure ReadBeat where
  data : BitVec 1024
  par  : BitVec 16
  be   : BitVec 2
  last : Bool
  deriving DecidableEq, Repr

/-- What one lane of a quad in fount mode exchanges with its region in a quad-clock cycle (R416): the word that user logic
gives it, and the words that have come in on the lane since the cycle before. -/
structure QuadCycle where
  quad  : QuadId
  lane  : LaneId
  send  : BitVec 320
  heard : List (BitVec 320)
  deriving DecidableEq, Repr

/-- What comes to a flip-flop in a cycle: its cell's output and a routing wire, its clock enable, and its set or reset. -/
structure FlipFlopInputs where
  cell    : Bool
  wire    : Bool
  enable  : Bool
  control : Bool
  deriving DecidableEq, Repr

/-- What user logic of the fount does at an edge of a global tree (R399, R403, R406, R418), the customer's own:
what comes to a flip-flop (of the stick clock wires that have an edge, by its number in the column, R454); a write of a RAM
block; what the registers of a pin bank take, with what the pads carry; a word for the 8:1 serialiser of a differential pair; and
what the facing region gives the bridge wires that enter a region. -/
inductive UserEdge where
  | flop (region : RegionId) (column : Fin 96) (index : Fin 3072) (edges : BitVec 2) (inputs : FlipFlopInputs)
  | ram (region : RegionId) (column : Fin 96) (block : Fin 16) (port : Fin 2) (addr : BitVec 15) (value : BitVec 72)
  | pins (bank : Fin 8) (pads output enable : BitVec 48)
  | serial (bank : Fin 8) (pair : Fin 24) (word : BitVec 8)
  | bridge (region : RegionId) (sent : BitVec 2048)
  deriving DecidableEq, Repr

/-- How a read of host memory ended (R474, R475): with data, failed, or with a poisoned completion. -/
inductive HostReadResult where
  | data (bytes : List Byte)
  | failed
  | poisoned
  deriving DecidableEq, Repr

/-- The units that hold a first-error capture (R502). -/
inductive CaptureUnit where
  | press (p : PressId)
  | forme (f : FormeId)
  | stack (n : StackId)
  | quad (q : QuadId)
  | chase
  deriving DecidableEq, Repr

/-- The two ways into device reset, and its release (R587, R590). -/
inductive ResetKind where
  | porLow
  | railsBad
  | release
  deriving DecidableEq, Repr

end Sys2Proof
end

