-- ==== Sys2Proof/Syntax.lean ====
section
/-!
DEFINITION. Syntax.lean: the commands of the block, one constructor per row of the opcode table, with the operands
that the row takes from outside. A Tequen row takes its forme: the word is the one at the forme's pc.
-/
namespace Sys2Proof

/-- The commands. -/
inductive Instr where
  /-- REGISTER_WRITE (R12): A host or Foreman write to a register or field that has no row of its own stores the
  value under its access code, with RWI and RWM attempts refused and logged under R13. -/
  | registerWrite (src : Requester) (addr : RegAddr) (value : Word) (be : BitVec 4) (more : List (Word × BitVec 4) := [])
      (poisoned : Bool := false) (config : Bool := false)
  /-- LOW_WORD_READ (R11): A read of the low word of a 64-bit quantity copies the high word into the holding
  register of the reading function. -/
  | lowWordRead (fn : FnId) (addr : RegAddr) (be : BitVec 4 := 0xF) (more : List (BitVec 4) := []) (config : Bool := false)
  /-- REFCLK_IN_TOLERANCE (R27): PT_REFCLK comes within tolerance, so ref_ok is set and an Unsynced part moves
  to Acquiring. -/
  | refclkInTolerance
  /-- PT_SYNC_EDGE (R24): A PT_SYNC edge is taken and judged against the local count, counted as a slip, or
  taken toward restoration. -/
  | ptSyncEdge (sinceLast : Nat) (phase : Int)
  /-- PT_CODE_FRAME (R23): A 100-bit PT_CODE frame is taken whole and validated; an invalid frame is counted and
  a mismatching next_sheet is noted for resynchronisation. -/
  | ptCodeFrame (frame : BitVec 100)
  /-- INPUT_LOST (R28): A time input is declared lost, through a missing edge, a frequency error, missing edges
  or missing frames, and a Locked part enters Holdover. -/
  | inputLost (input : TimeInput)
  /-- HOLDOVER_EXPIRED (R33): After 1,024 sheets of holdover the part enters Lost, fails every open ticket with
  PT_LOST and clears their entries. -/
  | holdoverExpired
  /-- PT_CLEAR_COUNTS (R59): Writing 1 to PT_CTRL.clear_counts clears PT_INPUT_ERRORS. -/
  | ptClearCounts
  /-- MK_TABLE_READ (R65): A read of MK_TABLE_DATA0 copies the whole table entry named by MK_TABLE_INDEX for the
  reads of DATA1 to DATA3. -/
  | mkTableRead (be : BitVec 4 := 0xF)
  /-- DOORBELL (R483): A write of a tail to HI_RING_TAIL marks tickets pending and either appends an entry to
  the doorbell queue or updates a queued entry in place. -/
  | doorbell (ring : RingId) (tail : BitVec 12) (poisoned : Bool := false)
  /-- DOORBELL_SERVICE (R483): When no hold of R484 applies, Makeready takes the front doorbell entry and issues
  the read of its ring's next ticket. -/
  | doorbellService
  /-- TICKET_READ_FAILED (R485): A ticket read that completes with an error is answered with REFUSED
  HI_TICKET_READ and the head advances. -/
  | ticketReadFailed (poisoned : Bool := false)
  /-- SUBMIT (R480): A submit ticket arrives, is checked against R477 and the opening checks of R44, and the
  read of its imposition is issued. -/
  | submit (ticket : BitVec 512)
  /-- RESUME (R480): A resume ticket arrives, is checked, and is admitted like a submit with its save image in
  place of its programs. -/
  | resume (ticket : BitVec 512)
  /-- PAUSE (R481): A pause ticket is answered according to the state of its target, starting the save of R385
  or refusing with HI_NO_SUCH_TICKET. -/
  | pause (ticket : BitVec 512)
  /-- ABORT (R481): An abort ticket aborts its target's task or accepted ticket with HI_HOST_ABORT, or is
  refused with HI_NO_SUCH_TICKET. -/
  | abort (ticket : BitVec 512)
  /-- ADMIT (R44): When the imposition arrives, Makeready checks it, searches candidate sheets and writes the
  entries, the WAKE entries and the PROMISE entry, or refuses the ticket. -/
  | admitTicket
  /-- START_FIRE (R177): A START entry fires and its compositor begins to load the selected program image, or to
  restore its save section. -/
  | startFire (entry : BitVec 16)
  /-- XFER_WINDOW_OPEN (R38): An XFER_WINDOW entry fires and opens a transfer window on an HBM stack, lane quad
  or host link. -/
  | xferWindowOpen (entry : BitVec 16)
  /-- COLLECTIVE_WINDOW_OPEN (R38): A COLLECTIVE_WINDOW entry fires and opens a sequence-engine window. -/
  | collectiveWindowOpen (entry : BitVec 16)
  /-- REFRESH_FIRE (R291): A REFRESH system entry fires and the controller issues its per-bank refresh commands
  within the slot. -/
  | refreshFire (entry : BitVec 16)
  /-- POWER_STEP_FIRE (R38): A POWER_STEP entry fires and moves its domain to the state in arg. -/
  | powerStepFire (entry : BitVec 16)
  /-- WAKE_FIRE (R45): A WAKE entry fires and requests the wake of its domain from the governor, or only
  reserves when the domain is already on or waking. -/
  | wakeFire (entry : BitVec 16)
  /-- HOLD_FIRE (R38): A HOLD entry fires and reserves only. -/
  | holdFire (entry : BitVec 16)
  /-- PROMISE_FIRE (R52): At point 4,095 of the promised sheet, a PROMISE entry checks completion and writes
  MK_PROMISE_BROKEN and any abort-on-break abort. -/
  | promiseFire (entry : BitVec 16)
  /-- RESERVATION_END (R48): A reservation's span and margin end, so its entry is freed and a REFRESH entry
  advances, or work still holding it puts the reservation into overrun. -/
  | reservationEnd (entry : BitVec 16)
  /-- PROGRAM_LOADED (R177): The program image has arrived and its tally checks, so memories are written,
  registers are zeroed and execution begins at entry; otherwise the task faults with CO_BAD_IMAGE. -/
  | programLoaded (f : FormeId)
  /-- COMPOSITOR_IDLE (R178): After HALT, every issued instruction has completed, so the compositor becomes
  Idle, the forme's program ends and any waiting START proceeds. -/
  | compositorIdle (f : FormeId)
  /-- NOP (R222): NOP issues with no effect. -/
  | nop (f : FormeId)
  /-- HALT (R178): HALT stops instruction fetch and puts the compositor in Finishing. -/
  | halt (f : FormeId)
  /-- ALU_GROUP (R212): An ALU group instruction computes rd from ra and rb or imm5 by its func and sets the
  flags. -/
  | aluGroup (f : FormeId)
  /-- ADDI (R214): ADDI adds a sign-extended imm12 to ra, writes rd and sets the flags. -/
  | addi (f : FormeId)
  /-- MOVI (R214): MOVI writes a sign-extended imm16, or the upper half of rd, without setting flags. -/
  | movi (f : FormeId)
  /-- LD (R215): LD loads a word or halfword from X or Y memory through an address register, with post-
  modification. -/
  | ld (f : FormeId)
  /-- ST (R215): ST stores a word or halfword to X or Y memory through an address register, with post-
  modification. -/
  | st (f : FormeId)
  /-- AMOV (R216): AMOV moves between a g register and an address register or modifier, faulting on a reserved
  modifier. -/
  | amov (f : FormeId)
  /-- SMOV (R216): SMOV moves between a g register and trip, iter, depth, rbase, cr, sr or rstep. -/
  | smov (f : FormeId)
  /-- LDT (R217): LDT loads a descriptor register from a block of eight g registers. -/
  | ldt (f : FormeId)
  /-- MTT (R217): MTT writes one word of a descriptor register from a g register. -/
  | mtt (f : FormeId)
  /-- MFT (R217): MFT reads one word of a descriptor register into a g register. -/
  | mft (f : FormeId)
  /-- MPY (R218): MPY sets an accumulator to the 16 by 16 product. -/
  | mpy (f : FormeId)
  /-- MAC (R218): MAC adds the product to an accumulator modulo 2^40. -/
  | mac (f : FormeId)
  /-- MSU (R218): MSU subtracts the product from an accumulator modulo 2^40. -/
  | msu (f : FormeId)
  /-- MPYR (R218): MPYR performs MPY and writes the convergently rounded result to rd. -/
  | mpyr (f : FormeId)
  /-- MACR (R218): MACR performs MAC and writes the convergently rounded result to rd. -/
  | macr (f : FormeId)
  /-- ACC_GROUP (R219): An accumulator group instruction performs RND16, SAT32, EXPX, NORM, MFAL, MFAH, MTA or
  CLRA by its func. -/
  | accGroup (f : FormeId)
  /-- J (R220): J branches to its target. -/
  | j (f : FormeId)
  /-- JR (R220): JR branches to the index held in a g register. -/
  | jr (f : FormeId)
  /-- CALL (R220): CALL writes pc + 1 to g15 and branches. -/
  | call (f : FormeId)
  /-- BCC (R220): BCC branches when its condition on the flags holds. -/
  | bcc (f : FormeId)
  /-- DBNZ (R221): DBNZ decrements a g register and branches while it is not zero. -/
  | dbnz (f : FormeId)
  /-- BRC (R190): BRC advances iter and the ring, and branches while runs remain. -/
  | brc (f : FormeId)
  /-- LPSET (R221): LPSET sets trip, depth and rstep, and clears iter and rbase. -/
  | lpset (f : FormeId)
  /-- PASS (R196): PASS is issued and captured into the queues of its named presses. -/
  | pass (f : FormeId)
  /-- FEED (R230): FEED is issued and captured into the queues of its named presses. -/
  | feed (f : FormeId)
  /-- DRAIN (R196): DRAIN is issued and captured into the queues of its named presses. -/
  | drain (f : FormeId)
  /-- INK (R196): INK is issued and captured into the queues of its named presses. -/
  | ink (f : FormeId)
  /-- JUSTIFY (R196): JUSTIFY is issued and captured into the queues of its named presses. -/
  | justify (f : FormeId)
  /-- XFER (R196): XFER is issued and captured into the queues of its named presses. -/
  | xfer (f : FormeId)
  /-- LINK (R196): LINK is issued and captured into the queues of its named presses. -/
  | link (f : FormeId)
  /-- WAITPT (R238): WAITPT is issued to a queue, or with core 1 stalls issue until Press Time reaches its
  point. -/
  | waitpt (f : FormeId)
  /-- SIGNAL (R239): SIGNAL is issued to its queues, or with core 1 adds its count to a token counter at issue.
  -/
  | signal (f : FormeId)
  /-- WAIT (R239): WAIT is issued to its queues, or with core 1 stalls issue until its token count is available
  and then subtracts it. -/
  | wait (f : FormeId)
  /-- FENCE (R240): FENCE is issued to a queue, or with core 1 stalls issue until every issued instruction has
  completed. -/
  | fence (f : FormeId)
  /-- PWR (R241): PWR is issued into the queue of its press. -/
  | pwr (f : FormeId)
  /-- PRD (R241): PRD is issued into the queue of its single press, and its g register becomes pending. -/
  | prd (f : FormeId)
  /-- PASS_DISPATCH (R229): A PASS or FEED at the queue head dispatches into its platen's pass stage after its
  descriptors, headers, formats and G are checked. -/
  | passDispatch (p : PressId)
  /-- PRELOAD_DONE (R134): A preload of partials finishes reading its 33-cycle image, and the bank becomes
  Ready. -/
  | preloadDone (p : PressId) (pl : PlatenId)
  /-- PASS_FEED_START (R132): Once its preload, the previous pass and its sources allow, a pass begins its first
  feed cycle and its bank becomes Busy. -/
  | passFeedStart (p : PressId) (pl : PlatenId)
  /-- PASS_SETTLE (R134): A pass settles after its last step group, merges its leads and sets its bank to Held.
  -/
  | passSettle (p : PressId) (pl : PlatenId)
  /-- DRAIN_DISPATCH (R232): A DRAIN or bank save at the queue head dispatches into its platen's drain stage
  after its control register and descriptor are checked. -/
  | drainDispatch (p : PressId)
  /-- DRAIN_START (R132): A DRAIN begins reading its bank once earlier passes on the bank have settled and the
  inking path is free. -/
  | drainStart (p : PressId) (pl : PlatenId)
  /-- DRAIN_DONE (R197): A DRAIN or bank save finishes, its last write reaches the galley, and it closes its
  tile if flagged. -/
  | drainDone (p : PressId) (pl : PlatenId)
  /-- INK_DISPATCH (R159): An INK dispatches when the inking unit can take it, and performs its operation. -/
  | inkDispatch (p : PressId)
  /-- INK_DONE (R235): An INK completes and its lane registers, masks or galley writes take effect. -/
  | inkDone (p : PressId)
  /-- JUSTIFY_DISPATCH (R161): A JUSTIFY dispatches when the inking unit can take it, after its format, slot and
  source-tile checks. -/
  | justifyDispatch (p : PressId)
  /-- JUSTIFY_DONE (R162): A JUSTIFY completes its trial and any promoted conversion, writes leads and codes,
  and closes the slug header. -/
  | justifyDone (p : PressId)
  /-- WAITPT_DISPATCH (R197): A WAITPT at the queue head is released when Press Time reaches its point. -/
  | waitptDispatch (p : PressId)
  /-- WAIT_DISPATCH (R200): A WAIT at the queue head dispatches when its token counter holds the count, and
  subtracts it. -/
  | waitDispatch (p : PressId)
  /-- SIGNAL_DISPATCH (R199): A SIGNAL at the queue head dispatches when earlier entries have completed, and
  adds its count to the token counter. -/
  | signalDispatch (p : PressId)
  /-- FENCE_DISPATCH (R197): A FENCE at the queue head dispatches when every earlier instruction of the queue
  has completed. -/
  | fenceDispatch (p : PressId)
  /-- PWR_DISPATCH (R198): A PWR writes a permitted press-block register at dispatch. -/
  | pwrDispatch (p : PressId)
  /-- PRD_DISPATCH (R198): A PRD reads a press-block register and returns the value to the core's g register. -/
  | prdDispatch (p : PressId)
  /-- PREEMPT_REQUEST (R135): A preemption request reaches a press, which begins no further PASS and finishes
  its work in progress. -/
  | preemptRequest (p : PressId)
  /-- PREEMPTED (R135): Both platens of a press reach a pass boundary and the press is preempted. -/
  | preempted (p : PressId)
  /-- XFER_DISPATCH (R260): An XFER with a stream descriptor dispatches once its controller has room, after the
  ordered checks of R596. -/
  | xferDispatch (p : PressId)
  /-- POOL_OPEN (R254): An XFER with a kind 9h OPEN sets the pool's head, tail and free count at dispatch. -/
  | poolOpen (p : PressId)
  /-- POOL_RELEASE (R254): An XFER with a kind 9h RELEASE advances the pool head and frees space, which lets
  waiting grants proceed. -/
  | poolRelease (p : PressId)
  /-- CHUNK_REQUEST (R256): A transfer requests its next chunk, by RESERVE or by taking space and sending READ,
  once a window and its 4-chunk limit allow. -/
  | chunkRequest (p : PressId) (transfer : Nat)
  /-- CHASE_RESERVE (R257): A receiver takes a RESERVE and grants whole-chunk space in arrival order, or queues
  it. -/
  | chaseReserve (msg : Nat) (cond : HopCondition)
  /-- CHASE_GRANT (R256): A sender takes a GRANT and begins sending the chunk's DATA, or for a multicast push
  waits for every grant. -/
  | chaseGrant (msg : Nat) (cond : HopCondition)
  /-- CHASE_READ (R255): A source takes a READ and sends the chunk's DATA flits and END to the initiator. -/
  | chaseRead (msg : Nat) (cond : HopCondition)
  /-- CHASE_DATA (R268): A receiver takes a DATA flit, after hop correction and header checks, into its ingress
  space. -/
  | chaseData (msg : Nat) (cond : HopCondition)
  /-- CHASE_END (R272): A receiver takes an END, compares its tally after commit, and acknowledges a push or
  completes a pull chunk. -/
  | chaseEnd (msg : Nat) (cond : HopCondition)
  /-- CHASE_ACK (R260): A sender takes an ACK, and a push completes and signals when every chunk has a good ACK.
  -/
  | chaseAck (msg : Nat) (cond : HopCondition)
  /-- CHASE_CANCEL (R278): A receiver or source takes a CANCEL, frees the chunk's space and discards its
  uncommitted flits. -/
  | chaseCancel (msg : Nat) (cond : HopCondition)
  /-- CHUNK_COMMIT (R271): A chunk's flits are committed into memory with the new code once the galley is on its
  chase side. -/
  | chunkCommit (chunk : Nat)
  /-- GALLEY_SIDE_CHANGE (R262): A galley changes between its press side and its chase side in 4 chase cycles.
  -/
  | galleySideChange (p : PressId)
  /-- MULTICAST_GRANT_DEADLINE (R274): Grants are still missing at grant_deadline, so the sender cancels and
  faults the task with CH_MULTICAST_GRANT. -/
  | multicastGrantDeadline (p : PressId) (transfer : Nat)
  /-- STREAM_DEADLINE (R276): A transfer is incomplete when Press Time reaches its deadline and faults its task
  with STREAM_DEADLINE. -/
  | streamDeadline (p : PressId) (transfer : Nat)
  /-- HBM_REQUEST (R287): A stack controller accepts a read or write request into a pseudo-channel queue and
  serves it under R288. -/
  | hbmRequest (stack : StackId) (req : HbmReq)
  /-- COALESCE_EXPIRE (R305): A coalescing entry 100 sheets old expires and writes a summary SD_CORRECTED record
  if it counted repeats. -/
  | coalesceExpire (mem : CoalesceUnit) (entry : Nat)
  /-- BUCKET_LEAK (R307): Every leak_sheets sheets the XG7200 bucket level falls by 1. -/
  | bucketLeak
  /-- HB_BUCKET_CTRL_WRITE (R307): A write of HB_BUCKET_CTRL that clears enable sets the level to 0 and empties
  the coalescing tables. -/
  | hbBucketCtrlWrite (value : Word)
  /-- HBM_HOT (R291): The stack reports 85 °C or more, or less, which sets or clears HB_STATUS.hot and the
  refresh rate. -/
  | hbmHot (stack : StackId) (hot : Bool)
  /-- CMD_PARITY_ALERT (R296): A command-parity alert on a bus starts a replay or a further attempt, and a
  fourth alert escalates. -/
  | cmdParityAlert (stack : StackId) (bus : BusId)
  /-- REPLAY_DONE (R296): A replay completes its reissue and normal issue resumes, or escalation retraining
  completes. -/
  | replayDone (stack : StackId) (bus : BusId)
  /-- HB_CLEAR_COUNTS (R319): Writing 1 to HB_CTRL.clear_counts clears the four counters of the stack. -/
  | hbClearCounts (stack : StackId)
  /-- FILL_DONE (R313): A fill of HBM, a case, a galley or compositor memories with zeros and valid codes
  completes, a stack becomes Ready, or a domain's wake completes. -/
  | fillDone (unit : FillUnit)
  /-- QUAD_MODE_WRITE (R323): A write of FL_QUAD_CTRL that changes mode takes the quad Down, then off, into
  Forron training, or into fount mode. -/
  | quadModeWrite (q : QuadId) (mode : BitVec 2)
  /-- PRBS_SELECT (R332): A write of FL_QUAD_CTRL.prbs starts PRBS measurement on the quad, or returns it to
  Down. -/
  | prbsSelect (q : QuadId) (prbs : BitVec 2) (heard : List (List Bool) := [])
  /-- RETRAIN (R333): Writing 1 to FL_QUAD_CTRL.retrain takes the port to Signal. -/
  | retrain (q : QuadId)
  /-- FL_CLEAR_COUNTS (R370): Writing 1 to FL_QUAD_CTRL.clear_counts clears the quad's counters. -/
  | flClearCounts (q : QuadId)
  /-- CLOCK_RECOVERY_LOCK (R333): All lanes of a port in Signal report clock recovery and the port enters Hunt.
  -/
  | clockRecoveryLock (q : QuadId) (lanes : BitVec 4 := 15)
  /-- LANE_LOCK (R329): A lane passes its superframe hunt and locks; with every lane locked and aligned, the
  port enters Exchange. -/
  | laneLock (q : QuadId) (lane : LaneId) (hunt : LaneHunt)
  /-- LANE_LOCK_LOST (R329): A locked lane sees 16 invalid headers in 64, loses lock, and the port retrains. -/
  | laneLockLost (q : QuadId) (lane : LaneId) (headers : BitVec 128 := 0)
  /-- TRAINING_TIMEOUT (R333): A port stays too long in Signal, Hunt or Exchange and returns to Down or Signal.
  -/
  | trainingTimeout (q : QuadId)
  /-- TRAIN_BLOCK (R335): A TRAIN block is taken; once Exchange completes, the port decides width mismatch,
  wrong partner, same partnership or new partnership. -/
  | trainBlock (q : QuadId) (block : BitVec 130) (codewords : List Codeword := [])
  /-- FLIT (R343): A flit is taken whole, checked for CRC, staleness and sequence, its ack and credits applied,
  and its message delivered locally or forwarded. -/
  | flit (q : QuadId) (flit : BitVec 2048) (codewords : List Codeword)
  /-- RETRY_TIMEOUT (R343): retry_timeout points pass with flits held and no ack progress, so the sender
  resends, or retrains after retry_limit rounds. -/
  | retryTimeout (q : QuadId)
  /-- LINK_DISPATCH (R351): A LINK with a kind 0Ah descriptor dispatches a Forron transfer after its checks. -/
  | linkDispatch (p : PressId)
  /-- COLLECTIVE_DISPATCH (R362): A LINK with a kind 0Bh descriptor starts a collective on its die's sequence
  engine after its checks. -/
  | collectiveDispatch (p : PressId)
  /-- FORRON_CHUNK_REQUEST (R352): A Forron transfer or engine sends RESERVE for its next chunk once its window
  is open on every quad of the port. -/
  | forronChunkRequest (sender : ForronSender)
  /-- FORRON_RESERVE (R353): A receiving part takes a RESERVE and refuses it or reserves the chunk in its chase,
  answering GRANT when the chase grants. -/
  | forronReserve (msg : Nat)
  /-- FORRON_GRANT (R352): A sender takes a GRANT and sends DATA flits read from the source, or faults with
  FL_REFUSED. -/
  | forronGrant (msg : Nat) (cond : HopCondition := .ok) (flit : BitVec 6 := 0)
  /-- FORRON_DATA (R353): A receiving controller takes a DATA message and passes it into the chase, or discards
  an oversize chunk. -/
  | forronData (msg : Nat)
  /-- RECEIPT (R352): A sender takes a RECEIPT and compares its tally, then completes, advances or marks the
  transfer or collective step, or faults it. -/
  | receipt (msg : Nat)
  /-- FORRON_CANCEL (R354): A receiver takes a CANCEL and frees the chunk's space. -/
  | forronCancel (msg : Nat)
  /-- GRANT_HOLD_EXPIRED (R354): No DATA arrives within grant_hold of a GRANT, so the receiver frees the chunk
  and logs FL_GRANT_EXPIRED. -/
  | grantHoldExpired (chunk : Nat)
  /-- FORRON_DEADLINE (R354): A Forron transfer or collective is incomplete at its deadline plus margin and
  faults its task with FL_PARTNER_LOST. -/
  | forronDeadline (sender : ForronSender)
  /-- FL_ROUTE_DATA_WRITE (R359): A write of a quad route entry is stored, or discarded when it names an absent,
  upper or out-of-range port. -/
  | flRouteDataWrite (src : Requester) (q : QuadId) (value : Word)
  /-- FL_OROUTE_DATA_WRITE (R360): A write of an origin-table entry is stored, or discarded under the same
  rules. -/
  | flOrouteDataWrite (src : Requester) (value : Word)
  /-- SAVE_DONE (R385): A paused task's work drains, its save image is written, its reservations are released
  and PAUSED is posted. -/
  | saveDone (ticketId : BitVec 64)
  /-- RESTORE_DONE (R390): A forme's save section is checked and restored, and the task continues from its saved
  pc and queue entries. -/
  | restoreDone (f : FormeId)
  /-- TREE_WINDOW (R407): At the end of each 64-point window a global tree's edges are judged, setting
  FT_TREE_OVER and isolating or freeing its crossings. -/
  | treeWindow (tree : TreeId) (edges : Nat) (cycles : List QuadCycle := []) (user : List UserEdge := [])
  /-- FOUNT_PLL_LOCK (R405): A fount PLL gains or loses lock, and its outputs are driven or held low. -/
  | fountPllLock (pll : PllId) (locked : Bool)
  /-- IW_BEAT (R410): User logic accepts a write beat at a region port; a beat with iw_last commits the chunk
  and sends its ACK. -/
  | iwBeat (r : RegionId)
  /-- RQ_ACCEPT (R410): User logic accepts a read request presented at a region port. -/
  | rqAccept (r : RegionId)
  /-- RD_BEAT (R410): User logic returns a read-data beat, which the port codes and sends as the chunk's flits.
  -/
  | rdBeat (r : RegionId) (beat : ReadBeat)
  /-- FEED_BEAT (R413): A direct fount feed accepts a lead beat or data beat; the first lead beat's format is
  checked. -/
  | feedBeat (feed : FeedId) (data : BitVec 4096)
  /-- FEED_MAP_WRITE (R412): A write of FT_FEED_MAPn is checked and takes effect once no FEED holds the feed. -/
  | feedMapWrite (feed : FeedId) (value : Word)
  /-- FT_CLEAR_COUNTS (R421): Writing 1 to FT_CTRL.clear_counts clears the feed wait counters and the slip
  counts. -/
  | ftClearCounts
  /-- CF_BEGIN (R425): Writing 1 to CF_CTRL.begin opens a load, or is refused with CF_BUSY. -/
  | cfBegin (src : Requester)
  /-- CF_ABORT (R449): Writing 1 to CF_CTRL.abort ends an open load with CF_ABORTED. -/
  | cfAbort
  /-- CF_DONE_RELEASE (R443): Writing 1 to CF_CTRL.done_release stops an unconfigured device from driving
  CF_DONE. -/
  | cfDoneRelease
  /-- STREAM_WORD (R424): A write to the stream window appends a word to an open load, or a malformed write ends
  the load. -/
  | streamWord (word : Word) (whole : Bool) (poisoned : Bool := false)
  /-- HEADER_ACCEPTED (R428): A received header passes its ordered checks, including the signature, and is
  accepted, which starts clearing or the shadow, or the load ends. -/
  | headerAccepted
  /-- CLEARING_DONE (R439): The clearing of every frame and RAM block for a full load, or after a failed full
  load, completes. -/
  | clearingDone
  /-- CF_NOP (R431): A NOP stream command has no effect. -/
  | cfNop
  /-- FRAMES (R435): A FRAMES command checks and writes n decrypted frames, with their check words, into the
  fount or a shadow. -/
  | frames
  /-- WREG (R437): A WREG command records a configuration register value for a full load. -/
  | wreg
  /-- RAMINIT (R436): A RAMINIT command writes a fount RAM block's initial contents. -/
  | raminit
  /-- TAG (R430): A TAG closes a segment, verifies its GCM tag and rolls the segment key. -/
  | tag
  /-- END (R441): An END verifies the last tag and the tally and completes the load. -/
  | endCmd
  /-- LOAD_TRUNCATED (R449): 2^20 reference cycles pass after the last word without a verified END, and the load
  ends with CF_TRUNCATED. -/
  | loadTruncated
  /-- FULL_LOAD_COMPLETE (R442): After its WREG values apply and its PLLs lock or 64 sheets pass, a full load
  completes and stops driving CF_DONE. -/
  | fullLoadComplete
  /-- GLOBAL_RELEASE (R443): At point 0 of the sheet after CF_DONE reads high, global release begins. -/
  | globalRelease (lineHigh : Bool) (level : Bool := lineHigh)
  /-- PEERS_ABSENT (R444): The peer timeout expires with CF_DONE low, so CF_PEERS_ABSENT is logged and release
  begins at the next sheet. -/
  | peersAbsent
  /-- PARTIAL_COMMIT (R445): At the sheet after its END, a partial load makes its shadow frames live, writes its
  RAM and begins release. -/
  | partialCommit
  /-- SHADOW_DISCARD_RELEASE (R448): At the sheet after a failed partial load, the old personality of its held
  regions is released. -/
  | shadowDiscardRelease
  /-- RELEASE_STAGE (R446): A release stage's offset passes and the next stage takes effect: write enables, then
  resets. -/
  | releaseStage
  /-- CAPTURE_START (R452): Writing start to CF_CAPTURE_CTRL arms a capture, or is refused. -/
  | captureStart (tree : TreeId)
  /-- CAPTURE_RELEASE (R454): Writing release to CF_CAPTURE_CTRL frees the held capture shadows. -/
  | captureRelease
  /-- CAPTURE_CANCEL (R453): Writing cancel to CF_CAPTURE_CTRL ends an armed or copying capture and frees its
  shadows. -/
  | captureCancel
  /-- CAPTURE_EDGE (R453): At the first tree edge at or after the trigger point, the named regions' flip-flops
  and pins are recorded and the RAM copy begins. -/
  | captureEdge
  /-- CAPTURE_COPY_DONE (R453): The RAM copy of a capture completes and the capture is Held. -/
  | captureCopyDone
  /-- CAPTURE_TIMEOUT (R453): No capture edge arrives within 2^20 reference cycles, so the capture ends with
  CF_CAPTURE_TIMEOUT. -/
  | captureTimeout
  /-- CLOCK_STOP_WRITE (R455): A write of CF_CLOCK_STOP.stop requests the fount's stop or release at the next
  sheet. -/
  | clockStopWrite (stop : Bool)
  /-- FOUNT_STOPPED (R455): At point 0 of the next sheet the whole fount is held and stopped reads 1. -/
  | fountStopped
  /-- FOUNT_RESUMED (R455): At point 0 of the next sheet after stop is cleared, every region is released. -/
  | fountResumed
  /-- READ_SEL_WRITE (R463): A write to CF_READ_SEL fills the read window within 256 reference cycles. -/
  | readSelWrite (value : Word)
  /-- FRAME_CHECK (R457): Every 8 reference cycles the sweep rechecks one live frame and logs CF_FRAME_UPSET on
  a mismatch. -/
  | frameCheck
  /-- CF_ERROR_CLEAR (R461): Writing 1 to CF_ERROR.valid clears CF_ERROR and CF_ERROR_FAR. -/
  | cfErrorClear
  /-- HBM_WINDOW_READ (R471): A host read through PF1 BAR2 is served from HBM, or completes with Completer Abort
  or poison. -/
  | hbmWindowRead (offset : BitVec 36) (len : BitVec 13)
  /-- HBM_WINDOW_WRITE (R471): A host write through PF1 BAR2 is written to HBM through the merge buffer, or
  discarded. -/
  | hbmWindowWrite (offset : BitVec 36) (data : List Byte) (poisoned : Bool)
  /-- USER_WINDOW_WRITE (R473): A host write to PF2 BAR0 is pushed to a region port, or discarded with
  HI_USER_ACCESS. -/
  | userWindowWrite (offset : BitVec 28) (data : List Byte) (poisoned : Bool)
  /-- USER_WINDOW_READ (R473): A host read of PF2 BAR0 is presented as a read request to a region port. -/
  | userWindowRead (offset : BitVec 28) (len : BitVec 10)
  /-- USER_WINDOW_TIMEOUT (R473): A user-window request is unanswered after 4,096 pt and ends with Completer
  Abort or discard and HI_USER_TIMEOUT. -/
  | userWindowTimeout (req : Nat)
  /-- HOST_READ_COMPLETION (R474): A completion from host memory arrives for an aperture pull, or fails and
  faults the task with HI_HOST_READ. -/
  | hostReadCompletion (chunk : Nat) (result : HostReadResult)
  /-- RING_ENABLE (R482): A write of HI_RING_CFG.enable starts a ring with head and tail 0, or stops it after
  its ticket in progress. -/
  | ringEnable (ring : RingId) (value : Word) (poisoned : Bool := false)
  /-- PQ_ENABLE (R487): A write of HI_PQ_CFG.enable resets a proof queue's head, tail and phase and empties its
  holding buffer. -/
  | pqEnable (q : PqId) (value : Word) (poisoned : Bool := false)
  /-- PQ_HEAD_WRITE (R491): A write of HI_PQ_HEAD frees room, so held records are written and any RECORDS_LOST
  record comes first. -/
  | pqHeadWrite (q : PqId) (head : BitVec 16) (poisoned : Bool := false)
  /-- HOLDOFF_END (R491): A queue's holdoff ends, and with pending set and the queue not empty the vector is
  sent and a new holdoff starts. -/
  | holdoffEnd (q : PqId)
  /-- D3HOT_ENTRY (R468): All three functions are in D3hot, so the part requests Stand, or Idle when Stand is
  not permitted. `fns` names the functions that enter D3hot now, one bit each. -/
  | d3hotEntry (fns : BitVec 3 := 7)
  /-- FUNCTION_D0 (R468): A function returns to D0 and makes a wake request. -/
  | functionD0 (fn : FnId)
  /-- FLR_PF0 (R493): Function Level Reset of PF0 restarts Foreman, ends the installer session and abandons the
  mailbox command. -/
  | flrPf0
  /-- FLR_PF1 (R493): Function Level Reset of PF1 clears tickets, rings, queues and counters, changes the
  incarnation and power cycles offline presses. -/
  | flrPf1
  /-- FLR_PF2 (R493): Function Level Reset of PF2 ends a load, cancels a capture or performs a staged fount
  reset, and discards user-window requests. -/
  | flrPf2
  /-- HOT_RESET (R493): A Hot Reset on the link, or PERST_N low, resets all three functions at once. -/
  | hotReset
  /-- LINK_DOWN (R493): The host link goes down without reset; accepted work continues and records wait. -/
  | linkDown
  /-- ERRATA_SPILL (R500): While spill is set and the errata queue has room, the oldest unspilled entry is
  copied as an ERRATA record. -/
  | errataSpill
  /-- ER_READ (R501): A read of ER_READ_DATA0 copies the whole entry named by ER_READ_INDEX. -/
  | erRead (be : BitVec 4 := 0xF)
  /-- ER_CLEAR_LOST (R521): Writing 1 to ER_CTRL.clear_lost clears ER_LOST. -/
  | erClearLost
  /-- FIRST_ERROR_CLEAR (R502): Writing 1 to X_FIRST_CODE.valid clears all seven capture registers. -/
  | firstErrorClear (unit : CaptureUnit)
  /-- ABORT_COMPLETE (R506): Every press of an aborting task is quiet, so TASK_CONTEXT is written, reservations
  are released and ABORTED is posted. -/
  | abortComplete (ticketId : BitVec 64)
  /-- ABORT_DEADLINE (R507): A press not quiet at t0 + 2 + abort_pt has its frisket closed with PS_ABORT_STUCK.
  -/
  | abortDeadline (p : PressId)
  /-- PS_RESET_REQUESTED (R508): Writing 1 to PS_RECOVERY_CTRL.reset closes the press's frisket, and its task is
  preempted and aborted. -/
  | psResetRequested (src : Requester) (p : PressId)
  /-- PS_INTERNAL (R508): A check inside a press fails, its frisket closes and its task aborts with PS_INTERNAL.
  -/
  | psInternal (p : PressId) (platen : Option PlatenId)
  /-- PRESS_QUIET (R510): A fenced press becomes quiet, its drain step ends and its press reset begins. -/
  | pressQuiet (p : PressId)
  /-- DRAIN_BOUND_EXPIRED (R510): The drain bound passes, so PS_DRAIN_EXPIRED is logged, outstanding work is
  abandoned and the reset begins. -/
  | drainBoundExpired (p : PressId)
  /-- PRESS_RESET_DONE (R510): A press reset or power cycle completes and the frisket reopens. -/
  | pressResetDone (p : PressId)
  /-- RESET_BOUND_EXPIRED (R510): The reset bound passes, so PS_RESET_EXPIRED is logged and the power cycle
  begins. -/
  | resetBoundExpired (p : PressId)
  /-- POWER_CYCLE_BOUND_EXPIRED (R513): The power-cycle bound passes, PS_OFFLINE is logged, the press goes
  offline and tickets needing it are aborted. -/
  | powerCycleBoundExpired (p : PressId)
  /-- POWER_STATE_REQUEST (R529): A write of PW_CTRL.request requests a power state, refused without right or
  with open tickets, held while a change is in progress. -/
  | powerStateRequest (src : Requester) (request : BitVec 3)
  /-- STATE_CHANGE_START (R529): A held or D3hot-waiting request begins its change once no change is in progress
  and any wait condition clears. -/
  | stateChangeStart
  /-- SIDEBAND_ADDRESS_MATCH (R537): The sideband port matches its address, which wakes the part from Stand or
  Deep. `written` counts the data bytes that the bus controller then writes. -/
  | sidebandAddressMatch (written : BitVec 8 := 0)
  /-- WAKE_AT_ARM (R532): A write of PW_WAKE_AT_HI arms the scheduled wake by a WAKE system entry. -/
  | wakeAtArm (value : Word)
  /-- PW_GATE_QUAD_WRITE (R534): A write of PW_GATE_QUAD gates lane quads off or wakes them. -/
  | pwGateQuadWrite (src : Requester) (value : Word)
  /-- PW_GATE_REGION_WRITE (R534): A write of PW_GATE_REGION gates fount regions off or wakes them. -/
  | pwGateRegionWrite (src : Requester) (value : Word)
  /-- DOMAIN_POWER_GOOD (R526): A waking domain reports power-good and continues its wake. -/
  | domainPowerGood (d : DomainId)
  /-- DOMAIN_FAULT (R526): A domain misses power-good within twice its ramp, is switched off and PW_DOMAIN_FAULT
  is logged. -/
  | domainFault (d : DomainId)
  /-- DOMAIN_OFF (R525): A domain completes switching off and loses its state, with armed pad banks latched. -/
  | domainOff (d : DomainId)
  /-- PAD_HOLD_RELEASE (R542): A write of PW_PADHOLD.release returns held bank pads to their region. -/
  | padHoldRelease (banks : BitVec 8)
  /-- PW_THROTTLE_APPLY (R543): Writing apply to PW_THROTTLE sets or removes the operator budget. -/
  | pwThrottleApply (src : Requester) (value : Word)
  /-- PW_THROTTLE_N (R543): PW_THROTTLE_N changes level, applying or removing pin_budget. -/
  | pwThrottleN (low : Bool)
  /-- TEMPERATURE_CROSSING (R544): The hottest junction crosses temp_throttle, 110 °C or its release points,
  changing the throttle budget or stretch level. -/
  | temperatureCrossing (celsius : BitVec 8)
  /-- DROOP_TRIP (R544): The press-rail droop detector trips and stretch level 1 is applied. -/
  | droopTrip (tripped : Bool)
  /-- POWER_WINDOW (R544): At each 64-point window end, measured power is judged against the budget to apply or
  end level 1 stretch. -/
  | powerWindow (watts : BitVec 12)
  /-- PW_ALERT_N (R544): PW_ALERT_N changes level, applying or ending stretch level 2. -/
  | pwAlertN (low : Bool)
  /-- GET_CERT (R554): Mailbox GET_CERT returns the identity certificate. -/
  | getCert (inLen : BitVec 14)
  /-- GET_WRAP_KEY (R554): Mailbox GET_WRAP_KEY returns the signed wrap public key. -/
  | getWrapKey (inLen : BitVec 14)
  /-- QUOTE (R573): Mailbox QUOTE returns a signed quote of the part's state. -/
  | quote (inLen : BitVec 14)
  /-- LOG_READ (R572): Mailbox LOG_READ returns a signed readout of a log range. -/
  | logRead (inLen : BitVec 14)
  /-- CLAIM (R556): Mailbox CLAIM stores the installer key in the unowned state. -/
  | claim (inLen : BitVec 14)
  /-- OPEN (R556): Mailbox OPEN checks a grant, opens an installer session and replaces the challenge. -/
  | openSession (inLen : BitVec 14)
  /-- CLOSE (R557): Mailbox CLOSE ends the installer session. -/
  | closeSession (inLen : BitVec 14)
  /-- TRANSFER (R556): Mailbox TRANSFER replaces the installer key. -/
  | transferOwner (inLen : BitVec 14)
  /-- RELEASE (R556): Mailbox RELEASE erases keys, restores unowned items and ends ownership. -/
  | releaseOwner (inLen : BitVec 14)
  /-- STORE_WRITE (R561): Mailbox STORE_WRITE writes a store item, unwrapping key slots. -/
  | storeWrite (inLen : BitVec 14)
  /-- FW_LOAD (R568): Mailbox FW_LOAD writes data into the inactive firmware slot. -/
  | fwLoad (inLen : BitVec 14)
  /-- FW_ACTIVATE (R568): Mailbox FW_ACTIVATE checks the inactive slot and marks it active. -/
  | fwActivate (inLen : BitVec 14)
  /-- ROLLBACK_ADVANCE (R568): Mailbox ROLLBACK_ADVANCE raises the rollback counter to the running image's svn.
  -/
  | rollbackAdvance (inLen : BitVec 14)
  /-- STORE_WRITE_DONE (R560): A store write completes in flash and the new value takes effect, or it fails with
  TR_STORE_FAULT. -/
  | storeWriteDone (programmed : Bool)
  /-- DEVICE_RESET (R587): POR_N low, or a rail out of tolerance, resets the device, and start-up on release
  begins boot, fills and CF_DONE drive. -/
  | deviceReset (kind : ResetKind)
  /-- FMT_CLEAR_COUNTS (R103): Writing 1 to PS_FMT_CTRL.clear_counts clears the five format counters of the
  press. -/
  | fmtClearCounts (p : PressId)
  /-- PL_CLEAR_COUNTS (R142): Writing 1 to PL_CTRL.clear_counts clears the four counters of the platen. -/
  | plClearCounts (p : PressId) (pl : PlatenId)
  /-- IN_CLEAR_COUNTS (R171): Writing 1 to IN_CTRL.clear_counts clears IN_OPS. -/
  | inClearCounts (p : PressId)
  /-- JU_CLEAR_COUNTS (R171): Writing 1 to JU_CTRL.clear_counts clears the Justifier counters. -/
  | juClearCounts (p : PressId)
  /-- FM_CO_CLEAR_COUNTS (R204): Writing 1 to FM_CO_CTRL.clear_counts clears the three compositor counters. -/
  | fmCoClearCounts (f : FormeId)
  /-- PS_STALL_CLEAR_COUNTS (R282): Writing 1 to PS_STALL_CTRL.clear_counts clears the eight stall counters of
  the press. -/
  | psStallClearCounts (p : PressId)
  /-- HOST_LINK_UP (R493): The host link returns after going down without reset, and waiting proof records,
  doorbells and window traffic resume. -/
  | hostLinkUp (rate : BitVec 4) (width : BitVec 4) (flit : Bool)
  /-- FLR_COMPLETE (R493): A Function Level Reset finishes within its bound, its HI_FN_STATUS.flr bit clears and
  its BARs answer normally again instead of with Unsupported Request. -/
  | flrComplete (fn : FnId)
  /-- LOG_ENTRY_DURABLE (R571): A Colophon log entry reaches flash. -/
  | logEntryDurable (programmed : Bool := true)
  /-- SIDEBAND_READ (R537): A sideband read in Run, Trim or Idle returns PW_STATUS. -/
  | sidebandRead
  /-- STATE_ENTRY_STEP_DONE (R531): A step of Stand or Deep entry completes and the next begins, or entry
  completes. -/
  | stateEntryStepDone
  /-- LATCHED_WAKE (R533): A wake latched during entry begins in the point after entry completes. -/
  | latchedWake
  /-- GOVERNOR_TICK (R538): Every 16 points the governor adds tokens and grants queued wakes from the front. -/
  | governorTick
  /-- STRETCH_HOLD_EXPIRED (R544): A stretch level's hold time ends and the level falls, ending an episode with
  a PW_STRETCH record when it reaches 0. -/
  | stretchHoldExpired
  /-- THERMAL_TRIP (R544): At 125 °C the thermal-trip logic removes internal supplies and drives THERM_TRIP_N
  low. -/
  | thermalTrip
  /-- SESSION_EXPIRED (R557): TR_SESSION reaches 0 and the installer session ends. -/
  | sessionExpired
  /-- IDENTITY_DERIVED (R559): Foreman finishes deriving the identity and wrap keys. -/
  | identityDerived
  /-- RAIL_FAULT (R590): A monitored rail below tolerance for more than 16 pt holds the part in device reset. -/
  | railFault
  /-- FOREMAN_STARTED (R588): The firmware image chosen by the boot ROM is running, so Foreman writes the route
  tables and refresh entries, TR_FW_STATE.running is set, and a spill paused by FLR of PF0 resumes. -/
  | foremanStarted
  /-- PARTIAL_REGIONS_HELD (R438): At point 0 of the first sheet after a partial header is accepted, the bound
  regions become held, with pins kept, ports isolated and feeds silent. -/
  | partialRegionsHeld
  /-- MAILBOX_COMMAND_DONE (R554): A running mailbox command ends, so TR_RESULT.busy clears and its code and
  output length are posted. -/
  | mailboxCommandDone
  deriving DecidableEq, Repr

end Sys2Proof
end

