-- ==== Sys2Proof/WellFormed.lean ====
section
/-!
DEFINITION. WellFormed.lean: the commands that the part can be sent (00_scope.md R8, 01 R24, 13 R471 to R473, 16 R554).
An ill-formed term spells no command of a sender: a register access is an aligned word, a phase lies within half a
sheet, a window request and a mailbox input have the lengths that the windows and the mailbox allow.
-/
namespace Sys2Proof

/-- The command is one that a sender can send. -/
def Instr.wf : Instr → Bool
  | .registerWrite src addr _ _ more poisoned config => decide (addr.toNat % 4 = 0) && decide (more.length < 128) &&
    (decide (src ≠ .foreman) || (!poisoned && !config)) && (!config || more.isEmpty)
  | .lowWordRead _ addr _ more config => decide (addr.toNat % 4 = 0) && decide (more.length < 1024) && (!config || more.isEmpty)
  | .refclkInTolerance => true
  | .ptSyncEdge _ phase => decide (-2048 ≤ phase) && decide (phase < 2048)
  | .ptCodeFrame _ => true
  | .inputLost _ => true
  | .holdoverExpired => true
  | .ptClearCounts => true
  | .mkTableRead _ => true
  | .doorbell _ _ _ => true
  | .doorbellService => true
  | .ticketReadFailed _ => true
  | .submit _ => true
  | .resume _ => true
  | .pause _ => true
  | .abort _ => true
  | .admitTicket => true
  | .startFire _ => true
  | .xferWindowOpen _ => true
  | .collectiveWindowOpen _ => true
  | .refreshFire _ => true
  | .powerStepFire _ => true
  | .wakeFire _ => true
  | .holdFire _ => true
  | .promiseFire _ => true
  | .reservationEnd _ => true
  | .programLoaded _ => true
  | .compositorIdle _ => true
  | .nop _ => true
  | .halt _ => true
  | .aluGroup _ => true
  | .addi _ => true
  | .movi _ => true
  | .ld _ => true
  | .st _ => true
  | .amov _ => true
  | .smov _ => true
  | .ldt _ => true
  | .mtt _ => true
  | .mft _ => true
  | .mpy _ => true
  | .mac _ => true
  | .msu _ => true
  | .mpyr _ => true
  | .macr _ => true
  | .accGroup _ => true
  | .j _ => true
  | .jr _ => true
  | .call _ => true
  | .bcc _ => true
  | .dbnz _ => true
  | .brc _ => true
  | .lpset _ => true
  | .pass _ => true
  | .feed _ => true
  | .drain _ => true
  | .ink _ => true
  | .justify _ => true
  | .xfer _ => true
  | .link _ => true
  | .waitpt _ => true
  | .signal _ => true
  | .wait _ => true
  | .fence _ => true
  | .pwr _ => true
  | .prd _ => true
  | .passDispatch _ => true
  | .preloadDone _ _ => true
  | .passFeedStart _ _ => true
  | .passSettle _ _ => true
  | .drainDispatch _ => true
  | .drainStart _ _ => true
  | .drainDone _ _ => true
  | .inkDispatch _ => true
  | .inkDone _ => true
  | .justifyDispatch _ => true
  | .justifyDone _ => true
  | .waitptDispatch _ => true
  | .waitDispatch _ => true
  | .signalDispatch _ => true
  | .fenceDispatch _ => true
  | .pwrDispatch _ => true
  | .prdDispatch _ => true
  | .preemptRequest _ => true
  | .preempted _ => true
  | .xferDispatch _ => true
  | .poolOpen _ => true
  | .poolRelease _ => true
  | .chunkRequest _ _ => true
  | .chaseReserve _ _ => true
  | .chaseGrant _ _ => true
  | .chaseRead _ _ => true
  | .chaseData _ _ => true
  | .chaseEnd _ _ => true
  | .chaseAck _ _ => true
  | .chaseCancel _ _ => true
  | .chunkCommit _ => true
  | .galleySideChange _ => true
  | .multicastGrantDeadline _ _ => true
  | .streamDeadline _ _ => true
  | .hbmRequest _ _ => true
  | .coalesceExpire _ _ => true
  | .bucketLeak => true
  | .hbBucketCtrlWrite _ => true
  | .hbmHot _ _ => true
  | .cmdParityAlert _ _ => true
  | .replayDone _ _ => true
  | .hbClearCounts _ => true
  | .fillDone _ => true
  | .quadModeWrite _ _ => true
  | .prbsSelect _ _ heard => decide (heard.length ≤ 4)
  | .retrain _ => true
  | .flClearCounts _ => true
  | .clockRecoveryLock _ _ => true
  | .laneLock _ _ _ => true
  | .laneLockLost _ _ _ => true
  | .trainingTimeout _ => true
  | .trainBlock _ _ _ => true
  | .flit _ _ _ => true
  | .retryTimeout _ => true
  | .linkDispatch _ => true
  | .collectiveDispatch _ => true
  | .forronChunkRequest _ => true
  | .forronReserve _ => true
  | .forronGrant _ _ _ => true
  | .forronData _ => true
  | .receipt _ => true
  | .forronCancel _ => true
  | .grantHoldExpired _ => true
  | .forronDeadline _ => true
  | .flRouteDataWrite _ _ _ => true
  | .flOrouteDataWrite _ _ => true
  | .saveDone _ => true
  | .restoreDone _ => true
  | .treeWindow _ _ _ _ => true
  | .fountPllLock _ _ => true
  | .iwBeat _ => true
  | .rqAccept _ => true
  | .rdBeat _ _ => true
  | .feedBeat _ _ => true
  | .feedMapWrite _ _ => true
  | .ftClearCounts => true
  | .cfBegin _ => true
  | .cfAbort => true
  | .cfDoneRelease => true
  | .streamWord _ _ _ => true
  | .headerAccepted => true
  | .clearingDone => true
  | .cfNop => true
  | .frames => true
  | .wreg => true
  | .raminit => true
  | .tag => true
  | .endCmd => true
  | .loadTruncated => true
  | .fullLoadComplete => true
  | .globalRelease _ _ => true
  | .peersAbsent => true
  | .partialCommit => true
  | .shadowDiscardRelease => true
  | .releaseStage => true
  | .captureStart _ => true
  | .captureRelease => true
  | .captureCancel => true
  | .captureEdge => true
  | .captureCopyDone => true
  | .captureTimeout => true
  | .clockStopWrite _ => true
  | .fountStopped => true
  | .fountResumed => true
  | .readSelWrite _ => true
  | .frameCheck => true
  | .cfErrorClear => true
  | .hbmWindowRead _ len => decide (0 < len.toNat) && decide (len.toNat ≤ 4096)
  | .hbmWindowWrite _ data _ => decide (0 < data.length) && decide (data.length ≤ 512)
  | .userWindowWrite _ data _ => decide (0 < data.length) && decide (data.length ≤ 512)
  | .userWindowRead _ len => decide (0 < len.toNat) && decide (len.toNat ≤ 512)
  | .userWindowTimeout _ => true
  | .hostReadCompletion _ _ => true
  | .ringEnable _ _ _ => true
  | .pqEnable _ _ _ => true
  | .pqHeadWrite _ _ _ => true
  | .holdoffEnd _ => true
  | .d3hotEntry _ => true
  | .functionD0 _ => true
  | .flrPf0 => true
  | .flrPf1 => true
  | .flrPf2 => true
  | .hotReset => true
  | .linkDown => true
  | .errataSpill => true
  | .erRead _ => true
  | .erClearLost => true
  | .firstErrorClear _ => true
  | .abortComplete _ => true
  | .abortDeadline _ => true
  | .psResetRequested _ _ => true
  | .psInternal _ _ => true
  | .pressQuiet _ => true
  | .drainBoundExpired _ => true
  | .pressResetDone _ => true
  | .resetBoundExpired _ => true
  | .powerCycleBoundExpired _ => true
  | .powerStateRequest _ _ => true
  | .stateChangeStart => true
  | .stateEntryStepDone => true
  | .sidebandAddressMatch _ => true
  | .sidebandRead => true
  | .latchedWake => true
  | .wakeAtArm _ => true
  | .pwGateQuadWrite _ _ => true
  | .pwGateRegionWrite _ _ => true
  | .governorTick => true
  | .domainPowerGood _ => true
  | .domainFault _ => true
  | .domainOff _ => true
  | .padHoldRelease _ => true
  | .pwThrottleApply _ _ => true
  | .pwThrottleN _ => true
  | .temperatureCrossing _ => true
  | .droopTrip _ => true
  | .powerWindow _ => true
  | .pwAlertN _ => true
  | .stretchHoldExpired => true
  | .thermalTrip => true
  | .getCert inLen => decide (inLen.toNat ≤ 8192)
  | .getWrapKey inLen => decide (inLen.toNat ≤ 8192)
  | .quote inLen => decide (inLen.toNat ≤ 8192)
  | .logRead inLen => decide (inLen.toNat ≤ 8192)
  | .claim inLen => decide (inLen.toNat ≤ 8192)
  | .openSession inLen => decide (inLen.toNat ≤ 8192)
  | .closeSession inLen => decide (inLen.toNat ≤ 8192)
  | .transferOwner inLen => decide (inLen.toNat ≤ 8192)
  | .releaseOwner inLen => decide (inLen.toNat ≤ 8192)
  | .storeWrite inLen => decide (inLen.toNat ≤ 8192)
  | .fwLoad inLen => decide (inLen.toNat ≤ 8192)
  | .fwActivate inLen => decide (inLen.toNat ≤ 8192)
  | .rollbackAdvance inLen => decide (inLen.toNat ≤ 8192)
  | .sessionExpired => true
  | .storeWriteDone _ => true
  | .identityDerived => true
  | .logEntryDurable _ => true
  | .deviceReset _ => true
  | .railFault => true
  | .fmtClearCounts _ => true
  | .plClearCounts _ _ => true
  | .inClearCounts _ => true
  | .juClearCounts _ => true
  | .fmCoClearCounts _ => true
  | .psStallClearCounts _ => true
  | .hostLinkUp rate width inFlits => decide (1 ≤ rate.toNat) && decide (rate.toNat ≤ 7) && (inFlits || decide (rate.toNat ≤ 5)) &&
    [1, 2, 4, 8].contains width.toNat
  | .foremanStarted => true
  | .partialRegionsHeld => true
  | .flrComplete _ => true
  | .mailboxCommandDone => true

end Sys2Proof
end

