-- ==== Sys2Proof/Decode.lean ====
section
/-!
DEFINITION. Decode.lean: the command that a word spells. spec/opcode_table.json gives bits to none of its rows, so no
word spells a command: this block takes commands (register accesses, bus operations, events), not words.
-/
namespace Sys2Proof

/-- The command that the low `nbits` bits of `w` spell by the opcode table: none, since no row has bits. -/
def decodeTableWord (_nbits _w : Nat) : Option Instr := none

end Sys2Proof
end

