-- ==== Sys2Proof/Config.lean ====
section
/-!
DEFINITION. Config.lean: what an implementation fixes and the spec leaves open, as constants without a body.
Nothing can be proved of their values, so every theorem of this package holds whatever they are.
-/
namespace Sys2Proof

/-- A value of `w` bits that the spec leaves open, the `n`-th that the run takes (the counter `free` of the state).
Used for: the random challenge (R555), what a failed HBM write leaves (R298), how many columns of a faulting drain
had left the inking unit (R138), and the other open values that the assumption log names. -/
opaque Config.freeBits (w n : Nat) : BitVec w

/-- The 256-bit seed that Foreman reconstructs from the response of the physically unclonable function and the maker's helper data:
fixed for one part (R558). -/
opaque Config.seed : BitVec 256

/-- The two primes of a key, drawn from HMAC_DRBG in the state (K, V) that it is seeded to; the spec does not say how its output
becomes a candidate (R558). -/
opaque Config.drawPrimes (k v : List Byte) : Nat × Nat

/-- The maker's public key, under which firmware images verify (R566). -/
opaque Config.makerModulus : BitVec 4096

/-- SHA-512 of the image that the maker wrote into slot A at manufacture (R573); the spec does not give its bytes. -/
opaque Config.factoryDigest : BitVec 512

/-- The identity certificate that the maker wrote (R559). -/
opaque Config.certificate : List Byte

/-- The serial number of the part (R577). -/
opaque Config.serial : BitVec 64

/-- The chunk number by which a transit part routes the DATA of a chunk whose RESERVE it has not forwarded (R357). -/
opaque Config.unknownChunk (src : BitVec 27) (tag : BitVec 12) : Nat

/-- The bytes of store item `item` (02h to 07h) for its values, as the store digest takes them: the spec gives what the
item holds and not its layout (R561, R574). -/
opaque Config.storeItem (item : Nat) (values : List Nat) : List Byte

/-- The power-table codes of a state after Foreman's clamp: the body bias in the low byte, the SRAM assist above it.
The limits are those of the maker-signed firmware (R540). -/
opaque Config.biasClamp (state : Nat) (code : BitVec 16) : BitVec 16

/-- The place of the isolation value of wire `wire` that enters region `region` from region `neighbour`, in the boundary minors
of the region's X columns (R397, R402): the spec names the frames and no place in them. -/
opaque Config.boundaryBit (region neighbour wire : Nat) : Nat

/-- The width that a mode frame of a fount RAM block selects, as an index into the list of R403: the spec gives no codes. -/
opaque Config.ramMode (frame : BitVec 4096) : Nat

/-- The place in P minor frames 0 to 7 of bit `i` of the control of a crossing: its port (kind 0), its direct feed 0 or 1 (kinds 1
and 2), its quad interface (3) or its bridge wires (4). Bits 0 to 4 are the clock select, bit 5 the enable (R397, R406): the spec names
the frames and no place in them. -/
opaque Config.crossBit (kind i : Nat) : Nat

/-- What the 4 control bits of a flip-flop say (R397, R399): bit 0 its data come from its cell, bit 1 its stick clock wire, bit 2 the
value of its set or reset, bit 3 whether that acts at once, bit 4 its initial value. The spec gives the bits no meaning each. -/
opaque Config.flopControl (control : BitVec 4) : BitVec 5

/-- What the B frame of a pin sets (R397, R418): bit 5 LVDS and bit 4 its termination, else LVCMOS with bits 0 and 1 its drive and bits
2 and 3 its pull. The spec gives the frame no layout. -/
opaque Config.pinCode (frame : BitVec 4096) : BitVec 6

/-- VCCIOb that the board supplies to a pin bank: 0 for 1.2 V, 1 for 1.5 V, 2 for 1.8 V (R418, R580). -/
opaque Config.bankSupply (bank : Nat) : Nat

/-- Mask of the bits of a frame that are multiplexer selects, by column kind and minor (R435): their places are not in
the spec. Bit pairs that the mask names must not both be set. -/
opaque Config.muxSelects (kind minor : Nat) : List (Nat × Nat)

/-- What the areas of a save image whose layout R388 leaves open hold: byte `i` of area `area` (0 compositor state,
1 press state, 2 queue entry) is the content's byte, in the order of R388, XOR this. -/
opaque Config.saveMask (area i : Nat) : Byte

end Sys2Proof
end

