-- ==== Sys2Proof/Machine/Bits.lean ====
section
/-!
DEFINITION. Machine/Bits.lean: bit-field, byte-order and saturation helpers, and sparse maps in one canonical form.
Everything that reads or writes a field of a register, a table entry or a record goes through these.
-/
namespace Sys2Proof.Machine

/-- Field [hi:lo] of `x` as a bit vector of width `hi - lo + 1`. -/
def field {n : Nat} (x : BitVec n) (hi lo : Nat) : BitVec (hi - lo + 1) := x.extractLsb hi lo

/-- Field [hi:lo] of `x` as a number. -/
def fieldN {n : Nat} (x : BitVec n) (hi lo : Nat) : Nat := x.toNat / 2 ^ lo % 2 ^ (hi - lo + 1)

/-- `x` with field [hi:lo] replaced by the low bits of `v`. -/
def setField {n : Nat} (x : BitVec n) (hi lo : Nat) (v : Nat) : BitVec n :=
  (x &&& ~~~(BitVec.ofNat n ((2 ^ (hi - lo + 1) - 1) * 2 ^ lo)))
    ||| BitVec.ofNat n ((v % 2 ^ (hi - lo + 1)) * 2 ^ lo)

/-- `v`, at most `hi - lo + 1` bits of it, placed at bit `lo` of a word of `n` bits. -/
def place (n hi lo : Nat) (v : Nat) : BitVec n := BitVec.ofNat n ((v % 2 ^ (hi - lo + 1)) * 2 ^ lo)

/-- Bit `k` of `x`. -/
def bit {n : Nat} (x : BitVec n) (k : Nat) : Bool := x.getLsbD k

/-- A Bool as a number. -/
def b2n (b : Bool) : Nat := if b then 1 else 0

/-- Add `k` to a counter that saturates at its largest value (R61, R104, R143). -/
def satAdd {n : Nat} (x : BitVec n) (k : Nat) : BitVec n :=
  if x.toNat + k < 2 ^ n then BitVec.ofNat n (x.toNat + k) else BitVec.ofNat n (2 ^ n - 1)

/-- The little-endian number of a list of bytes. -/
def leNat : List Byte → Nat
  | [] => 0
  | b :: r => b.toNat + 256 * leNat r

/-- The `k` low bytes of `v`, least significant first. -/
def leBytes : Nat → Nat → List Byte
  | 0, _ => []
  | k + 1, v => BitVec.ofNat 8 v :: leBytes k (v / 256)

/-- The `k` low bytes of `v`, most significant first. -/
def beBytes (k v : Nat) : List Byte := (leBytes k v).reverse

/-- The big-endian number of a list of bytes. -/
def beNat (l : List Byte) : Nat := leNat l.reverse

/-- `count` bits of a list of bytes read as one little-endian bit string, from bit `lo` (R68). -/
def bitsAt (l : List Byte) (lo count : Nat) : Nat :=
  let first := lo / 8
  let last := (lo + count + 7) / 8
  leNat ((l.drop first).take (last - first)) / 2 ^ (lo % 8) % 2 ^ count

/-- The `k` bytes of `l` from offset `off`, as a little-endian number. -/
def leAt (l : List Byte) (off k : Nat) : Nat := leNat ((l.drop off).take k)

/-- `n` copies of a byte. -/
def bytesOf (n : Nat) (b : Byte) : List Byte := List.replicate n b

/-- Replace bytes of `l` from offset `off` by `v`. -/
def spliceBytes (l : List Byte) (off : Nat) (v : List Byte) : List Byte :=
  l.take off ++ v ++ l.drop (off + v.length)

/-- The two's complement value of the low `n` bits of `v`. -/
def sextN (n v : Nat) : Int :=
  let r := v % 2 ^ n
  if n = 0 then 0 else if r < 2 ^ (n - 1) then (r : Int) else (r : Int) - (2 ^ n : Nat)

/-- An integer modulo 2^n as a number. -/
def modPow (n : Nat) (v : Int) : Nat := (v % ((2 ^ n : Nat) : Int)).toNat

/-! Sparse maps: key and value pairs with rising keys and no entry equal to the default. -/

/-- The value at key `k`; the default where the list has no entry. -/
def smapGet {α : Type} (dflt : α) : List (Nat × α) → Nat → α
  | [], _ => dflt
  | (k', v) :: r, k => if k' = k then v else if k < k' then dflt else smapGet dflt r k

/-- Insert a value that differs from the default, keeping keys rising. -/
def smapPut {α : Type} : List (Nat × α) → Nat → α → List (Nat × α)
  | [], k, v => [(k, v)]
  | (k', v') :: r, k, v =>
    if k' = k then (k, v) :: r
    else if k < k' then (k, v) :: (k', v') :: r
    else (k', v') :: smapPut r k v

/-- Remove the entry of key `k`. -/
def smapDel {α : Type} : List (Nat × α) → Nat → List (Nat × α)
  | [], _ => []
  | (k', v') :: r, k =>
    if k' = k then r
    else if k < k' then (k', v') :: r
    else (k', v') :: smapDel r k

/-- Write `v` at `k`: writing the default removes the entry, so equal maps are equal data. -/
def smapSet {α : Type} [DecidableEq α] (dflt : α) (m : List (Nat × α)) (k : Nat) (v : α) :
    List (Nat × α) :=
  if v = dflt then smapDel m k else smapPut m k v

/-- Change the value at `k`. -/
def smapMod {α : Type} [DecidableEq α] (dflt : α) (m : List (Nat × α)) (k : Nat) (f : α → α) :
    List (Nat × α) :=
  smapSet dflt m k (f (smapGet dflt m k))

/-- Keys rise strictly from `lo` on and no value is the default. -/
def smapWfFrom {α : Type} [DecidableEq α] (dflt : α) : Nat → List (Nat × α) → Bool
  | _, [] => true
  | lo, (k, v) :: r => decide (lo ≤ k) && decide (v ≠ dflt) && smapWfFrom dflt (k + 1) r

/-- The canonical form. -/
def smapWf {α : Type} [DecidableEq α] (dflt : α) (m : List (Nat × α)) : Bool := smapWfFrom dflt 0 m

/-! Vectors with Fin indexes. -/

/-- Replace element `i`. -/
def vset {α : Type} {n : Nat} (v : Vector α n) (i : Fin n) (x : α) : Vector α n := v.set i.1 x i.2

/-- Change element `i`. -/
def vmod {α : Type} {n : Nat} (v : Vector α n) (i : Fin n) (f : α → α) : Vector α n :=
  v.set i.1 (f (v[i.1]'i.2)) i.2

/-- Element `i` of a vector, or a default when there is none. -/
def vgetN {α : Type} {n : Nat} (dflt : α) (v : Vector α n) (i : Nat) : α :=
  if h : i < n then v[i] else dflt

/-- Change element `i` where there is one. -/
def vmodN {α : Type} {n : Nat} (v : Vector α n) (i : Nat) (f : α → α) : Vector α n :=
  if h : i < n then v.set i (f v[i]) h else v

/-- Change every element, with its index. -/
def vmapIdx {α : Type} {n : Nat} (v : Vector α n) (f : Nat → α → α) : Vector α n :=
  v.mapIdx f

/-- The numbers from `lo` to `lo + n - 1`. -/
def rangeFrom (lo n : Nat) : List Nat := (List.range n).map (· + lo)

/-- The element at index `i` of a list, or a default. -/
def nth {α : Type} (dflt : α) (l : List α) (i : Nat) : α := l.getD i dflt

/-- Remove element `i` of a list. -/
def removeAt {α : Type} (l : List α) (i : Nat) : List α := l.take i ++ l.drop (i + 1)

/-- The first index at which `p` holds. -/
def findIdx? {α : Type} (p : α → Bool) : List α → Option Nat
  | [] => none
  | x :: r => if p x then some 0 else (findIdx? p r).map (· + 1)

/-- Replace every element that `p` picks. -/
def modWhere {α : Type} (p : α → Bool) (f : α → α) (l : List α) : List α :=
  l.map fun x => if p x then f x else x

end Sys2Proof.Machine
end

