-- ==== Sys2Proof/Machine/Formats.lean ====
section
/-!
DEFINITION. Machine/Formats.lean: the eleven number formats, leads and the one conversion path of
02_number_formats.md (R67 to R101). A finite value is held exactly as (-1)^neg * m * 2^e, so that a conversion
decodes exactly, scales exactly and rounds once (R84, R86).
-/
namespace Sys2Proof.Machine

/-- The formats of R67. -/
inductive Fmt where
  | binary32 | binary16 | minion8 | brevier8 | nonpareil6 | pearl4 | diamond3 | brilliant2
  | int8 | int4 | int32
  deriving DecidableEq, Repr

/-- The format of a code; Bh to Fh are reserved (R67). -/
def fmtOfCode : Nat → Option Fmt
  | 0 => some .binary32 | 1 => some .binary16 | 2 => some .minion8 | 3 => some .brevier8
  | 4 => some .nonpareil6 | 5 => some .pearl4 | 6 => some .diamond3 | 7 => some .brilliant2
  | 8 => some .int8 | 9 => some .int4 | 10 => some .int32 | _ => none

/-- The 4-bit code of a format (R67). -/
def fmtCode : Fmt → Nat
  | .binary32 => 0 | .binary16 => 1 | .minion8 => 2 | .brevier8 => 3 | .nonpareil6 => 4
  | .pearl4 => 5 | .diamond3 => 6 | .brilliant2 => 7 | .int8 => 8 | .int4 => 9 | .int32 => 10

/-- Element width in bits (R67). -/
def fmtWidth : Fmt → Nat
  | .binary32 => 32 | .binary16 => 16 | .minion8 => 8 | .brevier8 => 8 | .nonpareil6 => 6
  | .pearl4 => 4 | .diamond3 => 3 | .brilliant2 => 2 | .int8 => 8 | .int4 => 4 | .int32 => 32

/-- The short formats, which carry leads (R67). -/
def fmtShort : Fmt → Bool
  | .binary32 | .binary16 | .int32 => false
  | _ => true

/-- The integer formats. -/
def fmtInt : Fmt → Bool
  | .int8 | .int4 | .int32 => true
  | _ => false

/-- A format whose grid has mantissa steps: mantissa bits and the exponent of the smallest step (R70, R74 to R78).
Diamond3 is the case of no mantissa bits. -/
def fmtFloat : Fmt → Option (Nat × Int)
  | .binary32 => some (23, -149)
  | .binary16 => some (10, -24)
  | .minion8 => some (2, -17)
  | .brevier8 => some (3, -10)
  | .nonpareil6 => some (2, -4)
  | .pearl4 => some (1, -1)
  | .diamond3 => some (0, 0)
  | _ => none

/-- The largest finite magnitude m * 2^e for each sign (R77's limits table). -/
def fmtMax (f : Fmt) (neg : Bool) : Nat × Int :=
  match f with
  | .binary32 => (2 ^ 24 - 1, 104)
  | .binary16 => (2 ^ 11 - 1, 5)
  | .minion8 => (7, 13)
  | .brevier8 => (15, 4)
  | .nonpareil6 => (7, 2)
  | .pearl4 => (3, 1)
  | .diamond3 => (1, 2)
  | .brilliant2 => (1, 0)
  | .int8 => (if neg then 128 else 127, 0)
  | .int4 => (if neg then 8 else 7, 0)
  | .int32 => (if neg then 2 ^ 31 else 2 ^ 31 - 1, 0)

/-- emax of R77: the exponent of the largest finite value. -/
def fmtEmax : Fmt → Int
  | .binary32 => 127 | .binary16 => 15 | .minion8 => 15 | .brevier8 => 7 | .nonpareil6 => 4
  | .pearl4 => 2 | .diamond3 => 2 | .brilliant2 => 0 | .int8 => 6 | .int4 => 2 | .int32 => 30

/-- The exponent of the smallest normal magnitude (R77). -/
def fmtMinNormal : Fmt → Int
  | .binary32 => -126 | .binary16 => -14 | .minion8 => -15 | .brevier8 => -7 | .nonpareil6 => -2
  | _ => 0

/-- An exact value: a real number, a signed infinity, or a NaN held as a binary32 code (R86 step 1). -/
inductive Val where
  | fin (neg : Bool) (m : Nat) (e : Int)
  | inf (neg : Bool)
  | nan (code : BitVec 32)
  deriving DecidableEq, Repr

/-- Positive zero. -/
def valZero : Val := .fin false 0 0

/-- The default NaN of R71. -/
def nan32 : BitVec 32 := 0x7FC00000#32
def valNaN : Val := .nan nan32

/-- The quiet bit set (R71). -/
def quiet32 (w : BitVec 32) : BitVec 32 := w ||| 0x00400000#32

/-- The exact value of a code of a floating-point long format, exponent width `ew`, mantissa width `M`. -/
def decodeIeee (ew M : Nat) (c : Nat) : Val :=
  let neg := decide (c / 2 ^ (ew + M) % 2 = 1)
  let e := c / 2 ^ M % 2 ^ ew
  let m := c % 2 ^ M
  let bias : Int := (2 ^ (ew - 1) : Nat) - 1
  if e = 2 ^ ew - 1 then
    if m = 0 then .inf neg
    else .nan (BitVec.ofNat 32 (b2n neg * 2 ^ 31 + 0x7F800000 + m * 2 ^ (23 - M)))
  else if e = 0 then .fin neg m (1 - bias - M)
  else .fin neg (2 ^ M + m) (e - bias - M)

/-- The exact value of a sign and magnitude code whose magnitude counts the steps of the grid (R75, R76). -/
def decodeSteps (M : Nat) (qmin : Int) (neg : Bool) (mag : Nat) : Val :=
  if mag < 2 ^ M then .fin (neg && mag ≠ 0) mag qmin
  else .fin neg (2 ^ M + mag % 2 ^ M) (qmin + ((mag / 2 ^ M : Nat) : Int) - 1)

/-- The exact value of an element code, before its lead (R70, R74 to R77). Codes that R77 says are never written
decode as +0, and 80h of the 8-bit floating formats is the default NaN (R96). -/
def decodeElem (f : Fmt) (code : Nat) : Val :=
  match f with
  | .binary32 => decodeIeee 8 23 code
  | .binary16 => decodeIeee 5 10 code
  | .int8 | .int4 | .int32 =>
    let v := sextN (fmtWidth f) code
    .fin (v < 0) v.natAbs 0
  | .brilliant2 => .fin (code % 4 = 3) (code % 2) 0
  | _ =>
    let w := fmtWidth f
    let neg := decide (code / 2 ^ (w - 1) % 2 = 1)
    let mag := code % 2 ^ (w - 1)
    if neg && mag = 0 && (f = .minion8 || f = .brevier8) then valNaN
    else match fmtFloat f with
      | some (M, q) => decodeSteps M q neg mag
      | none => valZero

/-- Multiply an exact value by 2^s (R86 step 2). -/
def valScale (v : Val) (s : Int) : Val :=
  match v with
  | .fin n m e => .fin n m (e + s)
  | v => v

/-- The rounding codes of R87. -/
inductive Rnd where
  | rne | rna | rtz | rup | rdn | sr
  deriving DecidableEq, Repr

def rndOfCode : Nat → Option Rnd
  | 0 => some .rne | 1 => some .rna | 2 => some .rtz | 3 => some .rup | 4 => some .rdn | 5 => some .sr
  | _ => none

/-- The overflow modes of R91. -/
inductive Ovf where
  | sat | ieee | trap
  deriving DecidableEq, Repr

def ovfOfCode : Nat → Option Ovf
  | 0 => some .sat | 1 => some .ieee | 2 => some .trap | _ => none

/-- floor(log2) of a non-zero m * 2^e. -/
def valLog2 (m : Nat) (e : Int) : Int := (Nat.log2 m : Int) + e

/-- The step exponent of the continued grid at magnitude m * 2^e (R78). -/
def gridStep (f : Fmt) (m : Nat) (e : Int) : Int :=
  match fmtFloat f with
  | some (M, qmin) => if m = 0 then qmin else max (valLog2 m e - M) qmin
  | none => 0

/-- Whether a value between steps `n` and `n + 1`, with remainder `rem` of `2^sh`, goes to the upper one
(R87 to R89). `odd` says that step `n` is odd under R78. -/
def roundUp (rnd : Rnd) (neg odd : Bool) (q32 rem sh : Nat) : Bool :=
  if rem = 0 then false
  else match rnd with
    | .rne => decide (2 * rem > 2 ^ sh) || (decide (2 * rem = 2 ^ sh) && odd)
    | .rna => decide (2 * rem ≥ 2 ^ sh)
    | .rtz => false
    | .rup => !neg
    | .rdn => neg
    | .sr => decide (q32 < rem * 2 ^ 32 / 2 ^ sh)

/-- Step `n` of step exponent `q` counts as odd (R78, R88). -/
def gridOdd (f : Fmt) (n : Nat) (q : Int) : Bool :=
  match fmtFloat f with
  | some (M, qmin) => ((q - qmin).toNat * 2 ^ M + n) % 2 = 1
  | none => n % 2 = 1

/-- The magnitude m * 2^e rounded to the continued grid, as steps n of 2^q, and whether that was exact (R88, R89).
`more` says that the exact magnitude is a little above m * 2^e (an irrational or infinite expansion cut off). -/
def roundGrid (f : Fmt) (rnd : Rnd) (neg : Bool) (q32 : Nat) (m : Nat) (e : Int) (more : Bool := false) :
    Nat × Int × Bool :=
  let q := gridStep f m e
  let m' := if more then 4 * m + 1 else m
  let e' := if more then e - 2 else e
  if e' ≥ q then (m' * 2 ^ (e' - q).toNat, q, true)
  else
    let sh := (q - e').toNat
    let n := m' / 2 ^ sh
    let rem := m' % 2 ^ sh
    let n' := if roundUp rnd neg (gridOdd f n q) q32 rem sh then n + 1 else n
    match fmtFloat f with
    | some (M, _) => if n' = 2 ^ (M + 1) then (2 ^ M, q + 1, rem = 0) else (n', q, rem = 0)
    | none => (n', q, rem = 0)

/-- m1 * 2^e1 < m2 * 2^e2. -/
def magLt (m1 : Nat) (e1 : Int) (m2 : Nat) (e2 : Int) : Bool :=
  if m1 = 0 then m2 ≠ 0
  else if m2 = 0 then false
  else if e1 ≤ e2 then m1 < m2 * 2 ^ (e2 - e1).toNat else m1 * 2 ^ (e1 - e2).toNat < m2

/-- The code of a magnitude that is on the grid of `f`, with its sign (R75 to R77, R95). -/
def encodeMag (f : Fmt) (neg : Bool) (n : Nat) (q : Int) : Nat :=
  match f with
  | .int8 | .int4 | .int32 =>
    let v : Int := (n * 2 ^ q.toNat : Nat)
    modPow (fmtWidth f) (if neg then -v else v)
  | .brilliant2 => if n = 0 then 0 else if neg then 3 else 1
  | _ =>
    match fmtFloat f with
    | none => 0
    | some (M, qmin) =>
      let mag := (q - qmin).toNat * 2 ^ M + n
      let s := if neg && (n ≠ 0 || !fmtShort f) then 2 ^ (fmtWidth f - 1) else 0
      if n = 0 then s else s + mag

/-- The largest finite code of a sign (or the least integer). -/
def encodeMax (f : Fmt) (neg : Bool) : Nat :=
  let (m, e) := fmtMax f neg
  let q := gridStep f m e
  encodeMag f neg (m * 2 ^ (e - q).toNat) q

/-- An infinity code of a long floating format. -/
def encodeInf (f : Fmt) (neg : Bool) : Nat :=
  match f with
  | .binary16 => 0x7C00 + b2n neg * 2 ^ 15
  | _ => 0x7F800000 + b2n neg * 2 ^ 31

/-- What one conversion delivers: the code, a fault, and the events of R100. -/
structure ConvOut where
  code  : Nat
  fault : Option (BitVec 16)
  ovf   : Bool
  sat   : Bool
  und   : Bool
  van   : Bool
  sq    : Bool
  deriving DecidableEq, Repr

def convPlain (code : Nat) : ConvOut := ⟨code, none, false, false, false, false, false⟩

/-- FMT_OVERFLOW, FMT_NAN_UNREPRESENTABLE and FMT_BAD_ENCODING (R107). -/
def codeFmtOverflow : BitVec 16 := 0x0201#16
def codeFmtNan : BitVec 16 := 0x0202#16
def codeFmtBad : BitVec 16 := 0x0203#16

/-- The modes a conversion runs under (R99). -/
structure ConvMode where
  rnd    : Rnd
  ovf    : Ovf
  squash : Bool
  /-- The Justifier's quantising saturates whatever the mode (R92). -/
  always : Bool
  deriving DecidableEq, Repr

/-- The outcome of an overflow (R91, R92). -/
def convOverflow (f : Fmt) (md : ConvMode) (neg : Bool) : ConvOut :=
  let saturated : ConvOut := ⟨encodeMax f neg, none, true, true, false, false, false⟩
  if md.always then saturated
  else match md.ovf with
    | .trap => ⟨0, some codeFmtOverflow, true, false, false, false, false⟩
    | .sat => saturated
    | .ieee =>
      match f with
      | .binary32 | .binary16 =>
        let toInf := match md.rnd with
          | .rne | .rna | .sr => true
          | .rup => !neg
          | .rdn => neg
          | .rtz => false
        if toInf then ⟨encodeInf f neg, none, true, false, false, false, false⟩ else saturated
      | .minion8 | .brevier8 => ⟨0x80, none, true, false, false, false, false⟩
      | _ => saturated

/-- Encode an exact value in a destination format (R86 steps 3 and 4, R90 to R97). -/
def encodeVal (f : Fmt) (md : ConvMode) (q32 : Nat) (v : Val) (more : Bool := false) : ConvOut :=
  match v with
  | .nan w =>
    match f with
    | .binary32 => convPlain (quiet32 w).toNat
    | .binary16 =>
      let w := quiet32 w
      convPlain (w.toNat / 2 ^ 31 * 2 ^ 15 + 0x7C00 + w.toNat / 2 ^ 13 % 2 ^ 10)
    | .minion8 | .brevier8 => convPlain 0x80
    | _ =>
      if md.squash then ⟨0, none, false, false, false, false, true⟩
      else ⟨0, some codeFmtNan, false, false, false, false, false⟩
  | .inf neg =>
    match f with
    | .binary32 | .binary16 => convPlain (encodeInf f neg)
    | _ => convOverflow f md neg
  | .fin neg m e =>
    if m = 0 && !more then convPlain (encodeMag f neg 0 0)
    else
      let (n, q, exact) := roundGrid f md.rnd neg q32 m e more
      let (xm, xe) := fmtMax f neg
      if magLt xm xe n q then convOverflow f md neg
      else
        let und := !exact && magLt m e 1 (fmtMinNormal f)
        ⟨encodeMag f neg n q, none, false, false, und, n = 0, false⟩

/-- A whole conversion: decode, scale by 2^s, encode (R86). -/
def convert (src dst : Fmt) (md : ConvMode) (q32 : Nat) (s : Int) (code : Nat) : ConvOut :=
  encodeVal dst md q32 (valScale (decodeElem src code) s)

/-- Decode with a lead (R79, R85): a zero lead makes the element zero; an overflow of binary32 follows the mode. -/
def leadScale (lead : BitVec 8) : Option Int :=
  if lead = 0x80#8 then none else some lead.toInt

/-- Clamp a computed lead to -127 to +127 (R80). -/
def clampLead (l : Int) : BitVec 8 := BitVec.ofInt 8 (max (-127) (min 127 l))

/-- The lead sum S of R83. -/
def leadSum (a b : BitVec 8) : Int := (leadScale a).getD 0 + (leadScale b).getD 0

end Sys2Proof.Machine
end

