-- ==== Sys2Proof/Machine/Units.lean ====
section
/-!
DEFINITION. Machine/Units.lean: the state of the part's units as plain data, one structure per unit: stored memories,
Press Time and Makeready, the host interface, the Errata log, formes, presses, the chase and the HBM stacks.
The default value of a field is its value after a device reset; a field whose spec gives no reset value says so.
-/
namespace Sys2Proof.Machine

/-! ## Stored memories (08_memory_and_stored_data.md) -/

/-- A protected memory. An HBM memory is addressed by stack-local addresses (R285). -/
inductive MemId where
  | hbm (n : Nat)
  | galley (p : Nat)
  | case (f : Nat)
  | xmem (f : Nat)
  | ymem (f : Nat)
  | imem (f : Nat)
  deriving DecidableEq, Repr

/-- The context of a fault (R503), apart from the fields that R505 and R510 give when the record is written. -/
structure Ctx where
  phase   : Nat := 3
  pc      : Option (BitVec 15) := none
  stream  : Option (BitVec 12) := none
  word    : Word := 0
  issuer  : BitVec 32 := 0
  vforme  : Nat := 0
  pmask   : BitVec 8 := 0
  platen  : Nat := 255
  deriving DecidableEq, Repr

/-- Whose access it is: its task, the requester code and stream of R316, and the context of the task's fault. -/
structure Writer where
  slot   : Nat
  ticket : BitVec 64
  req    : Nat
  stream : Option (BitVec 12)
  ctx    : Ctx
  deriving DecidableEq, Repr

/-- One entry of a merge buffer: a 32-byte block, the bytes of it that narrow writes have set, and who wrote first into it;
none is a host write (R303, R304). -/
structure MergeEntry where
  block  : Nat
  mask   : BitVec 32
  data   : BitVec 256
  writer : Option Writer := none
  deriving DecidableEq, Repr

/-- An access that failed, whose error goes to its writer: the code, the memory, address, flags, attempts and syndrome of
R316. -/
structure AccessFail where
  code     : BitVec 16
  mem      : MemId
  addr     : Nat
  flags    : Nat
  attempts : Nat := 0
  syn      : BitVec 32
  writer   : Option Writer
  /-- The requester code where there is no writer. -/
  req      : Nat := 5
  deriving DecidableEq, Repr

/-- One protected memory: its bytes (an unlisted byte is zero, as the fill of R313 leaves it), the difference between
the stored check word and the code of the stored data for each block (none listed: the check word is right, R299), and
its merge buffer, oldest entry first (R303). -/
structure Mem where
  bytes : List (Nat × Byte) := []
  syn   : List (Nat × BitVec 32) := []
  merge : List MergeEntry := []
  deriving DecidableEq, Repr

/-- One entry of a coalescing table (R305): which memory of the table, the block's address, repeats, and when it
opened. -/
structure CoalEntry where
  memory : Nat
  addr   : Nat
  count  : Nat
  opened : Nat
  deriving DecidableEq, Repr

/-! ## Records (13_host_interface.md R486, 14_errata_and_recovery.md R499, R503) -/

/-- A proof record or an Errata entry without its phase bit. `detail` holds bytes 32 to 63, byte 32 lowest. -/
structure Rec where
  type        : BitVec 16 := 0
  severity    : BitVec 2 := 0
  unit        : BitVec 32 := 0
  time        : BitVec 64 := 0
  ticket      : BitVec 64 := 0
  code        : BitVec 16 := 0
  incarnation : BitVec 16 := 0
  detail      : BitVec 256 := 0
  deriving DecidableEq, Repr

/-- A first-error capture (R502, R522); all zero when nothing is held. -/
structure Capture where
  valid  : Bool := false
  more   : Bool := false
  code   : BitVec 16 := 0
  time   : BitVec 64 := 0
  ticket : BitVec 64 := 0
  pc     : Option (BitVec 15) := none
  stream : Option (BitVec 12) := none
  unit   : BitVec 32 := 0
  deriving DecidableEq, Repr

/-! ## Press Time (01_press_time.md R21 to R35, R59 to R61) -/

/-- The time states of R27, coded in this order (R60). -/
inductive TimeState where
  | unsynced | acquiring | locked | holdover | lost
  deriving DecidableEq, Repr

/-- Press Time: the count, the registers of R59 to R61, and what R28 and R31 to R34 make the part remember. -/
structure PressTime where
  count          : BitVec 64 := 0
  state          : TimeState := .unsynced
  codeRequired   : Bool := true
  holdoverSheets : BitVec 16 := 0
  codeOk         : Bool := false
  syncOk         : Bool := false
  refOk          : Bool := false
  syncSlips      : BitVec 16 := 0
  codeErrors     : BitVec 16 := 0
  resyncCount    : BitVec 16 := 0
  lastStep       : BitVec 16 := 0
  /-- Points for which ref_ok has held (R31). -/
  refPoints      : Nat := 0
  /-- PT_SYNC edges in a row, each 1,600 reference cycles after the last (R31). -/
  edgeRun        : Nat := 0
  /-- Sheets in a row that carried a valid frame with next_sheet one more than the one before (R31). -/
  frameRun       : Nat := 0
  /-- next_sheet of the last valid frame, and whether it came since the last edge. -/
  lastFrame      : Option (BitVec 52) := none
  frameSeen      : Bool := false
  /-- A valid frame came in the present local sheet (R28). -/
  frameLocal     : Bool := false
  /-- src_holdover of the last valid frame (R22). -/
  srcHoldover    : Bool := false
  /-- A mismatching next_sheet noted for the edge it announces (R34). -/
  mismatch       : Option (BitVec 52) := none
  /-- Sheet boundaries in a row without a correctly placed edge, and sheets in a row without a valid frame (R28). -/
  missedEdges    : Nat := 0
  missedFrames   : Nat := 0
  /-- A correctly placed edge came at the current boundary. -/
  edgePlaced     : Bool := false
  /-- Point ticks that a backward phase step still suppresses (R34). -/
  suppress       : Nat := 0
  deriving DecidableEq, Repr

/-! ## Makeready and tickets (01_press_time.md R36 to R66) -/

/-- The abort of a task in progress (R505, R506). -/
structure AbortSt where
  code        : BitVec 16
  unit        : BitVec 32
  ctx         : Ctx
  /-- The detail of the code's own area, where it has one. -/
  own         : Option (BitVec 256)
  t0          : BitVec 64
  secondaries : Nat
  /-- The abort deadline in points, as ER_RECOVERY_CFG had it when the abort began (R507, R521). -/
  bound       : Nat
  /-- The unit addresses of the task's faults at the point t0, for their order (R505). -/
  at0         : List (BitVec 32) := []
  /-- Step 3 has begun: what the task's presses had sent for is cancelled and flushed (R506). -/
  cancelled   : Bool := false
  deriving DecidableEq, Repr

/-- A pause in progress (R385, R386). -/
structure PauseSt where
  addr    : Nat
  started : BitVec 64
  deriving DecidableEq, Repr

/-- An open ticket, and its task (R44, R48 to R56, R379). -/
structure Ticket where
  slot         : Nat
  id           : BitVec 64
  ring         : Nat
  ringIndex    : Nat
  pq           : Nat
  cls          : Nat
  abortOnBreak : Bool
  resume       : Bool
  seed         : BitVec 64
  step         : BitVec 64
  program      : Nat
  entryTally   : BitVec 64
  start        : Nat
  promise      : Nat
  /-- Virtual to physical formes of the placement where the imposition is relocated (R42). -/
  map          : List (Nat × Nat)
  /-- The imposition is relocated, and the virtual and physical numbers of its formes, equal where it is not. -/
  relocated    : Bool := false
  formes       : List (Nat × Nat) := []
  /-- Table indices of its entries, imposition order first. -/
  entries      : List Nat
  /-- START entries that have not yet fired, and programs begun and not yet ended. -/
  toStart      : Nat
  running      : Nat
  started      : Bool
  broken       : Bool
  brokenUnit   : BitVec 32
  abort        : Option AbortSt
  pause        : Option PauseSt
  /-- The sheets that a resumed task had run before it was paused, from its save image (R391). -/
  elapsed      : Nat
  deriving DecidableEq, Repr

/-- A ticket that Makeready is handling (R43): its bytes and where it was read. Its opening checks have passed and the read of
its imposition has been issued (R44). -/
structure Admission where
  ring   : Nat
  index  : Nat
  pq     : Nat
  ticket : BitVec 512
  /-- The read of its imposition has met HB_REPLAY_EXHAUSTED (R298, R308). -/
  lost   : Bool := false
  deriving DecidableEq, Repr

/-- A power budget that takes effect at a sheet (R53). -/
structure ThrottleReq where
  budget : Nat
  sheet  : Nat
  deriving DecidableEq, Repr

/-- Makeready's registers and its work (R36 to R65). -/
structure Makeready where
  search       : BitVec 13 := 0x100
  lead         : BitVec 4 := 2
  admitting    : Bool := true
  budget       : BitVec 9 := 0x190
  classPower   : Vector (BitVec 9) 4 := Vector.replicate 4 0x190
  classFormes  : Vector (BitVec 5) 4 := Vector.replicate 4 0x10
  accepted     : BitVec 32 := 0
  refused      : BitVec 32 := 0
  broken       : BitVec 32 := 0
  tableIndex   : BitVec 16 := 0
  tableCopy    : BitVec 128 := 0
  /-- The imposition table: entries that are valid, by index (R36); any other reads as zero (R48). -/
  table        : List (Nat × BitVec 128) := []
  tickets      : List Ticket := []
  admission    : Option Admission := none
  /-- The budget in force before every request of `throttles`, and the requests, oldest first (R53). -/
  effBase      : Nat := 0x190
  throttles    : List ThrottleReq := []
  deriving DecidableEq, Repr

/-! ## The host interface (13_host_interface.md) -/

/-- A ticket ring (R482, R495). -/
structure Ring where
  base    : BitVec 64 := 0
  enable  : Bool := false
  pq      : BitVec 3 := 0
  size    : BitVec 13 := 0
  tail    : BitVec 12 := 0
  head    : BitVec 12 := 0
  /-- A disabling write waits for the ticket in progress (R482). -/
  closing : Bool := false
  deriving DecidableEq, Repr

/-- A proof queue with its holding buffer and moderation (R487, R491, R495). -/
structure ProofQueue where
  base      : BitVec 64 := 0
  enable    : Bool := false
  vector    : BitVec 6 := 0
  log2size  : BitVec 5 := 4
  holdoff   : BitVec 16 := 0
  head      : BitVec 16 := 0
  tail      : BitVec 16 := 0
  phase     : Bool := true
  overflow  : Bool := false
  lost      : BitVec 31 := 0
  holding   : List Rec := []
  /-- Records lost since the last RECORDS_LOST record. -/
  lostSince : Nat := 0
  /-- Press Time at which the present holdoff ends. -/
  holdUntil : Option Nat := none
  pendingV  : Bool := false
  deriving DecidableEq, Repr

/-- One MSI-X table vector under PCI Express (R466, R494). -/
structure MsixVector where
  addr    : BitVec 64 := 0
  data    : BitVec 32 := 0
  masked  : Bool := true
  pending : Bool := false
  deriving DecidableEq, Repr

/-- An entry of the host aperture (R474). -/
structure Aperture where
  base  : BitVec 64 := 0
  valid : Bool := false
  pages : BitVec 23 := 0
  deriving DecidableEq, Repr

/-- A doorbell queue entry: the ring, the tail up to which its tickets are pending, and whether it has begun (R483). -/
structure Doorbell where
  ring  : Nat
  tail  : Nat
  begun : Bool
  deriving DecidableEq, Repr

/-- A user-window request in flight (R473). -/
structure UserReq where
  serial  : Nat
  region  : Nat
  offset  : Nat
  len     : Nat
  write   : Bool
  data    : List Byte
  arrived : Nat
  deriving DecidableEq, Repr

/-- The high words held for 64-bit quantities that a function has read low word first (R11). -/
structure HoldRegs where
  pf0 : List (Nat × Option Word) := []
  pf1 : List (Nat × Option Word) := []
  pf2 : List (Nat × Option Word) := []
  deriving DecidableEq, Repr

/-- A request of the host that the part has not yet taken from the link (R424, R472): through the HBM window, with its HBM address
once no posted write before it waits (R471); or any other, as its row. -/
inductive LinkReq where
  | windowWrite (offset : BitVec 36) (addr : Option Nat) (data : List Byte) (poisoned : Bool)
  | windowRead (offset : BitVec 36) (addr : Option Nat) (len : Nat)
  | row (c : Instr)
  deriving DecidableEq, Repr

/-- The host interface (R464 to R496). -/
structure HostIf where
  rings       : Vector Ring 64 := Vector.replicate 64 {}
  pqs         : Vector ProofQueue 8 := Vector.replicate 8 {}
  window      : BitVec 9 := 0
  errataPq    : BitVec 3 := 0
  apSel       : BitVec 6 := 0
  aperture    : Vector Aperture 64 := Vector.replicate 64 {}
  msix        : Vector MsixVector 64 := Vector.replicate 64 {}
  msixEnable  : Bool := false
  fnMask      : Bool := false
  /-- The Command register of each function; bit 2 is Bus Master Enable (R484). -/
  command     : Vector (BitVec 16) 3 := Vector.replicate 3 0
  /-- The programmed BARs 0 to 3 of each function, as pairs of words (R469). -/
  bars        : Vector (Vector Word 4) 3 := Vector.replicate 3 (Vector.replicate 4 0)
  /-- AER Uncorrectable Error Status of each function (R464). -/
  aer         : Vector Word 3 := Vector.replicate 3 0
  doorbells   : List Doorbell := []
  /-- The ring slot whose ticket read is outstanding (R483). -/
  reading     : Option (Nat × Nat × Nat) := none
  linkRate    : BitVec 4 := 0
  linkWidth   : BitVec 4 := 0
  linkFlit    : Bool := false
  linkUp      : Bool := false
  d3hot       : BitVec 3 := 0
  flr         : BitVec 3 := 0
  poisonOut   : BitVec 32 := 0
  poisonIn    : BitVec 32 := 0
  user        : List UserReq := []
  /-- The model's own number of the next user-window request. -/
  userNext    : Nat := 0
  /-- The host's requests that wait on the link, oldest first (R424, R472). -/
  link        : List LinkReq := []
  hold        : HoldRegs := {}
  deriving DecidableEq, Repr

/-- PF1's Bus Master Enable (R484). -/
def HostIf.busMaster (h : HostIf) : Bool := (h.command.get 1).toNat.testBit 2

/-! ## The Errata log (14_errata_and_recovery.md R498 to R501, R521) -/

structure Errata where
  ring      : List (Nat × Rec) := []
  next      : BitVec 10 := 0
  unspilled : Nat := 0
  spill     : Bool := true
  /-- FLR of PF0 pauses the spill until Foreman has restarted (R518). -/
  paused    : Bool := false
  overflow  : Bool := false
  lost      : BitVec 31 := 0
  lostSince : Nat := 0
  readIndex : BitVec 10 := 0
  readCopy  : BitVec 512 := 0
  drainPt   : BitVec 12 := 0xA00
  abortPt   : BitVec 12 := 0x100
  offline   : BitVec 128 := 0
  chaseCap  : Capture := {}
  /-- Presses under recovery that an error has named and that have not yet moved on (R515). -/
  escalate  : List Nat := []
  /-- Accesses that failed in the command at hand and whose writers have not yet been told (R304, R308, R311). -/
  failed    : List AccessFail := []
  deriving DecidableEq, Repr

/-! ## Pools, the chase (07_galleys_and_chase.md) -/

/-- A pool of a galley or a case (R253, R254). -/
structure Pool where
  isOpen    : Bool := false
  head      : Nat := 0
  tail      : Nat := 0
  free      : Nat := 0
  base      : Nat := 0
  size      : Nat := 0
  lsig      : Bool := false
  ltok      : Nat := 0
  /-- Bytes committed and not yet released. -/
  committed : Nat := 0
  deriving DecidableEq, Repr

/-- A message of the chase (R255), with the placement and the address that the messages of a chunk carry. -/
structure ChaseMsg where
  type   : Nat
  dst    : Nat
  src    : Nat
  tag    : BitVec 12
  flit   : Nat := 0
  len    : Nat := 0
  addr   : Nat := 0
  pool   : Option Nat := none
  stream : BitVec 12 := 0
  data   : List Byte := []
  tally  : BitVec 64 := 0
  good   : Bool := true
  /-- The task that sent it, for what a failure on the way faults, and the initiator whose tag it carries. -/
  slot   : Nat := 0
  init   : Nat := 0
  /-- For a READ: the endpoint to which the source sends. -/
  rcv    : Nat := 0
  /-- The header of R268, as the source's interface formed it. -/
  header : BitVec 64 := 0
  deriving DecidableEq, Repr

/-- A chunk at its receiver, known by source endpoint and tag (R255 to R258). The list order is arrival order. -/
structure RxChunk where
  dst     : Nat
  src     : Nat
  tag     : BitVec 12
  len     : Nat
  addr    : Nat
  pool    : Option Nat
  stream  : BitVec 12
  slot    : Nat
  /-- The initiator whose tag it carries. -/
  init    : Nat
  /-- Whole-chunk space is held. -/
  granted : Bool := false
  /-- The reservation was taken by an initiator at itself, for a pull: the source, the source address and the source
  endpoint's number. -/
  pull    : Option (Nat × Nat) := none
  flits   : List (Nat × List Byte) := []
  /-- The tally of the END, where it has come. -/
  tally   : Option (BitVec 64) := none
  /-- Handed to a region port, whose user logic has yet to accept it; committed, with the tally of what was (R271,
  R272). -/
  handed  : Bool := false
  committed : Bool := false
  sum     : BitVec 64 := 0
  /-- It came through the Forron link (R353). -/
  forron  : Bool := false
  /-- Base and size of the pool's ring as they stood at the grant, and whether the pool has closed since (R254). -/
  ring    : Nat × Nat := (0, 0)
  closed  : Bool := false
  deriving DecidableEq, Repr

/-- Chase state that no unit below holds (R267, R282). -/
structure Chase where
  grantDeadline : BitVec 12 := 0x100
  routeNi       : BitVec 10 := 0
  routeIndex    : BitVec 10 := 0
  /-- Foreman has written the route tables (R267). -/
  routed        : Bool := false
  flight        : List ChaseMsg := []
  rx            : List RxChunk := []
  /-- READs of aperture pulls whose host reads are outstanding (R474). -/
  hostPulls     : List ChaseMsg := []
  /-- Chunks requested so far: the order of R277. -/
  asks          : Nat := 0
  /-- The windows of the last 15 chunk services of each stack, and of the host link, newest first (R259). -/
  served        : Vector (List (Nat × Nat)) 9 := Vector.replicate 9 []
  deriving DecidableEq, Repr

/-- A chunk of a transfer at its sender or initiator (R256). -/
structure TxChunk where
  num     : Nat
  tag     : BitVec 12
  off     : Nat
  len     : Nat
  /-- Receivers whose GRANT is held, and whose ACK is in. -/
  grants  : List Nat := []
  acks    : List Nat := []
  sent    : Bool := false
  /-- The number of its request among all (R277), and until when a multicast push waits for its GRANTs (R274, R283). -/
  asked   : Nat
  grantBy : Nat := 0
  tally   : BitVec 64 := 0
  /-- Over the Forron link: the receiver's incarnation, learned from its GRANT (R349), and the port used. -/
  pinc    : BitVec 16 := 0
  port    : Nat := 0
  deriving DecidableEq, Repr

/-! ## Presses (02 to 05, 07, 14) -/

/-- One captured entry of a press queue (R196, R225). -/
structure QEntry where
  word  : Word
  pc    : BitVec 15
  slot  : Nat
  pm    : Bool
  pmask : BitVec 8
  vforme : Nat
  /-- Descriptors and g values in the order of the word's fields. -/
  desc  : List (BitVec 256)
  vals  : List Word
  /-- The physical register that a PRD will write (R225, R241). -/
  dest  : Fin 32
  deriving DecidableEq, Repr

/-- A transfer in progress at a stream controller (R248, R260). -/
structure Transfer where
  entry    : QEntry
  mcast    : Bool
  tmode    : Nat
  pool     : Option Nat
  src      : Nat
  dst      : Nat
  window   : Nat
  stream   : BitVec 12
  deadline : Nat
  len      : Nat
  saddr    : Nat
  daddr    : Nat
  tally    : BitVec 64
  rcvrs    : List Nat
  push     : Bool
  sig      : Bool
  tok      : Nat
  /-- The host address of the first byte, as the aperture had it at dispatch (R474). -/
  host     : Nat := 0
  /-- Bytes requested so far and the number of the next chunk. -/
  asked    : Nat := 0
  nextNum  : Nat := 0
  chunks   : List TxChunk := []
  sum      : BitVec 64 := 0
  /-- Bytes whose chunks are complete. -/
  done     : Nat := 0
  deriving DecidableEq, Repr

/-- A Forron transfer of a press (R351 to R354); its fields are those of a kind 0Ah descriptor. -/
structure FTransfer where
  entry    : QEntry
  desc     : BitVec 256
  quad     : Nat
  src      : Nat
  deadline : Nat
  sig      : Bool
  tok      : Nat
  asked    : Nat := 0
  nextNum  : Nat := 0
  chunks   : List TxChunk := []
  sum      : BitVec 64 := 0
  done     : Nat := 0
  /-- The ports' retraining counts and partner incarnations as the transfer began (R367). -/
  links0   : List (Word × BitVec 16) := []
  deriving DecidableEq, Repr

/-- The states of a bank (R129), coded in this order. -/
inductive BankState where
  | invalid | loading | ready | busy | held | draining
  deriving DecidableEq, Repr

/-- A bank of a platen: its accumulators (cell (i, j) at 32 * i + j), its lead record (80h where none is listed,
R117) and its kind (R119). The spec gives its contents no reset value: the bank is Invalid. -/
structure Bank where
  acc   : List (Nat × Word) := []
  rows  : List (Nat × BitVec 8) := []
  cols  : List (Nat × BitVec 8) := []
  int   : Bool := false
  state : BankState := .invalid
  deriving DecidableEq, Repr

/-- An operand source of a pass (R194). -/
structure OpSrc where
  tile   : Bool
  base   : Nat
  stride : Nat
  first  : Nat
  deriving DecidableEq, Repr

/-- One 64-step run of an operand: its format, the lead of each row, and the bytes of each row's elements. -/
structure RunData where
  fmt   : Fmt
  leads : List Byte
  rows  : List (List Byte)
  deriving DecidableEq, Repr

/-- The stages of a pass (R131, R132, R134). -/
inductive PassPhase where
  | waiting | loading | ready | feeding | settling
  deriving DecidableEq, Repr

/-- A pass from dispatch to settling (R120, R131). -/
structure PassOp where
  entry  : QEntry
  seq    : Nat
  bank   : Bool
  pre    : Nat
  k      : Nat
  m      : Nat
  n      : Nat
  a      : OpSrc
  b      : OpSrc
  feed   : Bool
  paddr  : Nat
  int    : Bool
  g      : Nat
  /-- The formats of the runs of A and B, as their headers gave them at dispatch (R166). -/
  fmtsA  : List Fmt
  fmtsB  : List Fmt
  phase  : PassPhase := .waiting
  /-- Leads in force (R117). -/
  inA    : List (Nat × BitVec 8) := []
  inB    : List (Nat × BitVec 8) := []
  /-- For a FEED: steps done, the format of the feed, the leads of the present run (none: a lead beat is due), the
  first of two beats of a step at W32, and the runs of B (R413). -/
  steps  : Nat := 0
  feedFmt : Option Fmt := none
  runLeads : Option (List Byte) := none
  half   : Option (BitVec 4096) := none
  bRuns  : List RunData := []
  /-- Cells, at 32 * i + j, that have wrapped in an integer FEED (R116). -/
  wrapped : List Nat := []
  deriving DecidableEq, Repr

/-- A DRAIN or bank save in the drain stage (R121, R131, R231). -/
structure DrainOp where
  entry   : QEntry
  seq     : Nat
  bank    : Bool
  save    : Bool
  close   : Bool
  addr    : Nat
  stride  : Nat
  col0    : Nat
  /-- Galley offset of the bias of the first drained column. -/
  bias    : Nat
  fmt     : Fmt
  /-- Modes sampled at dispatch (R99), and the Quoin stream under SR (R381). -/
  mode    : ConvMode
  stream  : BitVec 32
  fuse    : Nat
  m       : Nat
  n       : Nat
  started : Bool := false
  deriving DecidableEq, Repr

/-- A platen (R108, R131, R142, R143). -/
structure Platen where
  bank0         : Bank := {}
  bank1         : Bank := {}
  passes        : List PassOp := []
  drain         : Option DrainOp := none
  fault         : Bool := false
  passCount     : BitVec 32 := 0
  feedCycles    : BitVec 32 := 0
  interlockWait : BitVec 32 := 0
  intWrap       : BitVec 32 := 0
  deriving DecidableEq, Repr

/-- An INK in progress: what it will write when it completes (R235). -/
structure InkOp where
  entry : QEntry
  /-- Lane registers: register, lane, value. -/
  lanes : List (Nat × Nat × Word)
  mask  : Option (Nat × BitVec 256)
  mem   : List (Nat × List Byte)
  deriving DecidableEq, Repr

/-- Counts of the conversion events of an operation (R100). -/
structure FmtCounts where
  ovf : Nat := 0
  sat : Nat := 0
  und : Nat := 0
  van : Nat := 0
  sq  : Nat := 0
  deriving DecidableEq, Repr

/-- A JUSTIFY in progress, with the modes sampled when it began (R161, R162), and the slug that its trial and conversion
gave: what it will write when it completes. -/
structure JusOp where
  entry  : QEntry
  src    : OpSrc
  srcFmt : Fmt
  fmt    : Fmt
  fb     : Fmt
  sr     : Bool
  squash : Bool
  kv     : Nat
  m      : Nat
  /-- The slug's own address, and whether it lies in the case. -/
  inCase : Bool
  addr   : Nat
  slug   : Nat
  quoin  : BitVec 32
  van    : BitVec 8
  sat    : BitVec 8
  /-- The bytes of the slug, header first, whether it was promoted, its noughts, and the conversion events to count. -/
  image    : List Byte := []
  promoted : Bool := false
  noughts  : Nat := 0
  counts   : FmtCounts := {}
  deriving DecidableEq, Repr

/-- An open destination (R168, R232). -/
structure OpenDest where
  inCase : Bool
  addr   : Nat
  tile   : Bool
  slot   : Nat
  fmt    : Nat
  rows   : Nat
  cols   : Nat
  stride : Nat
  writer : BitVec 32
  step   : BitVec 64
  sr     : Bool
  quoin  : BitVec 32
  slug   : Nat
  van    : Nat
  sat    : Nat
  /-- The header with valid 0 has been written. -/
  begun  : Bool := false
  /-- A DRAIN that closes the tile has been dispatched. -/
  closing : Bool := false
  deriving DecidableEq, Repr

/-- PS_FMT_CTRL and its counters (R103, R104). -/
structure FmtRegs where
  rnd       : BitVec 3 := 0
  ovf       : BitVec 2 := 0
  nan       : Bool := false
  overflow  : BitVec 32 := 0
  underflow : BitVec 32 := 0
  saturate  : BitVec 32 := 0
  vanish    : BitVec 32 := 0
  squash    : BitVec 32 := 0
  deriving DecidableEq, Repr

/-- The inking unit and the Justifier (R145, R171 to R173). -/
structure InkRegs where
  /-- Lane register l of lane i at 256 * l + i. -/
  lanes    : List (Nat × Word) := []
  k1       : BitVec 256 := 0
  k2       : BitVec 256 := 0
  k3       : BitVec 256 := 0
  ops      : BitVec 32 := 0
  satLimit : BitVec 8 := 0xFF
  vanLimit : BitVec 8 := 0x40
  fallback : BitVec 32 := 0x88553332
  slugs    : BitVec 32 := 0
  promoted : BitVec 32 := 0
  zeroRows : BitVec 32 := 0
  deriving DecidableEq, Repr

/-- The stall counters of a press (R263). -/
structure Stalls where
  feedGalley   : BitVec 32 := 0
  feedFill     : BitVec 32 := 0
  drainInk     : BitVec 32 := 0
  reserveWait  : BitVec 32 := 0
  linkWait     : BitVec 32 := 0
  scheduleWait : BitVec 32 := 0
  throttle     : BitVec 32 := 0
  preempt      : BitVec 32 := 0
  deriving DecidableEq, Repr

/-- Preemption of a press (R135): by the frisket, or by a ticket pause, which has every dispatched instruction complete
(R385). -/
inductive Preempt where
  | none | pausing | requested | preempted
  deriving DecidableEq, Repr

/-- Recovery of a press, coded in this order in PS_RECOVERY_STATUS.state (R521). -/
inductive RecState where
  | inService | fenced | draining | resetting | powerCycling | offline
  deriving DecidableEq, Repr

/-- The frisket and recovery state of a press (R508 to R514, R521). -/
structure Recovery where
  state       : RecState := .inService
  lastCause   : BitVec 3 := 0
  resets      : BitVec 8 := 0
  powerCycles : BitVec 8 := 0
  /-- Press Time at which the frisket closed, and at which the present step began. -/
  closedAt    : Nat := 0
  stepAt      : Nat := 0
  /-- The drain bound in points, as ER_RECOVERY_CFG had it when the frisket closed (R510, R521). -/
  drainPt     : Nat := 0
  /-- The recovery has gone through a power cycle (R510). -/
  cycled      : Bool := false
  /-- Chunks for which PS_FENCED has been logged: source endpoint and stream (R509). -/
  fencedLog   : List (Nat × Nat) := []
  deriving DecidableEq, Repr

/-- A press (R196, R245, R260, R261, R282, R321). -/
structure Press where
  queue      : List QEntry := []
  plA        : Platen := {}
  plB        : Platen := {}
  fmt        : FmtRegs := {}
  ink        : InkRegs := {}
  inkOp      : Option InkOp := none
  jusOp      : Option JusOp := none
  opens      : List OpenDest := []
  galley     : Mem := {}
  block      : BitVec 32 := 0
  sdCe       : BitVec 32 := 0
  sdUe       : BitVec 32 := 0
  coal       : List CoalEntry := []
  chaseSide  : Bool := false
  pressWait  : Bool := false
  transfers  : List Transfer := []
  ftransfers : List FTransfer := []
  tagNext    : BitVec 12 := 0
  pools      : Vector Pool 2 := Vector.replicate 2 {}
  stalls     : Stalls := {}
  preempt    : Preempt := .none
  /-- Order of dispatch from this queue (R133, R159). -/
  seq        : Nat := 0
  /-- The SR count of the press (R381). -/
  srCount    : BitVec 24 := 0
  recovery   : Recovery := {}
  cap        : Capture := {}
  /-- Press Time of the galley's last side change (R262). -/
  sideAt     : Option Nat := none
  deriving DecidableEq, Repr

/-! ## Formes (05_compositor.md) -/

/-- The states of a compositor, coded in this order in FM_CO_STATUS.state (R204). -/
inductive CoState where
  | off | idle | loading | running | finishing | faulted
  deriving DecidableEq, Repr

/-- The registers of a compositor (R179). Their value before the first program load has no rule: zero. -/
structure CoRegs where
  g     : Vector Word 32 := Vector.replicate 32 0
  acc   : Vector (BitVec 40) 2 := Vector.replicate 2 0
  x     : Vector Half 4 := Vector.replicate 4 0
  y     : Vector Half 4 := Vector.replicate 4 0
  mx    : Vector Word 4 := Vector.replicate 4 0
  my    : Vector Word 4 := Vector.replicate 4 0
  t     : Vector (BitVec 256) 16 := Vector.replicate 16 0
  trip  : BitVec 16 := 0
  iter  : BitVec 17 := 0
  depth : BitVec 4 := 0
  rstep : BitVec 2 := 0
  rbase : BitVec 4 := 0
  cr    : Word := 0
  sr    : Word := 0
  pc    : BitVec 15 := 0
  deriving DecidableEq, Repr

/-- A forme: compositor, memories, tokens, case (R176 to R205, R245, R282, R321). -/
structure Forme where
  state      : CoState := .off
  regs       : CoRegs := {}
  imem       : Mem := {}
  xmem       : Mem := {}
  ymem       : Mem := {}
  case       : Mem := {}
  tokens     : Vector (BitVec 16) 64 := Vector.replicate 64 0
  /-- The index of the last instruction issued (R204); `regs.pc` is the index of the next. -/
  issuedPc   : BitVec 15 := 0
  instrs     : BitVec 32 := 0
  issueStall : BitVec 32 := 0
  interlock  : BitVec 32 := 0
  /-- Physical g registers that a PRD has yet to write (R189). -/
  pend       : List (Fin 32) := []
  /-- The open slot of the ticket that holds the forme, the table index of its START or HOLD, its press mask and its
  virtual number. -/
  task       : Option Nat := none
  entry      : Nat := 0
  pmask      : BitVec 8 := 0
  vforme     : Nat := 0
  block      : BitVec 64 := 0
  sdCe       : BitVec 32 := 0
  sdUe       : BitVec 32 := 0
  coal       : List CoalEntry := []
  pools      : Vector Pool 8 := Vector.replicate 8 {}
  cap        : Capture := {}
  filling    : Bool := true
  deriving DecidableEq, Repr

/-! ## HBM stacks (08_memory_and_stored_data.md) -/

/-- The states of a stack, coded in this order in HB_STATUS.state (R319). -/
inductive StackState where
  | off | filling | ready | selfRefresh | partialRefresh
  deriving DecidableEq, Repr

/-- A command of a pseudo-channel's queue and of a bus's retry buffer (R287, R296): the column unit, for a write the bytes
before it, who asked (none: no task), and the requester code of R316. -/
structure RetryCmd where
  unit : Nat
  old  : Option (BitVec 512)
  who  : Option Writer := none
  req  : Nat := 0xFF
  /-- A refresh of the row of the unit's bank (R291). -/
  refresh : Bool := false
  deriving DecidableEq, Repr

/-- The queue of a pseudo-channel (R287, R288): its requests in order of arrival, the open row of each bank, the banks in
in-order mode, and the writes that the present batch has yet to issue. -/
structure PcQueue where
  waiting : List RetryCmd := []
  rows    : List (Nat × Nat) := []
  inOrder : List Nat := []
  batch   : Nat := 0
  deriving DecidableEq, Repr

/-- A command bus (R296 to R298). -/
structure HbmBus where
  retry    : List RetryCmd := []
  /-- Alerts of the present replay, and whether it is in progress. -/
  attempts : Nat := 0
  active   : Bool := false
  lastEnd  : Option Nat := none
  /-- Escalation retraining is in progress. -/
  training : Bool := false
  deriving DecidableEq, Repr

/-- An HBM stack and its controller (R284 to R298, R319, R320). -/
structure Stack where
  mem       : Mem := {}
  state     : StackState := .filling
  hot       : Bool := false
  point     : BitVec 12 := 0
  span      : BitVec 12 := 0x400
  shares    : BitVec 5 := 4
  fraction  : BitVec 3 := 0
  ce        : BitVec 32 := 0
  ue        : BitVec 32 := 0
  replays   : BitVec 32 := 0
  fatal     : BitVec 32 := 0
  coal      : List CoalEntry := []
  buses     : Vector HbmBus 32 := Vector.replicate 32 {}
  queues    : Vector PcQueue 64 := Vector.replicate 64 {}
  /-- The slot in force: what HB_REFRESH held when the last device reset came (R292). -/
  slotPoint  : BitVec 12 := 0
  slotSpan   : BitVec 12 := 0x400
  slotShares : BitVec 5 := 4
  /-- Refresh commands issued to each bank in the last slot, of two rows each, and the row of each bank that the next one
  refreshes first (R291). -/
  refreshed  : Nat := 0
  refreshRow : BitVec 14 := 0
  cap       : Capture := {}
  deriving DecidableEq, Repr

/-- Device-wide HBM state (R307, R310, R320). -/
structure HbmCommon where
  bucketOn    : Bool := false
  leakSheets  : BitVec 12 := 0x100
  threshold   : BitVec 16 := 0x100
  overflow    : Bool := false
  level       : BitVec 16 := 0
  /-- Sheet of the last leak. -/
  leaked      : Nat := 0
  retireIndex : BitVec 11 := 0
  retire      : List (Nat × BitVec 32) := []
  deriving DecidableEq, Repr

end Sys2Proof.Machine
end

