-- ==== Sys2Proof/Machine/Blocks.lean ====
section
/-!
DEFINITION. Machine/Blocks.lean: the state of the Forron link, the fount, its configuration, power and trust as plain
data (chapters 09, 11, 12, 15, 16), and what leaves the block.
The default value of a field is its value after a device reset; a field whose spec gives no reset value says so.
-/
namespace Sys2Proof.Machine

/-! ## The Forron link (09_forron_link.md) -/

/-- The states of a port, coded in this order in FL_QUAD_STATUS.state (R333, R370). -/
inductive PortState where
  | down | signal | hunt | exchange | up | prbs
  deriving DecidableEq, Repr

/-- A transport message (R349, R350): its header fields and 224 payload bytes. `resv` holds the header's reserved bits as
they came ([1:0] of byte 12, then the tag's, the source's and the destination's top bits), so that transit keeps them. -/
structure FMsg where
  mtype   : Nat
  last    : Bool := false
  marker  : Bool := false
  index   : Nat := 0
  tag     : BitVec 12
  src     : BitVec 27
  dst     : BitVec 27
  sinc    : BitVec 16
  pinc    : BitVec 16
  payload : List Byte
  resv    : BitVec 16 := 0
  /-- The sequence number of the flit that brought it (R367). -/
  lseq    : BitVec 12 := 0
  deriving DecidableEq, Repr

/-- A MSG flit in the retry buffer (R343): its sequence number, its class and its message. -/
structure HeldFlit where
  seq  : BitVec 12
  data : Bool
  msg  : FMsg
  deriving DecidableEq, Repr

/-- A lane quad; the link layer of a port lives in its lower quad (R323 to R344, R356, R370). -/
structure Quad where
  prbs         : BitVec 2 := 0
  bond         : Bool := false
  mode         : BitVec 2 := 0
  state        : PortState := .down
  laneLock     : BitVec 4 := 0
  /-- Press Time at which the present state began (R333). -/
  stateAt      : Nat := 0
  /-- The superframes that the port has sent since it began to send them, and the blocks of the present one (R328, R331). -/
  frames       : Nat := 0
  stream       : List (BitVec 130) := []
  /-- The bit time at which superframe 0 of each locked lane would have begun (R331), and the error-free bits that each lane has
  met in PRBS (R332). -/
  markAt       : Vector Nat 4 := Vector.replicate 4 0
  prbsSync     : Vector Nat 4 := Vector.replicate 4 0
  /-- FL_PARTNER and FL_EXPECT, whole. -/
  partner      : Word := 0
  expect       : Word := 0
  peerInc      : BitVec 16 := 0
  prbsErr      : Vector Word 4 := Vector.replicate 4 0
  fecCorr      : Word := 0
  fecUncorr    : Word := 0
  crcErr       : Word := 0
  retry        : Word := 0
  retrainCount : Word := 0
  staleDrop    : Word := 0
  routeIndex   : BitVec 10 := 0
  /-- The route table (R356), by entry. -/
  routes       : List (Nat × Word) := []
  /-- Held in Down until FL_QUAD_CTRL.retrain is written (R335). -/
  held         : Bool := false
  /-- The last TRAIN block and how many identical ones have come in a row (R335). -/
  lastTrain    : Option (BitVec 128) := none
  trainRun     : Nat := 0
  /-- This end sends seen = 1, and how many identical blocks with seen = 1 have come (R334, R335). -/
  seen         : Bool := false
  /-- Sequence number expected next from the partner, and to be given to the next new MSG flit (R343). -/
  expSeq       : BitVec 12 := 0
  nextSeq      : BitVec 12 := 0
  retryBuf     : List HeldFlit := []
  /-- Messages that wait to be sent, transit messages first (R346), with the port of arrival of each of those. -/
  waitSend     : List (Option Nat × FMsg) := []
  credCtl      : Nat := 64
  credData     : Nat := 64
  /-- Credits to return in the next flits (R342). -/
  retCtl       : Nat := 0
  retData      : Nat := 0
  /-- A flit has been accepted in this partnership, so that ackseq means something (R343). -/
  anyAcc       : Bool := false
  /-- The next flit carries a NAK, and a NAK has been asked for and no flit accepted since (R343). -/
  nakDue       : Bool := false
  naked        : Bool := false
  /-- Resend rounds without an ackseq advancing (R344). -/
  rounds       : Nat := 0
  /-- Press Time at which retry_timeout passes for what is held (R343). -/
  ackBy        : Nat := 0
  /-- Stale messages were dropped, and a partnership has changed, for R367. -/
  sawStale     : Bool := false
  sawNew       : Bool := false
  cap          : Capture := {}
  deriving DecidableEq, Repr

/-- A ring entry of a sequence engine (R361, R371). -/
structure RingEntry where
  valid       : Bool := false
  sizeM1      : BitVec 17 := 0
  position    : BitVec 17 := 0
  successor   : BitVec 27 := 0
  predecessor : BitVec 27 := 0
  deriving DecidableEq, Repr

/-- A chunk at its Forron receiver, known by src and tag (R349, R353). -/
structure FRx where
  port    : Nat
  src     : BitVec 27
  dst     : BitVec 27
  tag     : BitVec 12
  sinc    : BitVec 16
  len     : Nat
  addr    : Nat
  pool    : Option Nat
  stream  : BitVec 12
  chunk   : Nat
  /-- For a sequence engine: bytes 46 to 51 of the RESERVE (R364). -/
  coll    : List Byte
  /-- The tag of the chase push that carries it into this part (R353). -/
  ctag    : BitVec 12 := 0
  granted : Bool := false
  /-- Press Time at which grant_hold passes since the RESERVE, GRANT or last DATA, as FL_CTRL had it then (R354, R372). -/
  holdBy  : Nat
  /-- What R367 tells of the port, as it stood at the RESERVE: retraining count and partner incarnation. -/
  retrains : Word := 0
  peer0   : BitVec 16 := 0
  index   : Nat := 0
  data    : List Byte := []
  /-- Every DATA flit has been passed into the chase. -/
  passed  : Bool := false
  deriving DecidableEq, Repr

/-- A collective on a sequence engine (R362 to R365). -/
structure Collective where
  press  : Nat
  entry  : QEntry
  desc   : BitVec 256
  n      : Nat
  i      : Nat
  succ   : BitVec 27
  pred   : BitVec 27
  deadline : Nat
  /-- The ports' retraining counts and partner incarnations as the collective began (R367). -/
  links0 : List (Word × BitVec 16) := []
  /-- Step and chunk of the next RESERVE, and the sent chunks without RECEIPT: step, chunk. -/
  step   : Nat := 0
  chunk  : Nat := 0
  sent   : List (Nat × Nat × TxChunk) := []
  /-- Chunks of received steps that have been written: step and chunk. -/
  done   : List (Nat × Nat) := []
  deriving DecidableEq, Repr

/-- The device-wide Forron state (R336, R348 to R371). -/
structure Forron where
  grantHold    : BitVec 16 := 0x1000
  retryTimeout : BitVec 12 := 0x080
  retryLimit   : BitVec 4 := 8
  quire        : BitVec 8 := 0
  device       : BitVec 9 := 0
  /-- FL_INCARNATION: 1 after the first power-on (R336). -/
  inc          : BitVec 16 := 1
  /-- The store write of the new power-on count is in progress; ports stay Down (R336). -/
  countPending : Bool := true
  /-- That write could not be programmed (R560). -/
  countFailed  : Bool := false
  ringSel      : BitVec 5 := 0
  rings        : Vector (Vector RingEntry 16) 2 := Vector.replicate 2 (Vector.replicate 16 {})
  orouteSel    : BitVec 11 := 0
  oroutes      : Vector (List (Nat × Word)) 2 := Vector.replicate 2 []
  /-- Messages delivered to this part, with the port of arrival, in order of arrival. -/
  inbox        : List (Nat × FMsg) := []
  rx           : List FRx := []
  ctag         : BitVec 12 := 0
  engines      : Vector (Option Collective) 2 := Vector.replicate 2 none
  engineTag    : Vector (BitVec 12) 2 := Vector.replicate 2 0
  /-- Chunk numbers of the RESERVEs forwarded, by source and tag: the path that their DATA take (R357). -/
  transit      : List (BitVec 27 × BitVec 12 × Nat) := []
  deriving DecidableEq, Repr

/-! ## The fount (11_fount.md) -/

/-- Where a chunk at a region port came from: the chase (source endpoint and tag), or the user window (request). -/
inductive PortOrigin where
  | chase (src : Nat) (tag : BitVec 12)
  | user (serial : Nat)
  deriving DecidableEq, Repr

/-- A pushed chunk waiting at a region port, or being presented beat by beat (R409, R410). -/
structure PortPush where
  origin : PortOrigin
  chan   : Nat
  stream : BitVec 12
  addr   : Nat
  data   : List Byte
  beats  : Nat := 0
  deriving DecidableEq, Repr

/-- A read request at a region port (R409, R410). -/
structure PortRead where
  origin   : PortOrigin
  chan     : Nat
  stream   : BitVec 12
  addr     : Nat
  units    : Nat
  accepted : Bool := false
  data     : List Byte := []
  deriving DecidableEq, Repr

/-- A region port (R408 to R411). `surplus`: user logic still gives beats of a response that the port has taken whole
(R410). -/
structure RegionPort where
  pushes  : List PortPush := []
  reads   : List PortRead := []
  surplus : Bool := false
  deriving DecidableEq, Repr

/-- The elastic buffer of a lane in fount mode: the received words that it holds, oldest first, and the last that it gave
(R417). -/
structure Elastic where
  words : List (BitVec 320) := []
  last  : Option (BitVec 320) := none
  deriving DecidableEq, Repr

/-- The registers of a bank's 48 pins, in the B column. -/
structure PinRegs where
  input  : BitVec 48 := 0
  output : BitVec 48 := 0
  enable : BitVec 48 := 0
  deriving DecidableEq, Repr

/-- The supply of a bank, in tenths of a volt. -/
inductive BankSupply where
  | v12 | v15 | v18
  deriving DecidableEq, Repr

inductive PinPull where
  | none | up | down | keeper
  deriving DecidableEq, Repr

/-- The setting of a pin: LVCMOS at the bank supply, or its half of an LVDS pair. -/
inductive PinSetting where
  | lvcmos (drive : Nat) (pull : PinPull)
  | lvds (termination : Bool)
  deriving DecidableEq, Repr

/-- What the pads of a bank under pad hold keep: output value, enable, and each pin's setting with its drive and pull (R542). -/
structure PadLatch where
  output   : BitVec 48 := 0
  enable   : BitVec 48 := 0
  settings : List PinSetting := []
  deriving DecidableEq, Repr

/-- The fount's registers and crossings (R403 to R421). -/
structure Fount where
  treeOver : BitVec 32 := 0
  treeRun  : BitVec 32 := 0
  /-- Trees whose crossings are isolated, and those in their last 64 points of it (R407). -/
  isoOver  : BitVec 32 := 0
  isoTail  : BitVec 32 := 0
  pllLock  : BitVec 8 := 0
  feedMap  : Vector Word 32 := Vector.replicate 32 0
  /-- A map change that waits until no FEED holds the feed (R412). -/
  feedNext : Vector (Option Word) 32 := Vector.replicate 32 none
  feedWait : Vector Word 32 := Vector.replicate 32 0
  slips    : Vector Half 24 := Vector.replicate 24 0
  cdrLock  : Vector (BitVec 4) 24 := Vector.replicate 24 0
  /-- The elastic buffers of the lanes in fount mode: lane `k` of quad `q` is number `4 q + k` (R417). -/
  elastic  : Vector Elastic 96 := Vector.replicate 96 {}
  txeq     : Vector Word 24 := Vector.replicate 24 0x800
  ports    : Vector RegionPort 24 := Vector.replicate 24 {}
  /-- The flip-flops of logic columns, by region * 96 + column, flip-flop f of cell c of stick s at bit 16 s + 2 c + f (R399, R454); a
  column that is not listed has its initial values. -/
  flops    : List (Nat × BitVec 3072) := []
  /-- The registers of the pin banks (R418). -/
  pins     : Vector PinRegs 8 := Vector.replicate 8 {}
  /-- The registers of the bridge wires that enter FN00, FN11, FN12 and FN23, newest first (R406). -/
  bridge   : Vector (List (BitVec 2048)) 4 := Vector.replicate 4 []
  deriving DecidableEq, Repr

/-! ## Configuration (12_configuration.md) -/

/-- CF_STATUS.state, coded in this order (R461). -/
inductive CfState where
  | unconfigured | opened | verifying | loadFull | loadPartial | waitPeers | releasing | clearing | configured
  deriving DecidableEq, Repr

/-- An open load (R425 to R441). -/
structure Load where
  /-- The role and the source of who opened it, for the Colophon log (R569). -/
  role     : Nat := 0
  source   : Nat := 0
  /-- Words in the port buffer, oldest first (R424). -/
  buf      : List Word := []
  header   : List Byte := []
  accepted : Bool := false
  full     : Bool := false
  bound    : BitVec 24 := 0
  slot     : Nat := 0
  noRead   : Bool := false
  nonce    : List Byte := []
  digest   : List Byte := []
  /-- Segment number, its key, command words so far, ciphertext so far and frame units (R429, R432). -/
  seg      : Nat := 0
  key      : List Byte := []
  aad      : List Byte := []
  cipher   : List Byte := []
  units    : Nat := 0
  /-- A FRAMES run in progress: its next frame and frames left (R433). -/
  run      : Option (Nat × Nat) := none
  tally    : BitVec 64 := 0
  wregs    : List (Nat × Word) := []
  /-- The END has verified; further words are discarded (R441). -/
  ended    : Bool := false
  /-- Press Time of the last stream word (R449), and of completion of a full load's END (R442). -/
  lastWord : Nat := 0
  /-- RAM blocks and frames of the shadow planes, by address (R440). -/
  shadow   : List (Nat × BitVec 4096) := []
  shadowRam : List (Nat × BitVec 36864) := []
  deriving DecidableEq, Repr

/-- CF_CAPTURE_STATUS.state, coded in this order (R462). -/
inductive CaptureState where
  | idle | armed | copying | held | timedOut
  deriving DecidableEq, Repr

/-- Configuration of the fount (R423 to R463). -/
structure Conf where
  frameCheck   : Bool := true
  state        : CfState := .unconfigured
  commitPending : Bool := false
  doneDriven   : Bool := true
  doneLine     : Bool := false
  regions      : BitVec 24 := 0
  loadReg      : Word := 0
  errorReg     : Word := 0
  errorFar     : Word := 0
  words        : Word := 0
  gap          : BitVec 16 := 8
  peerTimeout  : Word := 0
  stop         : Bool := false
  stopped      : Bool := false
  capTree      : BitVec 5 := 0
  capRegions   : BitVec 24 := 0
  capAtLo      : Word := 0
  capAtHi      : Word := 0
  capState     : CaptureState := .idle
  /-- Regions whose shadows the capture holds, its tree and its trigger point (R452, R453). -/
  capHeld      : BitVec 24 := 0
  capArmTree   : BitVec 5 := 0
  capTrigger   : Nat := 0
  /-- What the capture holds: flip-flop columns, RAM blocks and pin banks (R453). -/
  capFlops     : List (Nat × BitVec 3072) := []
  capRam       : List (Nat × BitVec 36864) := []
  capPins      : List (Nat × PinRegs) := []
  readSource   : BitVec 2 := 0
  readFrame    : BitVec 20 := 0
  readOk       : Bool := false
  readData     : BitVec 4096 := 0
  readCheck    : BitVec 64 := 0
  upset        : Bool := false
  upsetFrame   : BitVec 20 := 0
  lock         : BitVec 24 := 0
  load         : Option Load := none
  /-- Live frames by linear frame number, and stored check words that are wrong: the difference (R434, R457). -/
  frames       : List (Nat × BitVec 4096) := []
  badChecks    : List (Nat × BitVec 64) := []
  /-- Live RAM contents as loads wrote them, by (region * 96 + column) * 16 + block (R436). -/
  ram          : List (Nat × BitVec 36864) := []
  /-- Configuration registers of R437 by index. -/
  wregs        : List (Nat × Word) := []
  /-- Regions held (R438), regions of a partial load that will be held at the next sheet, and regions whose old
  personality is to be released at the next sheet (R448). -/
  held         : BitVec 24 := 0
  holdNext     : BitVec 24 := 0
  discardNext  : BitVec 24 := 0
  /-- A release in progress: its stages done (0, 1 or 2), its regions, and the gap as sampled at stage 1 (R446). -/
  release      : Option (Nat × BitVec 24 × Nat) := none
  /-- Regions that have woken and whose release waits for the one in progress (R525). -/
  wokenNext    : BitVec 24 := 0
  /-- Banks whose pins float until stage 1 of their region's next release (R541, R542). -/
  pinOpen      : BitVec 8 := 0
  /-- A clearing in progress ends a failed full load (R450). -/
  clearFailed  : Bool := false
  /-- The no_readback flag of the full load that waits for its release. -/
  pendLock     : Bool := false
  /-- Sheet in which the full load completed (R444) or the END of a partial one verified (R445), and after which global
  release begins: the line was first high, or the peer timeout passed (R443, R444). -/
  doneSheet    : Nat := 0
  lineSheet    : Option Nat := none
  sweep        : Nat := 0
  /-- Sheets in which a partial header was accepted, a shadow discarded, and CF_CLOCK_STOP.stop last changed. -/
  holdSheet    : Nat := 0
  discardSheet : Nat := 0
  stopSheet    : Nat := 0
  deriving DecidableEq, Repr

/-! ## Power (15_power.md) -/

/-- PW_DOMAIN_STATUS.dstate, coded in this order (R549). -/
inductive DState where
  | off | waking | on | goingOff | selfRefresh | partialRefresh
  deriving DecidableEq, Repr

/-- A power domain (R525, R526, R535). -/
structure Domain where
  dstate : DState := .on
  failed : Bool := false
  held   : Bool := false
  /-- It waits in the governor's queue, or its ramp began at this Press Time. -/
  ramp   : Option Nat := none
  /-- A stack's domain that goes off for partial self-refresh (R38). -/
  partialNext : Bool := false
  deriving DecidableEq, Repr

/-- PW_STATUS.state, coded in this order (R527). -/
inductive PwState where
  | run | trim | idle | stand | deep
  deriving DecidableEq, Repr

/-- Who asked for a power change (R546). -/
inductive PwRequester where
  | host | d3hot | sideband | makeready | powerUnit | recovery
  deriving DecidableEq, Repr

/-- A change in progress: its target, who asked, whether it is a wake, and the step of R531 it is in. -/
structure PwChange where
  target    : PwState
  requester : PwRequester
  wake      : Bool
  step      : Nat
  deriving DecidableEq, Repr

/-- The power unit (R524 to R549). -/
structure Power where
  wakeTo      : BitVec 2 := 2
  wakeSource  : BitVec 4 := 6
  latched     : Option (BitVec 4 × Option PwState) := none
  state       : PwState := .idle
  change      : Option PwChange := none
  /-- The last request held while a change is in progress (R529), and a D3hot request that waits (R531). -/
  heldReq     : Option (PwState × PwRequester) := none
  trimMask    : Vector Word 4 := Vector.replicate 4 0
  gateQuad    : BitVec 24 := 0
  gateRegion  : BitVec 24 := 0
  domainSel   : BitVec 8 := 0
  domains     : Vector Domain 204
  tokens      : BitVec 8 := 0x10
  cap         : BitVec 8 := 0x10
  rate        : BitVec 8 := 1
  queue       : List (Nat × Nat) := []
  wakeAtLo    : Word := 0
  wakeAtHi    : Word := 0
  /-- The point of an armed wake that has no entry yet: it lies beyond the horizon of R37, or the table is full. -/
  wakeWait    : Option Nat := none
  opBudget    : BitVec 9 := 0x1FF
  lead        : BitVec 8 := 2
  /-- The operator budget in force after an apply (R543). -/
  applied     : Option (BitVec 9) := none
  pinBudget   : BitVec 9 := 0xC8
  tempThrottle : BitVec 8 := 0x64
  pinLow      : Bool := false
  tempHot     : Bool := false
  stretchCount : BitVec 16 := 0
  stretchPoints : Word := 0
  /-- Level causes of R544: droop (and its end), power, alert, temperature. -/
  droop       : Bool := false
  droopEnd    : Option Nat := none
  powerOver   : Bool := false
  overRun     : Nat := 0
  underRun    : Nat := 0
  alert       : Bool := false
  tempLevel   : Bool := false
  /-- The present stretch episode: its start, highest level and causes. -/
  episode     : Option (Nat × Nat × BitVec 8) := none
  temp        : BitVec 8 := 0
  power       : BitVec 12 := 0
  assist      : BitVec 2 := 0
  bias        : BitVec 8 := 0
  sbAddr      : BitVec 7 := 0x58
  padArm      : BitVec 8 := 0
  padHeld     : BitVec 8 := 0
  /-- What the pads of each held bank keep (R542). -/
  pads        : Vector PadLatch 8 := Vector.replicate 8 {}
  /-- The board supplies VCCIOb (R580). -/
  vccio       : BitVec 8 := 0xFF
  /-- The part is waking from Deep: its device reset is not over (R536, R537). -/
  deepWake    : Bool := false
  /-- Points at which the governor last ticked (R538) and the last 64-point power window ended (R544). -/
  lastTick    : Option Nat := none
  lastWindow  : Option Nat := none
  /-- The hard-wired level of THERM_TRIP_N: low (R585). -/
  tripped     : Bool := false
  deriving DecidableEq, Repr

/-! ## Trust (16_roles_and_trust.md) -/

/-- A firmware slot of the flash (R560, R565): erased, holding the image the maker wrote at manufacture (whose bytes
the spec does not give), or as FW_LOAD wrote it. -/
inductive FwSlot where
  | erased
  | factory (version svn : BitVec 32)
  | written (bytes : List (Nat × Byte))
  deriving DecidableEq, Repr

/-- What the boot ROM learns of an image (R566). -/
structure FwImage where
  slot    : Nat
  version : BitVec 32
  svn     : BitVec 32
  /-- None for the image that the maker wrote, whose bytes the spec does not give. -/
  digest  : Option (BitVec 512)
  deriving DecidableEq, Repr

/-- The Colophon store: items 01h to 12h (R561). -/
structure Store where
  installer  : Option (BitVec 4096 × BitVec 32) := none
  generation : BitVec 31 := 0
  locks      : BitVec 6 := 0
  policy     : BitVec 2 := 1
  enForron   : BitVec 24 := 0xFFFFFF
  enFount    : BitVec 24 := 0xFFFFFF
  enRegion   : BitVec 24 := 0xFFFFFF
  enEngine   : BitVec 2 := 3
  rollback   : BitVec 32 := 0
  powerOns   : Nat := 0
  keys       : Vector (Option (BitVec 256)) 8 := Vector.replicate 8 none
  keyEnable  : BitVec 8 := 0
  power      : Vector (BitVec 16) 5 := Vector.replicate 5 0
  sideband   : BitVec 7 := 0x58
  deriving DecidableEq, Repr

/-- The two copies of a store item: their write counts, which is current, and what the other holds and whether its SHA-512 check is
good (R560). -/
structure StoreCopies where
  counts    : Nat × Nat := (0, 0)
  second    : Bool := false
  other     : List Nat := []
  otherGood : Bool := false
  deriving DecidableEq, Repr

/-- What a store write changes when it completes (R560). -/
inductive StoreJob where
  | locks (v : BitVec 6)
  | policy (v : BitVec 2)
  | keyEnable (v : BitVec 8)
  | enForron (v : BitVec 24)
  | enFount (v : BitVec 24)
  | enRegion (v : BitVec 24)
  | enEngine (v : BitVec 2)
  | installer (modulus : BitVec 4096) (exponent : BitVec 32)
  | release
  | key (slot : Nat) (v : Option (BitVec 256))
  | power (v : List Byte)
  | sideband (v : BitVec 7)
  | rollback (v : BitVec 32)
  deriving DecidableEq, Repr

/-- An entry of the Colophon log (R569). `detail` holds bytes 32 to 63, byte 32 lowest. -/
structure LogEntry where
  seq     : Nat
  time    : BitVec 64
  action  : BitVec 16
  role    : BitVec 8
  outcome : BitVec 8
  code    : BitVec 16
  source  : BitVec 8
  target  : BitVec 32
  detail  : BitVec 256
  durable : Bool
  deriving DecidableEq, Repr

/-- A mailbox command that runs (R554): its opcode, and what it will post. -/
structure MboxCmd where
  op     : Nat
  code   : BitVec 16
  output : List Byte
  /-- It waits for its store write. -/
  store  : Bool
  deriving DecidableEq, Repr

/-- Roles, identity and trust (R551 to R577). -/
structure Trust where
  session    : Bool := false
  sheets     : BitVec 25 := 0
  /-- The sheets that the open session was granted, for the log entry of its end (R570). -/
  granted    : BitVec 25 := 0
  identity   : Bool := false
  store      : Store := {}
  /-- The copies of items 01h to 12h; the current ones hold `store`. -/
  copies     : Vector StoreCopies 18 := Vector.replicate 18 {}
  job        : Option StoreJob := none
  /-- The log entry that recorded the job (R571, R575). -/
  jobLog     : Option LogEntry := none
  cmd        : Option MboxCmd := none
  outLen     : BitVec 14 := 0
  result     : BitVec 16 := 0
  /-- TR_MBOX: the spec gives no reset value; zero. -/
  mbox       : List (Nat × Byte) := []
  /-- The session challenge: random after reset; the model names zero. -/
  challenge  : BitVec 512 := 0
  slots      : Vector FwSlot 2 := ⟨#[.factory 1 0, .erased], rfl⟩
  activeB    : Bool := false
  /-- An FW_LOAD has come since the last activation or reset (R568). -/
  loading    : Bool := false
  /-- The image the boot ROM has chosen and that is not yet running, and the running image (R567). -/
  booting    : Option FwImage := some ⟨0, 1, 0, none⟩
  running    : Option FwImage := none
  /-- The retained entries, oldest first: here those of the first start-up. -/
  log        : List LogEntry :=
    [⟨1, 0, 0x000A, 0, 0, 0, 4, 0, 0xFF, false⟩, ⟨2, 0, 0x0006, 0, 0, 0, 4, 0, 0, false⟩]
  /-- H of the entry before the oldest retained (R571). -/
  chain      : BitVec 512 := 0
  /-- The last entry that was to reach flash could not be programmed (R571). -/
  logFails   : Bool := false
  seq        : Nat := 2
  /-- The part is held in device reset: POR_N is low, or a rail is out of tolerance (R587, R590). -/
  porLow     : Bool := false
  railsBad   : Bool := false
  deriving DecidableEq, Repr

/-! ## What leaves the block -/

/-- How a completion to the host ends (R471, R473, R476). -/
inductive Completion where
  | data (bytes : List Byte)
  | abort
  /-- The whole requested payload with the EP bit set (R476). -/
  | poisoned (payload : List Byte)
  | unsupported
  deriving DecidableEq, Repr

/-- What leaves the block: toward host memory, the link partners, user logic and the pins. -/
inductive Output where
  /-- A posted write to host memory: a proof record (R487) or data of an aperture push (R474). -/
  | hostWrite (addr : Nat) (bytes : List Byte)
  /-- A read of host memory: a ticket (R483) or a pull (R474). -/
  | hostRead (addr len : Nat)
  /-- An MSI-X message (R491). -/
  | msix (vector : Nat) (addr : BitVec 64) (data : Word)
  /-- The answer to a host read of a register or a window. -/
  | completion (fn : FnId) (c : Completion)
  /-- A flit at a Forron port (R337): its header and message, and its 16 blocks as they are sent. -/
  | flit (port : Nat) (header : BitVec 96) (msg : Option FMsg) (blocks : List (BitVec 130))
  /-- The LANE_MARK with which a lane of a port begins a superframe (R328). -/
  | laneMark (port lane : Nat) (payload : BitVec 128)
  /-- A superframe that a lane of a port has sent: its 70,720 wire bits, first bit lowest (R328). -/
  | superframe (port lane : Nat) (wire : BitVec 70720)
  /-- The pattern that all lanes of a quad now send (R332). -/
  | prbs (quad : Nat) (pattern : BitVec 2)
  /-- The TRAIN block that a port now sends (R334). -/
  | train (port : Nat) (payload : BitVec 128)
  /-- A beat or a request presented to user logic (R409). -/
  | iwBeat (region chan : Nat) (stream : BitVec 12) (addr : Nat) (data : List Byte) (par : BitVec 16) (be : BitVec 2)
      (last : Bool)
  | rqAccepted (region chan : Nat) (stream : BitVec 12) (addr units : Nat)
  /-- A transmit word at a lane of a quad in fount mode, and a receive word that the lane gives to the region (R416). -/
  | quadSend (quad lane : Nat) (word : BitVec 320)
  | quadWord (quad lane : Nat) (word : BitVec 320)
  /-- What the receiving end of the bridge wires gives a region (R406), and what the serialiser of a pin pair sends in a cycle of
  its clock, first bit lowest (R418). -/
  | bridgeWires (region : Nat) (value : BitVec 2048)
  | pinSerial (bank pair : Nat) (word : BitVec 8)
  /-- fd_flush of a direct feed (R415). -/
  | fdFlush (feed : Nat)
  /-- CF_DONE driven low (true) or released (R443). -/
  | cfDone (low : Bool)
  /-- THERM_TRIP_N goes low (R585). -/
  | thermTrip
  /-- The acknowledge of the sideband address (R537). -/
  | sidebandAck
  /-- Bytes that a sideband read returns, or none: the NACK of a data byte (R537). -/
  | sideband (bytes : Option (List Byte))
  deriving DecidableEq, Repr

end Sys2Proof.Machine
end

