-- ==== Sys2Proof/Machine/Device.lean ====
section
/-!
DEFINITION. Machine/Device.lean: everything the part holds apart from the queue of waiting commands, and its value
right after a device reset (00_scope.md R1, R4, R5; the reset columns of every chapter).
-/
namespace Sys2Proof.Machine

/-- The device. -/
structure Device where
  part    : Part := .xg9480
  /-- What has left the block, newest first. -/
  out     : List Output := []
  /-- The model's own counter: how many free values of `Config.freeBits` the run has taken. -/
  free    : Nat := 0
  time    : PressTime := {}
  mkr     : Makeready := {}
  host    : HostIf := {}
  errata  : Errata := {}
  formes  : Vector Forme 16 := Vector.replicate 16 {}
  presses : Vector Press 128 := Vector.replicate 128 {}
  chase   : Chase := {}
  hbmStacks : Vector Stack 8
  hbm     : HbmCommon := {}
  quads   : Vector Quad 24 := Vector.replicate 24 {}
  forron  : Forron := {}
  fount   : Fount := {}
  cf      : Conf := {}
  power   : Power
  trust   : Trust := {}
  deriving DecidableEq, Repr

/-! ## The population (R1 to R3) -/

/-- Stack HSn is present. -/
def stackPresent (p : Part) (n : Nat) : Bool :=
  match p with
  | .xg9480 => decide (n < 8)
  | .xg9460 => decide (n < 8) && decide (n % 4 ≠ 3)

/-- Lane quad LQnn is present. -/
def quadPresent (p : Part) (n : Nat) : Bool :=
  match p with
  | .xg9480 => decide (n < 24)
  | .xg9460 => decide (n < 24) && decide (n % 12 < 8)

/-- The unit of domain `d` is present (R5). -/
def domainPresent (p : Part) (d : Nat) : Bool :=
  if d < 144 then true
  else if d < 152 then stackPresent p (d - 144)
  else if d < 176 then quadPresent p (d - 152)
  else decide (d < 204)

/-- Capacity of device HBM in bytes (R284). -/
def hbmBytes (p : Part) : Nat :=
  match p with
  | .xg9480 => 0x8000000000
  | .xg9460 => 0x6000000000

/-- Stacks present. -/
def stackCount (p : Part) : Nat :=
  match p with
  | .xg9480 => 8
  | .xg9460 => 6

/-- The `s`-th present stack, in ascending order (R284). -/
def stackOfSlot (p : Part) (s : Nat) : Nat :=
  match p with
  | .xg9480 => s
  | .xg9460 => s + s / 3

/-- A device HBM address: its stack and its stack-local address (R284). -/
def hbmMap (p : Part) (a : Nat) : Nat × Nat :=
  let g := a / 4096
  let n := stackCount p
  (stackOfSlot p (g % n), 4096 * (g / n) + a % 4096)

/-- The device address of a stack-local address. -/
def hbmUnmap (p : Part) (stack l : Nat) : Nat :=
  let slot := match p with
    | .xg9480 => stack
    | .xg9460 => stack - stack / 4
  4096 * (l / 4096 * stackCount p + slot) + l % 4096

/-! ## Reset -/

/-- Domain `d` after a device reset of part `p`: presses Off, absent units Off, every other On (R594). -/
def resetDomain (p : Part) (d : Nat) : Domain :=
  if d < 128 then { dstate := .off }
  else if domainPresent p d then { dstate := .on }
  else { dstate := .off }

/-- All domains after a device reset. -/
def resetDomains (p : Part) : Vector Domain 204 := Vector.ofFn fun i => resetDomain p i.1

/-- The power unit after a device reset. -/
def resetPower (p : Part) : Power := { domains := resetDomains p }

/-- Stack `n` after a device reset: filling, its refresh slot at 512 * n (R292, R313); of an absent stack nothing, since its
registers read as zero (R2). -/
def resetStack (p : Part) (n : Nat) : Stack :=
  if stackPresent p n then
    { state := .filling, point := BitVec.ofNat 12 (0x200 * n), slotPoint := BitVec.ofNat 12 (0x200 * n) }
  else { state := .off, span := 0, shares := 0, slotSpan := 0, slotShares := 0 }

/-- The stacks after a device reset. -/
def resetStacks (p : Part) : Vector Stack 8 := Vector.ofFn fun i => resetStack p i.1

/-- The device of part `p` right after its first device reset. -/
def Device.fresh (p : Part) : Device :=
  { part := p, hbmStacks := resetStacks p, power := resetPower p }

/-- The device after reset: an XG9480 (the population is fixed at manufacture; this is the one the spec describes). -/
def Device.reset : Device := Device.fresh .xg9480

end Sys2Proof.Machine
end

