-- ==== Sys2Proof/Machine/Ops.lean ====
section
/-!
DEFINITION. Machine/Ops.lean: the named operations over the device: reading and changing one unit, what leaves the block,
proof queues, the Errata log and first-error captures, the Colophon log, protected memories with their error reports,
and token counters. The block takes no exception of its own: what a chapter calls a fault is `faultTask` of
Machine/Tasks.lean.
-/
namespace Sys2Proof.Machine

/-! ## Time and outputs -/

/-- Press Time in points, its sheet and its point (R26). -/
def Device.now (d : Device) : Nat := d.time.count.toNat
def Device.sheet (d : Device) : Nat := d.now / 4096
def Device.point (d : Device) : Nat := d.now % 4096

/-- Something leaves the block. -/
def emit (o : Output) (d : Device) : Device := { d with out := o :: d.out }

/-- Take the next free value of `w` bits. -/
def takeFree (w : Nat) (d : Device) : BitVec w × Device :=
  (Config.freeBits w d.free, { d with free := d.free + 1 })

/-! ## One unit -/

def forme (d : Device) (f : Nat) : Forme := vgetN {} d.formes f
def modForme (f : Nat) (g : Forme → Forme) (d : Device) : Device := { d with formes := vmodN d.formes f g }
def press (d : Device) (p : Nat) : Press := vgetN {} d.presses p
def modPress (p : Nat) (g : Press → Press) (d : Device) : Device := { d with presses := vmodN d.presses p g }
def quad (d : Device) (q : Nat) : Quad := vgetN {} d.quads q
def modQuad (q : Nat) (g : Quad → Quad) (d : Device) : Device := { d with quads := vmodN d.quads q g }
def stack (d : Device) (n : Nat) : Stack := vgetN {} d.hbmStacks n
def modStack (n : Nat) (g : Stack → Stack) (d : Device) : Device := { d with hbmStacks := vmodN d.hbmStacks n g }
def domain (d : Device) (n : Nat) : Domain := vgetN { dstate := .off } d.power.domains n
def modDomain (n : Nat) (g : Domain → Domain) (d : Device) : Device :=
  { d with power := { d.power with domains := vmodN d.power.domains n g } }
def modRing (r : Nat) (g : Ring → Ring) (d : Device) : Device :=
  { d with host := { d.host with rings := vmodN d.host.rings r g } }
def pqueue (d : Device) (q : Nat) : ProofQueue := vgetN {} d.host.pqs q
def modPq (q : Nat) (g : ProofQueue → ProofQueue) (d : Device) : Device :=
  { d with host := { d.host with pqs := vmodN d.host.pqs q g } }
def modHost (g : HostIf → HostIf) (d : Device) : Device := { d with host := g d.host }
def modMk (g : Makeready → Makeready) (d : Device) : Device := { d with mkr := g d.mkr }
def modTime (g : PressTime → PressTime) (d : Device) : Device := { d with time := g d.time }
def modChase (g : Chase → Chase) (d : Device) : Device := { d with chase := g d.chase }
def modForron (g : Forron → Forron) (d : Device) : Device := { d with forron := g d.forron }
def modFount (g : Fount → Fount) (d : Device) : Device := { d with fount := g d.fount }
def modCf (g : Conf → Conf) (d : Device) : Device := { d with cf := g d.cf }
def modPower (g : Power → Power) (d : Device) : Device := { d with power := g d.power }
def modTrust (g : Trust → Trust) (d : Device) : Device := { d with trust := g d.trust }
def modErrata (g : Errata → Errata) (d : Device) : Device := { d with errata := g d.errata }
def modPort (r : Nat) (g : RegionPort → RegionPort) (d : Device) : Device :=
  { d with fount := { d.fount with ports := vmodN d.fount.ports r g } }
def regionPort (d : Device) (r : Nat) : RegionPort := vgetN {} d.fount.ports r

/-! ## The host link (R424, R472) -/

/-- A posted write: no read, and no access to configuration space. -/
def LinkReq.posted : LinkReq → Bool
  | .windowWrite _ _ _ _ => true
  | .windowRead _ _ _ => false
  | .row (.registerWrite _ _ _ _ _ _ config) => !config
  | .row (.lowWordRead _ _ _ _ _) | .row (.mkTableRead _) | .row (.erRead _) | .row (.userWindowRead _ _) => false
  | .row _ => true

/-- The HBM address of offset `o` of the HBM window (R471). -/
def windowAddr (d : Device) (o : BitVec 36) : Nat := 2 ^ 30 * d.host.window.toNat + o.toNat

/-- Window requests that no posted write before them can change any more take their HBM address (R471). -/
def resolveLink (d : Device) : List LinkReq → List LinkReq
  | [] => []
  | .windowWrite o a v p :: rest => .windowWrite o (some (a.getD (windowAddr d o))) v p :: rest
  | .windowRead o a n :: rest => .windowRead o (some (a.getD (windowAddr d o))) n :: resolveLink d rest
  | r :: rest => if r.posted then r :: rest else r :: resolveLink d rest

def settleLink (d : Device) : Device := modHost (fun h => { h with link := resolveLink d h.link }) d

/-- The request waits on the link, behind those that wait there already. -/
def holdLink (r : LinkReq) (d : Device) : Device := settleLink (modHost (fun h => { h with link := h.link ++ [r] }) d)

/-- A posted write waits on the link: nothing that the host sends passes it (R472; for reads, log 92). -/
def linkBusy (d : Device) : Bool := d.host.linkUp && d.host.link.any (·.posted)

/-- A request of the host takes its effect `g`, unless a posted write before it waits. -/
def onLink (r : LinkReq) (g : Device → Device) (d : Device) : Device := if linkBusy d then holdLink r d else g d

/-- A platen of a press. -/
def getPlaten (p : Press) : PlatenId → Platen
  | .A => p.plA
  | .B => p.plB
def setPlaten (p : Press) (pl : PlatenId) (v : Platen) : Press :=
  match pl with
  | .A => { p with plA := v }
  | .B => { p with plB := v }
def getBank (pl : Platen) (b : Bool) : Bank := if b then pl.bank1 else pl.bank0
def setBank (pl : Platen) (b : Bool) (v : Bank) : Platen :=
  if b then { pl with bank1 := v } else { pl with bank0 := v }
def modBank (pl : Platen) (b : Bool) (g : Bank → Bank) : Platen := setBank pl b (g (getBank pl b))

/-- The domain is On. -/
def domainOn (d : Device) (n : Nat) : Bool := (domain d n).dstate = .on

/-! ## Unit addresses (R15, R16) -/

def unitPlaten (p : Nat) (pl : PlatenId) : BitVec 32 :=
  BitVec.ofNat 32 (0x01000000 + 0x100000 * (p / 64) + 0x10000 * (p / 8) + 0x1000 * (p % 8)
    + (match pl with | .A => 0 | .B => 0x100))
def unitPress (p : Nat) : BitVec 32 :=
  BitVec.ofNat 32 (0x02000000 + 0x100000 * (p / 64) + 0x10000 * (p / 8) + 0x1000 * (p % 8))
def unitForme (f : Nat) : BitVec 32 := BitVec.ofNat 32 (0x03000000 + 0x100000 * (f / 8) + 0x10000 * f)
def unitStack (n : Nat) : BitVec 32 := BitVec.ofNat 32 (0x04000000 + 0x100000 * (n / 4) + n)
def unitQuad (q : Nat) : BitVec 32 := BitVec.ofNat 32 (0x05000000 + 0x100000 * (q / 12) + q)
def unitRegion (r : Nat) : BitVec 32 := BitVec.ofNat 32 (0x06000000 + 0x100000 * (r / 12) + r)
def unitHost : BitVec 32 := 0x07000000#32
def unitConf : BitVec 32 := 0x08000000#32
def unitSwitch : SwitchId → BitVec 32
  | .forme f => BitVec.ofNat 32 (0x09000000 + 0x100000 * (f.1 / 8) + f.1)
  | .die d => BitVec.ofNat 32 (0x09000010 + 0x100000 * d.1)
  | .root => 0x09000011#32
def unitMk : BitVec 32 := 0x0A000000#32
def unitPower : BitVec 32 := 0x0B000000#32
def unitTrust : BitVec 32 := 0x0C000000#32

/-- The class of a unit address, and the press or forme that it names. -/
def unitClass (u : BitVec 32) : Nat := fieldN u 31 24
def unitPressOf (u : BitVec 32) : Nat := 8 * fieldN u 19 16 + fieldN u 15 12

/-- `k` times over. -/
def times (g : Device → Device) : Nat → Device → Device
  | 0, d => d
  | k + 1, d => times g k (g d)

/-! ## Records (R486) -/

/-- The 64 bytes of a record with its phase bit. -/
def recBytes (r : Rec) (phase : Bool) : List Byte :=
  leBytes 2 r.type.toNat ++ leBytes 1 r.severity.toNat ++ leBytes 1 (b2n phase) ++ leBytes 4 r.unit.toNat
    ++ leBytes 8 r.time.toNat ++ leBytes 8 r.ticket.toNat ++ leBytes 2 r.code.toNat ++ leBytes 2 0
    ++ leBytes 2 r.incarnation.toNat ++ leBytes 2 0 ++ leBytes 32 r.detail.toNat

/-- A detail field: `v` at byte `off` of the record (bytes 32 to 63). -/
def dput (off : Nat) (v : Nat) (d : BitVec 256) : BitVec 256 := d ||| BitVec.ofNat 256 (v * 2 ^ (8 * (off - 32)))

/-- A message of MSI-X vector `v` (R491): not sent while MSI-X is disabled, pending while masked. -/
def sendVector (v : Nat) (d : Device) : Device :=
  if !d.host.msixEnable then d
  else
    let x := vgetN {} d.host.msix v
    if x.masked || d.host.fnMask then
      modHost (fun h => { h with msix := vmodN h.msix v fun x => { x with pending := true } }) d
    else emit (.msix v x.addr x.data) d

/-- Start holdoff where the queue has one (R491). -/
def startHoldoff (q : Nat) (d : Device) : Device :=
  modPq q (fun x => { x with holdUntil := if x.holdoff = 0 then none else some (d.now + x.holdoff.toNat) }) d

/-- Signal a record written into a queue that was empty (R491). -/
def signalPq (q : Nat) (d : Device) : Device :=
  let x := pqueue d q
  match x.holdUntil with
  | some _ => modPq q (fun x => { x with pendingV := true }) d
  | none => startHoldoff q (sendVector x.vector.toNat d)

/-- Slots of a queue, and room for one more unconsumed record (R487). -/
def pqSlots (x : ProofQueue) : Nat := 2 ^ x.log2size.toNat
def pqRoom (x : ProofQueue) : Bool := (x.tail.toNat + pqSlots x - x.head.toNat) % pqSlots x < pqSlots x - 1

/-- A record may be written to host memory now. -/
def pqReady (d : Device) (q : Nat) : Bool := (pqueue d q).enable && pqRoom (pqueue d q) && d.host.linkUp

/-- Write one record at a queue's tail (R487). -/
def pqWrite (q : Nat) (r : Rec) (d : Device) : Device :=
  let x := pqueue d q
  let empty := x.head = x.tail
  let d := emit (.hostWrite (x.base.toNat + 64 * x.tail.toNat)
    (recBytes { r with incarnation := d.forron.inc } x.phase)) d
  let next := x.tail.toNat + 1
  let d := modPq q (fun x => { x with tail := BitVec.ofNat 16 (next % pqSlots x),
                                      phase := if next = pqSlots x then !x.phase else x.phase }) d
  if empty then signalPq q d else d

/-- A record is lost (R487). -/
def pqLose (q : Nat) (d : Device) : Device :=
  modPq q (fun x => { x with lost := satAdd x.lost 1, overflow := true, lostSince := x.lostSince + 1 }) d

/-- The RECORDS_LOST record of a queue (R489, R490, R595). -/
def lostRec (d : Device) (q : Nat) : Rec :=
  { type := 0x0012, severity := 3, unit := unitHost, time := d.time.count, code := 0x070B,
    detail := dput 32 (pqueue d q).lostSince (dput 36 q 0) }

/-- Write a record, hold it, or lose it; nothing is said of earlier losses (R487). -/
def postPlain (q : Nat) (r : Rec) (d : Device) : Device :=
  let x := pqueue d q
  if !x.enable then pqLose q d
  else if x.holding = [] && pqReady d q then pqWrite q r d
  else if x.holding.length < 256 then modPq q (fun x => { x with holding := x.holding ++ [r] }) d
  else pqLose q d

/-- When a queue with losses has room, its RECORDS_LOST record is written first, to the errata queue (R487, R488). -/
def tellLost (q : Nat) (d : Device) : Device :=
  let x := pqueue d q
  if x.lostSince ≠ 0 && pqReady d q then
    let r := lostRec d q
    let e := d.host.errataPq.toNat
    let d := modPq q (fun x => { x with lostSince := 0 }) d
    if e = q then pqWrite q r d else postPlain e r d
  else d

/-- Write held records while there is room (R487); `n` bounds their number. -/
def drainPq : Nat → Nat → Device → Device
  | 0, _, d => d
  | n + 1, q, d =>
    if pqReady d q then
      match (pqueue d q).holding with
      | [] => d
      | r :: _ => drainPq n q (pqWrite q r (modPq q (fun x => { x with holding := x.holding.drop 1 }) d))
    else d

/-- Room has returned to a queue: the report of losses, then what is held. -/
def roomPq (q : Nat) (d : Device) : Device := drainPq 256 q (tellLost q d)

/-- Post a record to queue `q`. -/
def postRec (q : Nat) (r : Rec) (d : Device) : Device := postPlain q r (tellLost q d)

/-! ## First-error captures (R502, R522) -/

/-- The capture that a unit address fills. -/
inductive CapSlot where
  | press (p : Nat)
  | forme (f : Nat)
  | stack (n : Nat)
  | quad (q : Nat)
  | chase
  | none
  deriving DecidableEq, Repr

def capSlot (u : BitVec 32) : CapSlot :=
  match unitClass u with
  | 1 => .press (unitPressOf u)
  | 2 => .press (unitPressOf u)
  | 3 => .forme (fieldN u 19 16)
  | 4 => .stack (fieldN u 7 0)
  | 5 => .quad (fieldN u 7 0)
  | 9 => .chase
  | _ => .none

/-- The first error fills the capture; later ones set `more`. -/
def capFill (r : Rec) (pc : Option (BitVec 15)) (stream : Option (BitVec 12)) (c : Capture) : Capture :=
  if c.valid then { c with more := true }
  else ⟨true, false, r.code, r.time, r.ticket, pc, stream, r.unit⟩

def capture (r : Rec) (pc : Option (BitVec 15)) (stream : Option (BitVec 12)) (d : Device) : Device :=
  let g := capFill r pc stream
  match capSlot r.unit with
  | .press p => modPress p (fun x => { x with cap := g x.cap }) d
  | .forme f => modForme f (fun x => { x with cap := g x.cap }) d
  | .stack n => modStack n (fun x => { x with cap := g x.cap }) d
  | .quad q => modQuad q (fun x => { x with cap := g x.cap }) d
  | .chase => modErrata (fun e => { e with chaseCap := g e.chaseCap }) d
  | .none => d

/-! ## The Errata log (R498 to R501) -/

/-- Put entry `r` at place `i` of the ring, or before those of the `n` unspilled entries under it that are of the same point
and of a higher unit address (R498). -/
def errataPlace (r : Rec) : Nat → BitVec 10 → List (Nat × Rec) → List (Nat × Rec)
  | 0, i, ring => smapSet {} ring i.toNat r
  | n + 1, i, ring =>
    let x := smapGet {} ring (i - 1).toNat
    if x.time = r.time && r.unit.toNat < x.unit.toNat then errataPlace r n (i - 1) (smapSet {} ring i.toNat x)
    else smapSet {} ring i.toNat r

/-- Put one entry into the ring; there is room. -/
def errataRaw (r : Rec) (e : Errata) : Errata :=
  { e with ring := errataPlace r e.unspilled e.next e.ring, next := e.next + 1, unspilled := e.unspilled + 1 }

/-- The ER_RECORDS_LOST entry (R501, R595). -/
def errataLostRec (now : BitVec 64) (inc : BitVec 16) (n : Nat) : Rec :=
  { type := 0x0011, severity := 1, unit := 0, time := now, code := 0x0A09, incarnation := inc,
    detail := BitVec.ofNat 256 (n % 2 ^ 32) }

/-- When room has returned after losses, their entry comes first (R501). -/
def errataTell (now : BitVec 64) (inc : BitVec 16) (e : Errata) : Errata :=
  if e.lostSince ≠ 0 && e.unspilled < 1024 then
    { e with ring := smapSet {} e.ring e.next.toNat (errataLostRec now inc e.lostSince), next := e.next + 1,
             unspilled := e.unspilled + 1, lostSince := 0 }
  else e

/-- Write an entry, or lose it. -/
def errataPut (now : BitVec 64) (r : Rec) (e : Errata) : Errata :=
  let e := errataTell now r.incarnation e
  if e.unspilled < 1024 then errataRaw r e
  else { e with lost := satAdd e.lost 1, overflow := true, lostSince := e.lostSince + 1 }

/-- Write an Errata entry without filling a capture (R505). -/
def errataEntry (sev : Nat) (unit : BitVec 32) (ticket : BitVec 64) (code : BitVec 16) (detail : BitVec 256)
    (d : Device) : Device :=
  modErrata (errataPut d.time.count
    { type := 0x0011, severity := BitVec.ofNat 2 sev, unit := unit, time := d.time.count, ticket := ticket,
      code := code, incarnation := d.forron.inc, detail := detail }) d

/-- The codes with which recovery itself reports (R519): they escalate nothing. -/
def recoveryCode (code : BitVec 16) : Bool := 0x0A01 ≤ code.toNat && code.toNat ≤ 0x0A10

/-- Note an error that names a press under recovery, for `settleErrors` (R515). -/
def noteEscalation (unit : BitVec 32) (code : BitVec 16) (d : Device) : Device :=
  match capSlot unit with
  | .press p =>
    match (press d p).recovery.state with
    | .inService => d
    | _ => if recoveryCode code then d else modErrata (fun e => { e with escalate := e.escalate ++ [p] }) d
  | _ => d

/-- Log an error: its entry, and the capture of its unit (R498, R502). -/
def logError (sev : Nat) (unit : BitVec 32) (ticket : BitVec 64) (code : BitVec 16) (detail : BitVec 256)
    (pc : Option (BitVec 15)) (stream : Option (BitVec 12)) (d : Device) : Device :=
  noteEscalation unit code <| errataEntry sev unit ticket code detail
    (capture { unit := unit, time := d.time.count, ticket := ticket, code := code } pc stream d)

/-- A logged error of no task. -/
def logPlain (unit : BitVec 32) (code : BitVec 16) (detail : BitVec 256) (d : Device) : Device :=
  logError 1 unit 0 code detail none none d

/-! ## The context detail (R503) -/

def recStep : RecState → Nat
  | .inService => 0 | .fenced => 1 | .draining => 2 | .resetting => 3 | .powerCycling => 4 | .offline => 5

/-- The recovery state as it stands now: the fence ends, and the drain begins, 2 points after the close (R510). -/
def recNow (now : Nat) (r : Recovery) : RecState :=
  if r.state = .fenced && r.closedAt + 2 ≤ now then .draining else r.state

/-- The recovery step of the press that a unit address names. -/
def stepOf (d : Device) (unit : BitVec 32) : Nat :=
  match capSlot unit with
  | .press p => recStep (recNow d.now (press d p).recovery)
  | _ => 0

def ctxDetail (governing : BitVec 16) (c : Ctx) (secondary escalation : Bool) (step secondaries : Nat) :
    BitVec 256 :=
  let flags := b2n c.pc.isSome + 2 * b2n c.stream.isSome + 4 * b2n secondary + 8 * b2n escalation
  dput 32 governing.toNat <| dput 34 c.phase <| dput 35 flags <|
  dput 36 ((c.pc.map BitVec.toNat).getD 0) <| dput 38 ((c.stream.map BitVec.toNat).getD 0xFFFF) <|
  dput 40 c.word.toNat <| dput 44 c.issuer.toNat <| dput 48 c.vforme <| dput 49 c.pmask.toNat <|
  dput 50 c.platen <| dput 51 step <| dput 52 secondaries 0

/-- The context of a queue entry of press `p` (R503). -/
def ctxOf (p phase : Nat) (e : QEntry) (platen : Option PlatenId) : Ctx :=
  { phase := phase, pc := some e.pc, word := e.word, issuer := unitForme (p / 8), vforme := e.vforme,
    pmask := e.pmask,
    platen := match platen with | none => 255 | some .A => 0 | some .B => 1 }

/-! ## The Colophon log (R569 to R571) -/

/-- Bytes 0 to 31 of an entry, as one number of 32 bytes, byte 0 lowest. -/
def logHead (e : LogEntry) : BitVec 256 :=
  BitVec.ofNat 256 (leNat (leBytes 8 e.seq ++ leBytes 8 e.time.toNat ++ leBytes 2 e.action.toNat
    ++ leBytes 1 e.role.toNat ++ leBytes 1 e.outcome.toNat ++ leBytes 2 e.code.toNat ++ leBytes 1 e.source.toNat
    ++ leBytes 1 0 ++ leBytes 4 e.target.toNat ++ leBytes 4 0))

/-- The 64 bytes of an entry. -/
def logBytes (e : LogEntry) : List Byte := leBytes 32 (logHead e).toNat ++ leBytes 32 e.detail.toNat

/-- The entry that an action writes now. -/
def logMake (action role outcome : Nat) (code : BitVec 16) (source : Nat) (target : Nat) (detail : BitVec 256)
    (d : Device) : LogEntry :=
  ⟨d.trust.seq + 1, d.time.count, BitVec.ofNat 16 action, BitVec.ofNat 8 role, BitVec.ofNat 8 outcome, code,
   BitVec.ofNat 8 source, BitVec.ofNat 32 target, detail, false⟩

/-! ## Token counters (R199) -/

/-- Add to a token counter; none where it would pass 65,535. -/
def tokenAdd (f : Forme) (c n : Nat) : Option Forme :=
  let v := (vgetN 0 f.tokens c).toNat + n
  if v < 65536 then some { f with tokens := vmodN f.tokens c fun _ => BitVec.ofNat 16 v } else none

/-- Subtract from a token counter; none while it holds less. -/
def tokenTake (f : Forme) (c n : Nat) : Option Forme :=
  let v := (vgetN 0 f.tokens c).toNat
  if n ≤ v then some { f with tokens := vmodN f.tokens c fun _ => BitVec.ofNat 16 (v - n) } else none

/-! ## Table entries (R36) -/

def eSheet (e : BitVec 128) : Nat := fieldN e 127 108
def ePoint (e : BitVec 128) : Nat := fieldN e 107 96
def eAction (e : BitVec 128) : Nat := fieldN e 95 92
def eSlot (e : BitVec 128) : Nat := fieldN e 91 80
def eSpan (e : BitVec 128) : Nat := fieldN e 79 60
def eMargin (e : BitVec 128) : Nat := fieldN e 59 48
def eClass (e : BitVec 128) : Nat := fieldN e 47 44
def eIndex (e : BitVec 128) : Nat := fieldN e 43 32
def eQty (e : BitVec 128) : Nat := fieldN e 31 24
def eArg (e : BitVec 128) : Nat := fieldN e 23 8
def eMclass (e : BitVec 128) : Nat := fieldN e 7 5
def eOverrun (e : BitVec 128) : Bool := bit e 3
def eLate (e : BitVec 128) : Bool := bit e 2
def eFired (e : BitVec 128) : Bool := bit e 1
def eValid (e : BitVec 128) : Bool := bit e 0

/-! ## When an entry is (R36, R37) -/

/-- The absolute sheet of an entry: sheets are compared modulo 2^20 relative to the current one. -/
def entrySheet (sheet : Nat) (e : BitVec 128) : Nat :=
  let rel := (eSheet e + 2 ^ 20 - sheet % 2 ^ 20) % 2 ^ 20
  if rel < 2 ^ 19 then sheet + rel else sheet + rel - 2 ^ 20

/-- The absolute point at which an entry fires, and at which its span and margin end. -/
def entryTime (d : Device) (e : BitVec 128) : Nat := 4096 * entrySheet d.sheet e + ePoint e
def entryEnd (d : Device) (e : BitVec 128) : Nat := entryTime d e + eSpan e + eMargin e

/-- The ticket of `slot` has a window of an action, a class and an index open, with this arg (R38, R39, R259). -/
def openWindow (d : Device) (slot action cls idx arg : Nat) : Bool :=
  d.mkr.table.any fun ie =>
    let e := ie.2
    eSlot e = slot && eAction e = action && eClass e = cls && (cls = 4 || eIndex e = idx) && eArg e = arg && eFired e
      && d.now < entryEnd d e

end Sys2Proof.Machine
end

