-- ==== Sys2Proof/Machine/Clocks.lean ====
section
/-!
DEFINITION. Machine/Clocks.lean: the columns of the fount, its global trees and what drives them, the crossings that they clock, and
the general-purpose pins (11_fount.md R395, R396, R404 to R407, R416, R418; 12_configuration.md R437; 15_power.md R541, R542).
-/
namespace Sys2Proof.Machine

/-- The live frame at minor `minor` of a column, as the loads wrote it (R397, R433). -/
def columnFrame (d : Device) (region column minor : Nat) : BitVec 4096 :=
  smapGet 0 d.cf.frames ((region * 96 + column) * 64 + minor)

/-! ## Columns (R395, R396) -/

inductive ColKind where
  | clock | crossing | bank | logic | ram | lines
  deriving DecidableEq, Repr

/-- Regions FN00, FN03, … hold an I/O bank (R395, R418). -/
def ioRegion (r : Nat) : Bool := r % 3 = 0

/-- The kind of column `c` of region `r` (R396). -/
def colKind (r c : Nat) : ColKind :=
  if c = 0 then .clock
  else if c = 1 then .crossing
  else if ioRegion r then
    if c = 2 then .bank
    else if c < 87 then (if (c - 3) % 4 = 3 then .ram else .logic)
    else if c = 87 then .logic
    else if c = 88 then .ram
    else .lines
  else
    if c < 86 then (if (c - 2) % 4 = 3 then .ram else .logic)
    else if c = 86 then .logic
    else .lines

/-- RAM blocks numbered by region, column and block. -/
def ramIndex (r c b : Nat) : Nat := (r * 96 + c) * 16 + b

/-! ## Trees (R404, R405) -/

/-- What TREE_SRCt says: the kind of the source, and its number on the tree's own die (R437). -/
def treeSource (d : Device) (t : Nat) : Nat × Nat :=
  let v := smapGet 0 d.cf.wregs t
  (fieldN v 11 8, fieldN v 7 0)

/-- The source of a tree drives it: a PLL drives its outputs only while it is locked (R405), and a lane quad gives its clock
only in fount mode (R404). -/
def treeDriven (d : Device) (t : Nat) : Bool :=
  let s := treeSource d t
  match s.1 with
  | 1 => bit d.fount.pllLock (s.2 / 4)
  | 2 => true
  | 3 => (quad d s.2).mode = 2
  | _ => false

/-- A tree carries edges: its source drives it, and its last window had some (R407). -/
def treeMoves (d : Device) (t : Nat) : Bool := bit d.fount.treeRun t && treeDriven d t

/-- The C column of region `r` enables tree `t` of its die: minor frame `t`. DESIGN CHOICE (log 86): the enable is bit 0 of
the frame, whose layout the spec does not give. -/
def treeEnabled (d : Device) (r t : Nat) : Bool := bit (columnFrame d r 0 (t % 16)) 0

/-- A tree carries the quad clock of lane quad `q` (R404, R406). -/
def carriesQuad (d : Device) (t q : Nat) : Bool := treeSource d t = (3, q) && (quad d q).mode = 2

/-- The quad clock for a reference of `f` Hz (R416). -/
def quadClock (f : Nat) : Nat := f * 17 / 4

/-! ## Crossings (R406, R407) -/

/-- The crossings of a region, as `Config.crossBit` numbers them: the region port, feed outputs 0 and 1, the quad interface
and the bridge wires. -/
def crossPort : Nat := 0
def crossFeed (output : Nat) : Nat := 1 + output
def crossQuad : Nat := 3
def crossBridge : Nat := 4

/-- Bit `i` of the control of a crossing, in the P column of its region. -/
def crossBit (d : Device) (r kind i : Nat) : Bool :=
  let x := Config.crossBit kind i
  bit (columnFrame d r 1 (x / 4096 % 8)) (x % 4096)

/-- The tree that the 5-bit select of a crossing names (R406). -/
def crossTree (d : Device) (r kind : Nat) : Nat := (List.range 5).foldr (fun i n => b2n (crossBit d r kind i) + 2 * n) 0

/-- The crossing is enabled (R397). -/
def crossEnabled (d : Device) (r kind : Nat) : Bool := crossBit d r kind 5

/-- The quad interface of region `r` has its own quad's clock (R406, FT_QUADnn.tree_ok). -/
def quadTreeOk (d : Device) (r : Nat) : Bool := carriesQuad d (crossTree d r crossQuad) r

/-- The crossing is isolated: its tree is over, or it is a quad interface without its quad's clock (R407, R417); or it stalls:
it is not enabled, or its tree carries no edges in the region, which none of the other die does (R397, R404, R406). -/
def crossIsolated (d : Device) (r kind : Nat) : Bool :=
  let t := crossTree d r kind
  !crossEnabled d r kind || t / 16 ≠ r / 12 || bit d.fount.isoOver t || bit d.fount.isoTail t || !treeMoves d t || !treeEnabled d r t
    || (kind = crossQuad && !quadTreeOk d r)

/-- The region that region `r` faces across the bridge (R395, R406). -/
def bridgeFace : Nat → Option Nat
  | 0 => some 12 | 12 => some 0 | 11 => some 23 | 23 => some 11 | _ => none

/-- Output `o` of PLL `k` as a multiple of its reference: M, and N times D (R437). -/
def pllRatio (d : Device) (k o : Nat) : Nat × Nat :=
  let cfg := smapGet 0 d.cf.wregs (0x20 + k)
  let div := smapGet 0 d.cf.wregs (0x28 + k)
  (fieldN cfg 26 19, (fieldN cfg 18 15 + 1) * (fieldN div (7 * o + 6) (7 * o) + 1))

/-- The PLL output that drives a tree, where the PLL takes PT_REFCLK (R406). -/
def refOutput (d : Device) (t : Nat) : Option (Nat × Nat) :=
  let s := treeSource d t
  if s.1 = 1 && !bit (smapGet 0 d.cf.wregs (0x20 + s.2 / 4)) 30 then some (pllRatio d (s.2 / 4) (s.2 % 4)) else none

/-- The clock rule of the bridge wires of region `r`: both ends' trees come from PLLs on PT_REFCLK at one frequency (R406). -/
def bridgeClockOk (d : Device) (r : Nat) : Bool :=
  match bridgeFace r with
  | none => false
  | some q => match refOutput d (crossTree d r crossBridge), refOutput d (crossTree d q crossBridge) with
    | some a, some b => a.1 * b.2 = b.1 * a.2
    | _, _ => false

/-! ## General-purpose pins (R418, R541, R542) -/

/-- The bank's pins and their region. -/
def bankRegion (b : Nat) : Nat := 3 * b

/-- The setting of pin `p` of bank `b`, by its B frame. -/
def pinSetting (d : Device) (b p : Nat) : PinSetting :=
  let c := Config.pinCode (columnFrame d (bankRegion b) 2 p)
  if bit c 5 then .lvds (bit c 4)
  else .lvcmos (nth 4 [4, 8, 12] (fieldN c 1 0 % 3)) (nth .none [.none, .up, .down, .keeper] (fieldN c 3 2))

/-- The supply of bank `b`. -/
def bankSupply (b : Nat) : BankSupply := nth .v12 [.v12, .v15, .v18] (Config.bankSupply b % 3)

/-- A setting that the table of R418 allows. -/
def pinSettingOk (v : BankSupply) : PinSetting → Bool
  | .lvcmos drive _ => drive = 4 || drive = 8 || drive = 12
  | .lvds _ => v = .v18

/-- What pin `p` drives with its setting, from a bank's output and enable registers: the odd pin of a differential pair drives the
complement of the even one. DESIGN CHOICE (log 86): with a setting that the table of R418 does not allow it drives nothing. -/
def pinOut (v : BankSupply) (s : PinSetting) (output enable : BitVec 48) (p : Nat) : Option Bool :=
  let k := match s with | .lvds _ => p / 2 * 2 | .lvcmos _ _ => p
  if !pinSettingOk v s || !bit enable k then none else some (Bool.xor (bit output k) (decide (k ≠ p)))

/-- The region of the bank is on, holds a personality, and its pins do not float (R418, R438, R541, R542). -/
def bankDrives (d : Device) (b : Nat) : Bool :=
  domainOn d (176 + bankRegion b) && bit d.cf.regions (bankRegion b) && !bit d.cf.pinOpen b

/-- What pin `p` of bank `b` drives; none where it does not drive. Under pad hold it keeps what it drove, while the bank has its supply;
else it follows its registers, which keep their values while a partial load holds the region. -/
def pinDrives (d : Device) (b p : Nat) : Option Bool :=
  if bit d.power.padHeld b then
    let x := vgetN {} d.power.pads b
    if bit d.power.vccio b then pinOut (bankSupply b) (nth (.lvcmos 4 .none) x.settings p) x.output x.enable p else none
  else if bankDrives d b then
    let x := vgetN {} d.fount.pins b
    pinOut (bankSupply b) (pinSetting d b p) x.output x.enable p
  else none

/-- What the pads of bank `b` latch in the cycle before its region is switched off (R542). -/
def padLatch (d : Device) (b : Nat) : PadLatch :=
  let x := vgetN {} d.fount.pins b
  { output := x.output, enable := if bankDrives d b then x.enable else 0,
    settings := (List.range 48).map (pinSetting d b) }

end Sys2Proof.Machine
end

