-- ==== Sys2Proof/Machine/Stored.lean ====
section
/-!
DEFINITION. Machine/Stored.lean: the stored-data code and the operations of one protected memory
(08_memory_and_stored_data.md R299 to R304): reading through the mending stage, whole-block writes, narrow writes through
the merge buffer, and flushes.
-/
namespace Sys2Proof.Machine

/-- Even parity of the set bits of a number's low `n` bits. -/
def parityN (n v : Nat) : Bool := ((List.range n).foldl (fun c i => c + v / 2 ^ i % 2) 0) % 2 = 1

/-- How many bits of a halfword are set. -/
def countBits {n : Nat} (v : BitVec n) : Nat := (List.range n).foldl (fun c i => c + b2n (v.getLsbD i)) 0

/-- Row `r` of a block: the little-endian halfword at bytes 2r and 2r + 1 (R299). -/
def codeRow (d : BitVec 256) (r : Nat) : BitVec 16 := d.extractLsb' (16 * r) 16

/-- The check word of a block: [15:0] the row parities, [31:16] the XOR of the rows (R299). -/
def checkWord (d : BitVec 256) : BitVec 32 :=
  let p := (List.range 16).foldl
    (fun (a : BitVec 16) r => if countBits (codeRow d r) % 2 = 1 then a ||| (1#16 <<< r) else a) 0
  let q := (List.range 16).foldl (fun (a : BitVec 16) r => a ^^^ codeRow d r) 0
  q ++ p

/-- What a read of a block meets (R300). -/
inductive BlockRead where
  | good
  | dataBit (b : Nat)
  | checkBit
  | bad
  deriving DecidableEq, Repr

/-- The outcome of a syndrome: [31:16] column syndrome, [15:0] row syndrome (R300). -/
def judgeSyndrome (s : BitVec 32) : BlockRead :=
  let row : BitVec 16 := s.extractLsb' 0 16
  let col : BitVec 16 := s.extractLsb' 16 16
  match countBits row, countBits col with
  | 0, 0 => .good
  | 1, 1 => .dataBit (16 * Nat.log2 row.toNat + Nat.log2 col.toNat)
  | 1, 0 => .checkBit
  | 0, 1 => .checkBit
  | _, _ => .bad

/-- A stored byte, the merge buffer apart. -/
def memByte (m : Mem) (a : Nat) : Byte := smapGet 0 m.bytes a

/-- `n` stored bytes from `a`, the merge buffer apart. -/
def memBytes (m : Mem) (a n : Nat) : List Byte := (rangeFrom a n).map (memByte m)

/-- The stored data of block `b`. -/
def memBlock (m : Mem) (b : Nat) : BitVec 256 := BitVec.ofNat 256 (leNat (memBytes m (32 * b) 32))

/-- Store bytes without touching check words: the raw array. -/
def rawPut (l : List (Nat × Byte)) (a : Nat) : List Byte → List (Nat × Byte)
  | [] => l
  | b :: r => rawPut (smapSet 0 l a b) (a + 1) r

/-- Write a whole block with a new, right check word. -/
def putBlock (m : Mem) (b : Nat) (d : BitVec 256) : Mem :=
  { m with bytes := rawPut m.bytes (32 * b) (leBytes 32 d.toNat), syn := smapSet 0 m.syn b 0 }

/-- An event that the code reports: the block, its syndrome, whether it is uncorrectable, whether a flush of a narrow write
read it, and then who wrote that. -/
structure MemEv where
  block  : Nat
  syn    : BitVec 32
  bad    : Bool
  flush  : Bool
  writer : Option Writer := none
  deriving DecidableEq, Repr

/-- Read one block through the mending stage: the data delivered and what the code reports (R300, R301). -/
def readBlock (m : Mem) (b : Nat) (flush : Bool) : BitVec 256 × List MemEv :=
  let s := smapGet 0 m.syn b
  let d := memBlock m b
  match judgeSyndrome s with
  | .good => (d, [])
  | .dataBit i => (d ^^^ (1#256 <<< i), [⟨b, s, false, flush, none⟩])
  | .checkBit => (d, [⟨b, s, false, flush, none⟩])
  | .bad => (d, [⟨b, s, true, flush, none⟩])

/-- The bit mask of a byte mask. -/
def maskBits (m : BitVec 32) : BitVec 256 :=
  BitVec.ofNat 256 ((List.range 32).foldl (fun a i => if m.getLsbD i then a + 255 * 2 ^ (8 * i) else a) 0)

/-- Flush one merge-buffer entry, already taken out of the buffer (R304). -/
def flushEntry (m : Mem) (e : MergeEntry) : Mem × List MemEv :=
  if e.mask = BitVec.allOnes 32 then (putBlock m e.block e.data, [])
  else
    let (d, evs) := readBlock m e.block true
    let evs := evs.map fun v => { v with writer := e.writer }
    if evs.any (·.bad) then (m, evs)
    else
      let k := maskBits e.mask
      (putBlock m e.block ((d &&& ~~~k) ||| (e.data &&& k)), evs)

/-- Flush the entries that `p` picks, oldest first (R304). -/
def flushWhere (p : MergeEntry → Bool) (m : Mem) : Mem × List MemEv :=
  let go := m.merge.filter p
  let m := { m with merge := m.merge.filter (fun e => !p e) }
  go.foldl (fun (a : Mem × List MemEv) e =>
    let (m', evs) := flushEntry a.1 e
    (m', a.2 ++ evs)) (m, [])

/-- Flush the whole merge buffer. -/
def flushAll (m : Mem) : Mem × List MemEv := flushWhere (fun _ => true) m

/-- A narrow write inside one block goes into the merge buffer (R303). -/
def narrowPut (m : Mem) (b off : Nat) (v : List Byte) : Mem × List MemEv :=
  let mask : BitVec 32 := BitVec.ofNat 32 ((2 ^ v.length - 1) * 2 ^ off)
  let data : BitVec 256 := BitVec.ofNat 256 (leNat v * 2 ^ (8 * off))
  let put (e : MergeEntry) : MergeEntry :=
    { e with mask := e.mask ||| mask, data := (e.data &&& ~~~(maskBits mask)) ||| data }
  let (m, evs) :=
    if m.merge.any (·.block = b) then
      ({ m with merge := modWhere (·.block = b) put m.merge }, [])
    else
      let (m, evs) :=
        if m.merge.length < 16 then (m, [])
        else match m.merge with
          | [] => (m, [])
          | e :: r => flushEntry { m with merge := r } e
      ({ m with merge := m.merge ++ [put ⟨b, 0, 0, none⟩] }, evs)
  let (m, evs') := flushWhere (fun e => decide (e.block = b) && decide (e.mask = BitVec.allOnes 32)) m
  (m, evs ++ evs')

/-- Write the part of a byte range that lies in one block: a whole block at once, anything less as a narrow write. -/
def writeOne (m : Mem) (b off : Nat) (v : List Byte) : Mem × List MemEv :=
  if v.length = 32 then
    (putBlock { m with merge := m.merge.filter (fun e => decide (e.block ≠ b)) } b (BitVec.ofNat 256 (leNat v)), [])
  else narrowPut m b off v

/-- Write `v` from address `a`, block by block; `fuel` bounds the number of blocks. -/
def writeFrom : Nat → Mem → Nat → List Byte → Mem × List MemEv
  | 0, m, _, _ => (m, [])
  | fuel + 1, m, a, v =>
    match v with
    | [] => (m, [])
    | _ =>
      let n := 32 - a % 32
      let (m, evs) := writeOne m (a / 32) (a % 32) (v.take n)
      let (m, evs') := writeFrom fuel m (a + n) (v.drop n)
      (m, evs ++ evs')

/-- Write a byte range of a protected memory. -/
def memWrite (m : Mem) (a : Nat) (v : List Byte) : Mem × List MemEv :=
  writeFrom (v.length / 32 + 2) m a v

/-- The entries that a write has just taken are its writer's (R304). An entry that a later write joins stays its first
writer's: DESIGN CHOICE (log 89). -/
def memStamp (w : Option Writer) (m : Mem) : Mem :=
  { m with merge := m.merge.map fun e => match e.writer with
      | some _ => e
      | none => { e with writer := w } }

/-- Read a byte range: blocks with pending narrow writes are flushed first (R304), then every block passes the mending
stage, up to the first uncorrectable one: the range is then not delivered. -/
def memRead (m : Mem) (a n : Nat) : Mem × List Byte × List MemEv :=
  if n = 0 then (m, [], [])
  else
    let b0 := a / 32
    let b1 := (a + n - 1) / 32
    let (m, evs) := flushWhere (fun e => decide (b0 ≤ e.block) && decide (e.block ≤ b1)) m
    if m.syn = [] then (m, memBytes m a n, evs)
    else
      let r := (rangeFrom b0 (b1 + 1 - b0)).foldl
        (fun (acc : List (List Byte) × List MemEv) b =>
          if acc.2.any (fun e => e.bad && !e.flush) then acc
          else
            let (d, e) := readBlock m b false
            (leBytes 32 d.toNat :: acc.1, acc.2 ++ e)) ([], evs)
      (m, ((r.1.reverse.flatten).drop (a - 32 * b0)).take n, r.2)

/-- The contents after the code's data as a fill leaves them: zeros and right check words (R313). -/
def memEmpty : Mem := {}

/-- Keep only addresses below `lim`: what a partial self-refresh retains, the rest then reading as filled (R294,
R295). -/
def memKeepBelow (lim : Nat) (m : Mem) : Mem :=
  { bytes := m.bytes.filter (fun c => decide (c.1 < lim)),
    syn := m.syn.filter (fun c => decide (32 * c.1 < lim)), merge := [] }

/-- The canonical form of a memory: sorted maps without default entries, and a merge buffer of at most 16 entries. -/
def Mem.wf (m : Mem) : Bool :=
  smapWf 0 m.bytes && smapWf 0 m.syn && decide (m.merge.length ≤ 16)

/-- The tally of a byte range: the sum of its little-endian words modulo 2^64, padded with zeros (R252). -/
def tallyFrom : Nat → List Byte → Nat
  | 0, _ => 0
  | fuel + 1, l => match l with
    | [] => 0
    | _ => leNat (l.take 4) + tallyFrom fuel (l.drop 4)

def tally (l : List Byte) : BitVec 64 := BitVec.ofNat 64 (tallyFrom (l.length / 4 + 1) l)

end Sys2Proof.Machine
end

