-- ==== Sys2Proof/Machine/Memory.lean ====
section
/-!
DEFINITION. Machine/Memory.lean: the protected memories of the device by name: reads and writes with the counting and
reporting of stored-data errors, coalescing, the XG7200 bucket, retiring and blocking
(08_memory_and_stored_data.md R299 to R316).
-/
namespace Sys2Proof.Machine

def memGet (d : Device) : MemId → Mem
  | .hbm n => (stack d n).mem
  | .galley p => (press d p).galley
  | .case f => (forme d f).case
  | .xmem f => (forme d f).xmem
  | .ymem f => (forme d f).ymem
  | .imem f => (forme d f).imem

def memPut (id : MemId) (m : Mem) (d : Device) : Device :=
  match id with
  | .hbm n => modStack n (fun s => { s with mem := m }) d
  | .galley p => modPress p (fun x => { x with galley := m }) d
  | .case f => modForme f (fun x => { x with case := m }) d
  | .xmem f => modForme f (fun x => { x with xmem := m }) d
  | .ymem f => modForme f (fun x => { x with ymem := m }) d
  | .imem f => modForme f (fun x => { x with imem := m }) d

/-- The memory code, and the unit address of its errors (R316). -/
def memCode : MemId → Nat
  | .hbm _ => 0 | .galley _ => 1 | .case _ => 2 | .xmem _ => 3 | .ymem _ => 4 | .imem _ => 5

def memUnit : MemId → BitVec 32
  | .hbm n => unitStack n
  | .galley p => unitPress p
  | .case f => unitForme f
  | .xmem f => unitForme f
  | .ymem f => unitForme f
  | .imem f => unitForme f

/-- The address field of R316 of byte address `a` of the memory. -/
def memAddr (d : Device) (id : MemId) (a : Nat) : Nat :=
  match id with
  | .hbm n => hbmUnmap d.part n a
  | .ymem _ => 0x10000 + a
  | _ => a

/-- The pseudo-channel and bank fields of R316. -/
def memPc (id : MemId) (a : Nat) : Nat :=
  match id with
  | .hbm _ => a / 64 % 64
  | _ => 0xFF
def memBank (id : MemId) (a : Nat) : Nat :=
  match id with
  | .hbm _ => a / 0x10000 % 64
  | .galley _ => a / 0x10000
  | .case _ => a / 0x40000
  | _ => 0xFF

/-- The detail of an area 05h record (R316), about the block that holds byte `a`: requester codes are those of its byte 34. -/
def sdDetail (d : Device) (id : MemId) (a flags req attempts : Nat) (syn : BitVec 32) (count : Nat)
    (stream : Option (BitVec 12)) : BitVec 256 :=
  dput 32 (memCode id) <| dput 33 flags <| dput 34 req <| dput 35 attempts <| dput 36 syn.toNat <|
  dput 40 (memAddr d id (a / 32 * 32)) <| dput 48 count <| dput 52 ((stream.map BitVec.toNat).getD 0xFFFF) <|
  dput 54 (memPc id a) <| dput 55 (memBank id a) 0

/-- Flags of an event (R316): check bit only, flush read. -/
def evFlags (e : MemEv) : Nat := (if judgeSyndrome e.syn = .checkBit then 2 else 0) + 4 * b2n e.flush

def evDetail (d : Device) (id : MemId) (req : Nat) (stream : Option (BitVec 12)) (e : MemEv) : BitVec 256 :=
  sdDetail d id (32 * e.block) (evFlags e) req 0 e.syn 1 stream

/-! ## Counters and coalescing (R305, R307) -/

def countCe (id : MemId) (d : Device) : Device :=
  match id with
  | .hbm n => modStack n (fun s => { s with ce := satAdd s.ce 1 }) d
  | .galley p => modPress p (fun x => { x with sdCe := satAdd x.sdCe 1 }) d
  | .case f => modForme f (fun x => { x with sdCe := satAdd x.sdCe 1 }) d
  | .xmem f => modForme f (fun x => { x with sdCe := satAdd x.sdCe 1 }) d
  | .ymem f => modForme f (fun x => { x with sdCe := satAdd x.sdCe 1 }) d
  | .imem f => modForme f (fun x => { x with sdCe := satAdd x.sdCe 1 }) d

def countUe (id : MemId) (d : Device) : Device :=
  match id with
  | .hbm n => modStack n (fun s => { s with ue := satAdd s.ue 1 }) d
  | .galley p => modPress p (fun x => { x with sdUe := satAdd x.sdUe 1 }) d
  | .case f => modForme f (fun x => { x with sdUe := satAdd x.sdUe 1 }) d
  | .xmem f => modForme f (fun x => { x with sdUe := satAdd x.sdUe 1 }) d
  | .ymem f => modForme f (fun x => { x with sdUe := satAdd x.sdUe 1 }) d
  | .imem f => modForme f (fun x => { x with sdUe := satAdd x.sdUe 1 }) d

def coalGet (d : Device) : MemId → List CoalEntry
  | .hbm n => (stack d n).coal
  | .galley p => (press d p).coal
  | .case f => (forme d f).coal
  | .xmem f => (forme d f).coal
  | .ymem f => (forme d f).coal
  | .imem f => (forme d f).coal

def coalSet (id : MemId) (t : List CoalEntry) (d : Device) : Device :=
  match id with
  | .hbm n => modStack n (fun s => { s with coal := t }) d
  | .galley p => modPress p (fun x => { x with coal := t }) d
  | .case f => modForme f (fun x => { x with coal := t }) d
  | .xmem f => modForme f (fun x => { x with coal := t }) d
  | .ymem f => modForme f (fun x => { x with coal := t }) d
  | .imem f => modForme f (fun x => { x with coal := t }) d

/-- The memory of a coalescing entry: the table's own, with the entry's memory code. -/
def coalMem (id : MemId) (code : Nat) : MemId :=
  match id with
  | .case f | .xmem f | .ymem f | .imem f =>
    match code with
    | 2 => .case f | 3 => .xmem f | 4 => .ymem f | _ => .imem f
  | x => x

/-- The summary record of an expiring entry (R305). -/
def coalExpire (id : MemId) (e : CoalEntry) (d : Device) : Device :=
  if e.count = 0 then d
  else
    let m := coalMem id e.memory
    logPlain (memUnit m) 0x0501 (sdDetail d m e.addr 1 0xFF 0 0 e.count none) d

/-- A corrected error under the coalescing table (R305). -/
def coalesce (id : MemId) (req : Nat) (stream : Option (BitVec 12)) (e : MemEv) (d : Device) : Device :=
  let t := coalGet d id
  let a := 32 * e.block
  let code := memCode id
  if t.any (fun x => x.memory = code && x.addr = a) then
    coalSet id (modWhere (fun x => x.memory = code && x.addr = a) (fun x => { x with count := x.count + 1 }) t) d
  else
    let d := logPlain (memUnit id) 0x0501 (evDetail d id req stream e) d
    let d := if t.length < 16 then d else match t with
      | [] => d
      | x :: _ => coalExpire id x d
    let t := if t.length < 16 then t else t.drop 1
    coalSet id (t ++ [⟨code, a, 0, d.now⟩]) d

/-- A corrected error under the XG7200 bucket (R307). -/
def bucket (id : MemId) (req : Nat) (stream : Option (BitVec 12)) (e : MemEv) (d : Device) : Device :=
  let level := d.hbm.level.toNat + 1
  if d.hbm.threshold.toNat < level then
    logPlain (memUnit id) 0x0503 (evDetail d id req stream e)
      { d with hbm := { d.hbm with level := 0, overflow := true } }
  else { d with hbm := { d.hbm with level := BitVec.ofNat 16 level } }

/-- Note an access whose error goes to its writer. -/
def noteFail (f : AccessFail) (d : Device) : Device := modErrata (fun e => { e with failed := e.failed ++ [f] }) d

/-- Account for one event. The record of an uncorrectable one is written by who asked; that of a flush goes to the writer
(R304, R308). -/
def memEvent (id : MemId) (req : Nat) (stream : Option (BitVec 12)) (d : Device) (e : MemEv) : Device :=
  if e.bad then
    let d := countUe id d
    if e.flush then noteFail ⟨0x0510, id, 32 * e.block, evFlags e, 0, e.syn, e.writer, 5⟩ d else d
  else
    let d := countCe id d
    if d.hbm.bucketOn then bucket id req stream e d else coalesce id req stream e d

def memEvents (id : MemId) (req : Nat) (stream : Option (BitVec 12)) (evs : List MemEv) (d : Device) : Device :=
  evs.foldl (memEvent id req stream) d

/-- The uncorrectable event of the access itself. -/
def firstBad (evs : List MemEv) : Option MemEv := evs.find? fun e => e.bad && !e.flush

/-- A flush of what the task in `slot` wrote has failed. -/
def flushFailed (slot : Nat) (evs : List MemEv) : Bool := evs.any fun e => e.bad && e.writer.any (·.slot = slot)

/-! ## The queues of the pseudo-channels (R285, R287 to R289, R296)

What a read returns follows the order of arrival (R289), so that data move as a request arrives; the queues and the retry
buffers hold the order of issue. -/

/-- Pseudo-channel, bank and row of a column unit (R285). -/
def unitPc (u : Nat) : Nat := u % 64
def unitBank (u : Nat) : Nat := u / 1024 % 64
def unitRow (u : Nat) : Nat := u / 65536

def isWrite (c : RetryCmd) : Bool := c.old.isSome
def sameRow (a b : RetryCmd) : Bool := unitBank a.unit = unitBank b.unit && unitRow a.unit = unitRow b.unit

/-- The requests of one kind, oldest first, that free mode may issue; `seen` are those that arrived before. A write does not
pass an older read of its row. -/
def freeMode (writes : Bool) : List RetryCmd → List RetryCmd → List RetryCmd
  | _, [] => []
  | seen, c :: r =>
    let l := freeMode writes (c :: seen) r
    if isWrite c = writes && !(writes && seen.any fun k => !isWrite k && sameRow k c) then c :: l else l

/-- A queued write that is older than a queued read addresses the read's row. -/
def writeBefore : List RetryCmd → Bool
  | [] => false
  | c :: r => (isWrite c && r.any fun k => !isWrite k && sameRow k c) || writeBefore r

/-- The request that a bank list issues next: in in-order mode its oldest, in free mode the oldest that hits the open row, else
the oldest. -/
def bankPick (q : PcQueue) (writes : Bool) (b : Nat) : Option RetryCmd :=
  let l := q.waiting.filter fun c => unitBank c.unit = b
  if q.inOrder.contains b then l.head?
  else
    let e := freeMode writes [] l
    (e.find? fun c => q.rows.contains (b, unitRow c.unit)).orElse fun _ => e.head?

/-- A queue issues writes: a batch of them is in progress, 24 are held, or no read waits. -/
def writePhase (q : PcQueue) : Bool :=
  decide (q.batch ≠ 0) || decide (24 ≤ (q.waiting.filter isWrite).length) || q.waiting.all isWrite

/-- The next request of a queue (R288). Two choices of the model's: a batch issues the writes that were waiting when it began,
and of several bank lists the one whose oldest request came first goes first (DESIGN CHOICE, log 34). -/
def queueNext (q : PcQueue) : Option RetryCmd :=
  let phase := writePhase q
  let banks := (q.waiting.map fun c => unitBank c.unit).eraseDups
  (banks.findSome? (bankPick q phase)).orElse fun _ => banks.findSome? (bankPick q !phase)

/-- A queue after it has issued a request. A write that in-order mode issues out of its time opens no batch. -/
def queueIssued (q : PcQueue) (c : RetryCmd) : PcQueue :=
  let b := unitBank c.unit
  let ws := (q.waiting.filter isWrite).length
  let l := q.waiting.erase c
  { waiting := l, rows := (b, unitRow c.unit) :: q.rows.filter (·.1 ≠ b),
    inOrder := q.inOrder.filter fun k => writeBefore (l.filter fun c => unitBank c.unit = k),
    batch := if isWrite c && writePhase q then (if q.batch = 0 then ws else q.batch) - 1 else q.batch }

/-- A queue after a request has arrived: a read whose row an older queued write addresses puts its bank list in in-order mode. -/
def queueArrive (q : PcQueue) (c : RetryCmd) : PcQueue :=
  let b := unitBank c.unit
  { q with waiting := q.waiting ++ [c],
           inOrder := if !isWrite c && q.waiting.any (fun k => isWrite k && sameRow k c) && !q.inOrder.contains b
                      then b :: q.inOrder else q.inOrder }

/-- Issue what waits in a queue: the queue, and the commands in order of issue. -/
def queueIssue : Nat → PcQueue → PcQueue × List RetryCmd
  | 0, q => (q, [])
  | n + 1, q =>
    match queueNext q with
    | none => (q, [])
    | some c => let (k, l) := queueIssue n (queueIssued q c); (k, c :: l)

/-- The bus of a pseudo-channel issues nothing: a replay or a retraining is in progress (R296, R298). -/
def busStopped (s : Stack) (pc : Nat) : Bool := let b := vgetN {} s.buses (pc / 2); b.active || b.training

/-- A stack issues what waits for a pseudo-channel; the bus's retry buffer keeps the last 64 commands. -/
def stackIssue (pc : Nat) (s : Stack) : Stack :=
  if busStopped s pc then s
  else
    let q := vgetN {} s.queues pc
    let (q, l) := queueIssue q.waiting.length q
    { s with queues := vmodN s.queues pc fun _ => q,
             buses := vmodN s.buses (pc / 2) fun b => let r := b.retry ++ l; { b with retry := r.drop (r.length - 64) } }

/-- A request enters its queue, and what may issue does. -/
def stackCommand (c : RetryCmd) (s : Stack) : Stack :=
  let pc := unitPc c.unit
  stackIssue pc { s with queues := vmodN s.queues pc fun q => queueArrive q c }

/-- The column units of a range of a stack. -/
def unitsOf (a n : Nat) : List Nat := if n = 0 then [] else rangeFrom (a / 64) ((a + n - 1) / 64 + 1 - a / 64)

/-- The bytes of a column unit. -/
def unitBytes (m : Mem) (unit : Nat) : BitVec 512 := BitVec.ofNat 512 (leNat (memBytes m (64 * unit) 64))

/-- The column units of a range of which a write fills at least one whole block; what it writes of other blocks goes through the
merge buffer (R303). -/
def wholeUnits (a n : Nat) : List Nat :=
  (unitsOf a n).filter fun u =>
    (decide (a ≤ 64 * u) && decide (64 * u + 32 ≤ a + n)) || (decide (a ≤ 64 * u + 32) && decide (64 * u + 64 ≤ a + n))

/-- One request of a column unit enters its queue. -/
def unitCommand (u : Nat) (write : Bool) (who : Option Writer) (req : Nat) (s : Stack) : Stack :=
  stackCommand { unit := u, old := if write then some (unitBytes s.mem u) else none, who := who, req := req } s

/-- The flush of an entry of a stack's merge buffer: a read of the stored block, unless the entry is full, and the write,
unless the block is bad (R304). -/
def flushCommands (full : MergeEntry → Bool) (req : Nat) (s : Stack) (e : MergeEntry) : Stack :=
  let u := e.block / 2
  if full e then unitCommand u true e.writer req s
  else
    let s := unitCommand u false e.writer req s
    if judgeSyndrome (smapGet 0 s.mem.syn e.block) = .bad then s else unitCommand u true e.writer req s

/-- An access to an HBM memory enters the queues of its column units; a read comes after the flushes that it causes. -/
def noteHbm (id : MemId) (a n : Nat) (write : Bool) (req : Nat) (who : Option Writer) (d : Device) : Device :=
  match id with
  | .hbm k => modStack k (fun s =>
      if write then (wholeUnits a n).foldl (fun s u => unitCommand u true who req s) s
      else
        let es := s.mem.merge.filter fun e => decide (a / 32 ≤ e.block) && decide (32 * e.block < a + n)
        (unitsOf a n).foldl (fun s u => unitCommand u false who req s) (es.foldl (flushCommands (fun _ => false) req) s)) d
  | _ => d

/-- The flushes that took a stack's merge buffer from what it holds to that of `m` enter the queues; a write of `n` bytes from
`a` caused them, and overwrites the blocks that lie in it. -/
def noteFlushes (id : MemId) (a n : Nat) (m : Mem) (req : Nat) (d : Device) : Device :=
  let gone := (memGet d id).merge.filter fun e => !(m.merge.any fun x => x.block = e.block)
    && !(decide (a ≤ 32 * e.block) && decide (32 * e.block + 32 ≤ a + n))
  let joined (e : MergeEntry) : Bool := decide (a < 32 * e.block + 32) && decide (32 * e.block < a + n)
  match id with
  | .hbm k => gone.foldl (fun d e => modStack k (fun s => flushCommands joined req s e) d) d
  | _ => d

/-- The buses of some unit of the range issue nothing now, so that an access of more than one unit waits. -/
def hbmHeld (d : Device) (id : MemId) (a n : Nat) : Bool :=
  match id with
  | .hbm k => (unitsOf a n).any fun u => busStopped (stack d k) (unitPc u)
  | _ => false

/-- Every bus issues: a read or a write of many granules goes on (R296). -/
def busesIssue (d : Device) : Bool := d.hbmStacks.all fun s => s.buses.all fun b => !b.active && !b.training

/-! ## Accesses -/

/-- Read a range: the device, the bytes, and the first uncorrectable event. -/
def readMem (id : MemId) (a n req : Nat) (stream : Option (BitVec 12)) (d : Device) :
    Device × List Byte × Option MemEv :=
  let (m, v, evs) := memRead (memGet d id) a n
  (memEvents id req stream evs (memPut id m d), v, firstBad evs)

/-- Write a range for a writer. A flush that it causes and that fails is its own writer's error. -/
def writeMem (id : MemId) (a : Nat) (v : List Byte) (req : Nat) (stream : Option (BitVec 12)) (w : Option Writer)
    (d : Device) : Device :=
  let (m, evs) := memWrite (memGet d id) a v
  let d := noteFlushes id a v.length m req (noteHbm id a v.length true req w d)
  memEvents id req stream evs (memPut id (memStamp w m) d)

/-- Flush a merge buffer; the answer is true where something that the task in `slot` wrote could not be written. -/
def flushMem (id : MemId) (req slot : Nat) (d : Device) : Device × Bool :=
  let (m, evs) := flushAll (memGet d id)
  (memEvents id req none evs (memPut id m (noteFlushes id 0 0 m req d)), flushFailed slot evs)

/-- The access touches a blocked bank (R311). -/
def memBlocked (d : Device) (id : MemId) (a n : Nat) : Bool :=
  let hit {w : Nat} (mask : BitVec w) (sh : Nat) : Bool :=
    mask ≠ 0 && n ≠ 0 && (rangeFrom (a / 2 ^ sh) ((a + n - 1) / 2 ^ sh + 1 - a / 2 ^ sh)).any mask.getLsbD
  match id with
  | .galley p => hit (press d p).block 16
  | .case f => hit (forme d f).block 18
  | _ => false

/-! ## Device HBM addresses -/

/-- The range touches a retired granule (R310). -/
def hbmRetired (d : Device) (a n : Nat) : Bool :=
  d.hbm.retire.any fun e => bit e.2 31 &&
    (let g := fieldN e.2 26 0
     decide (a / 4096 ≤ g) && decide (g ≤ (a + n - 1) / 4096))

/-- The first address of a range that lies in a retired granule (R316). -/
def retiredAt (d : Device) (a n : Nat) : Nat :=
  match (rangeFrom (a / 4096) ((a + n - 1) / 4096 + 1 - a / 4096)).find? fun g => hbmRetired d (4096 * g) 4096 with
  | some g => max a (4096 * g)
  | none => a

/-- Cut a range at 4 KiB boundaries; `fuel` bounds the pieces. -/
def granules : Nat → Nat → Nat → List (Nat × Nat)
  | 0, _, _ => []
  | fuel + 1, a, n =>
    if n = 0 then []
    else
      let k := min n (4096 - a % 4096)
      (a, k) :: granules fuel (a + k) (n - k)

/-- A read of device HBM enters the queues of its stacks. -/
def noteRead (a n req : Nat) (who : Option Writer) (d : Device) : Device :=
  (granules (n / 4096 + 2) a n).foldl (fun d ak =>
    let (st, l) := hbmMap d.part ak.1
    noteHbm (.hbm st) l ak.2 false req who d) d

/-- An access to device HBM waits for a bus. -/
def hbmWaits (d : Device) (a n : Nat) : Bool :=
  (granules (n / 4096 + 2) a n).any fun ak =>
    let (st, l) := hbmMap d.part ak.1
    hbmHeld d (.hbm st) l ak.2

/-- Read device HBM, as far as the first uncorrectable error: the device, the bytes, and that error with its memory. -/
def readHbm (a n req : Nat) (stream : Option (BitVec 12)) (d : Device) :
    Device × List Byte × Option (MemId × MemEv) :=
  (granules (n / 4096 + 2) a n).foldl (fun (s : Device × List Byte × Option (MemId × MemEv)) (ak : Nat × Nat) =>
    if s.2.2.isSome then s
    else
      let (st, l) := hbmMap s.1.part ak.1
      let id := MemId.hbm st
      let (d, v, bad) := readMem id l ak.2 req stream s.1
      (d, s.2.1 ++ v, bad.map fun e => (id, e))) (d, [], none)

/-- Write device HBM. -/
def writeHbm (a : Nat) (v : List Byte) (req : Nat) (stream : Option (BitVec 12)) (w : Option Writer) (d : Device) : Device :=
  ((granules (v.length / 4096 + 2) a v.length).foldl
    (fun (s : Device × List Byte) (ak : Nat × Nat) =>
      let (st, l) := hbmMap s.1.part ak.1
      (writeMem (.hbm st) l (s.2.take ak.2) req stream w s.1, s.2.drop ak.2)) (d, v)).1

/-- Every present stack is Ready (R314). -/
def stacksReady (d : Device) : Bool :=
  (List.range 8).all fun n => !stackPresent d.part n || (stack d n).state = .ready

end Sys2Proof.Machine
end

