-- ==== Sys2Proof/Machine/Endpoints.lean ====
section
/-!
DEFINITION. Machine/Endpoints.lean: the endpoints of the chase, its route tables, and the header that its switches follow
(07_galleys_and_chase.md R245 to R247, R265 to R268).
-/
namespace Sys2Proof.Machine

/-! ## Endpoints (R245) -/

inductive Ep where
  | galley (p : Nat)
  | case (f : Nat)
  | comp (f : Nat)
  | hbm (n : Nat)
  | hbmAddr
  | quad (q : Nat)
  | region (r : Nat)
  | host
  | engine (die : Nat)
  | reserved
  deriving DecidableEq, Repr

def epOf (n : Nat) : Ep :=
  if n < 0x80 then .galley n
  else if n < 0x90 then .case (n - 0x80)
  else if n < 0xA0 then .comp (n - 0x90)
  else if n < 0xA8 then .hbm (n - 0xA0)
  else if n = 0xA8 then .hbmAddr
  else if n < 0xB0 then .reserved
  else if n < 0xC8 then .quad (n - 0xB0)
  else if n < 0xE0 then .region (n - 0xC8)
  else if n = 0xE0 then .host
  else if n < 0xE3 then .engine (n - 0xE1)
  else .reserved

/-- A transfer may name the endpoint (R246). -/
def epNameable : Ep → Bool
  | .galley _ | .case _ | .comp _ | .hbmAddr | .quad _ | .region _ | .host => true
  | _ => false

/-- The endpoint's unit is present (R3). -/
def epPresent (d : Device) : Ep → Bool
  | .hbm n => stackPresent d.part n
  | .quad q => quadPresent d.part q
  | .reserved => false
  | _ => true

/-- Bytes of the endpoint's memory (R245, R408, R474). -/
def epBytes (d : Device) : Ep → Nat
  | .galley _ => 0x200000
  | .case _ => 0x1000000
  | .comp _ => 0x20000
  | .hbmAddr => hbmBytes d.part
  | .quad _ | .region _ | .host => 0x10000000000
  | _ => 0

/-- The forme of a galley, case or compositor endpoint. -/
def epForme : Ep → Option Nat
  | .galley p => some (p / 8)
  | .case f => some f
  | .comp f => some f
  | _ => none

/-- Local to press `p` (R247). -/
def epLocal (p : Nat) : Ep → Bool
  | .galley q => q = p
  | .case f => f = p / 8
  | .comp f => f = p / 8
  | _ => false

/-- The power domain of the endpoint (R5). -/
def epDomain : Ep → Option Nat
  | .galley p => some p
  | .case f => some (128 + f)
  | .comp f => some (128 + f)
  | .hbm n => some (144 + n)
  | .quad q => some (152 + q)
  | .region r => some (176 + r)
  | .host => some 200
  | _ => none

/-- The endpoint's network interface has power. -/
def epAwake (d : Device) (e : Ep) : Bool :=
  epPresent d e && (match epDomain e with | some n => domainOn d n | none => true)

/-- Die of an endpoint (R4). -/
def epDie : Ep → Nat
  | .galley p => p / 64
  | .case f => f / 8
  | .comp f => f / 8
  | .hbm n => n / 4
  | .quad q => q / 12
  | .region r => r / 12
  | .engine x => x
  | _ => 0

/-- The unit address of an endpoint, as the unit that detects an error (R15, R269). -/
def epUnitAddr : Ep → BitVec 32
  | .galley p => unitPress p
  | .case f => unitForme f
  | .comp f => unitForme f
  | .hbm n => unitStack n
  | .hbmAddr => unitStack 0
  | .quad q => unitQuad q
  | .region r => unitRegion r
  | .engine x => unitSwitch (.die (if x = 0 then 0 else 1))
  | _ => unitHost

/-- The protected memory behind an endpoint address, and the address in it. -/
def epMem (d : Device) (e : Ep) (a : Nat) : Option (MemId × Nat) :=
  match e with
  | .galley p => some (.galley p, a)
  | .case f => some (.case f, a)
  | .comp f => some (if a < 0x10000 then (.xmem f, a) else (.ymem f, a - 0x10000))
  | .hbm _ | .hbmAddr => let (n, l) := hbmMap d.part a; some (.hbm n, l)
  | _ => none

/-- A range of an endpoint's addresses, cut where X memory ends and Y memory begins (R245). -/
def epSplit (e : Ep) (a n : Nat) : List (Nat × Nat) :=
  match e with
  | .comp _ => if a < 0x10000 ∧ 0x10000 < a + n then [(a, 0x10000 - a), (0x10000, a + n - 0x10000)] else [(a, n)]
  | _ => [(a, n)]

/-! ## Route tables (R266, R267) -/

/-- The port of a die switch (R266). -/
def diePort : Ep → Nat
  | .galley p => p / 8 % 8
  | .case f => f % 8
  | .comp f => f % 8
  | .hbm n => 8 + n % 4
  | .quad q => 12 + q % 12
  | .region r => 24 + r % 12
  | .host => 36
  | _ => 37

/-- The port of a forme switch (R266). -/
def formePort : Ep → Nat
  | .galley p => p % 8
  | .comp _ => 8
  | .case _ => 9
  | _ => 0

/-- The level at which the path between two endpoints turns down: 1 forme, 2 die, 3 root. -/
def turnLevel (a b : Ep) : Nat :=
  if epForme a ≠ none ∧ epForme a = epForme b then 1 else if epDie a = epDie b then 2 else 3

/-- An endpoint that has a network interface. -/
def epHasNi (d : Device) (e : Ep) : Bool := e ≠ .hbmAddr && epPresent d e

/-- Entry `dst` of the route table of endpoint `ni` (R267). The ports of switches that the path does not go down through
are zero. -/
def routeEntry (d : Device) (ni dst : Nat) : Word :=
  let a := epOf ni
  let b := epOf dst
  if d.chase.routed && epHasNi d a && epHasNi d b then
    let up := turnLevel a b
    place 32 31 31 1 ||| place 32 30 29 up ||| place 32 28 28 (if up = 3 then epDie b else 0)
      ||| place 32 27 22 (if 2 ≤ up then diePort b else 0) ||| place 32 21 18 (formePort b)
  else 0

/-- The route from one endpoint to another is valid. -/
def routeValid (d : Device) (ni dst : Nat) : Bool := bit (routeEntry d ni dst) 31

/-! ## Headers and switches (R268) -/

/-- The message is the last flit of its chunk, or no DATA. -/
def lastFlit (m : ChaseMsg) : Bool := m.type ≠ 3 || decide (m.len ≤ 64 * (m.flit + 1))

/-- Even parity over bits 63 to 1 of a header: bit 0. -/
def headerParity (h : BitVec 64) : Nat := countBits h % 2

/-- The 64-bit header of a message: its route is the entry of its source's table for its destination. -/
def chaseHeader (d : Device) (m : ChaseMsg) : BitVec 64 :=
  let e := routeEntry d m.src m.dst
  let h : BitVec 64 := place 64 63 61 m.type ||| place 64 60 51 m.dst ||| place 64 50 41 m.src ||| place 64 40 39 (fieldN e 30 29)
    ||| place 64 38 28 (fieldN e 28 18) ||| place 64 27 16 m.tag.toNat ||| place 64 15 10 m.flit ||| place 64 9 9 (b2n (lastFlit m))
  h ||| place 64 0 0 (headerParity h)

/-- Where a switch of a level sends a flit that arrives from below: upward (none), or down through a port of its own. -/
def switchSends (level : Nat) (h : BitVec 64) : Option Nat :=
  if level < fieldN h 40 39 then none
  else some (match level with | 1 => fieldN h 31 28 | 2 => fieldN h 37 32 | _ => fieldN h 38 38)

/-- The endpoint below port `fport` of a forme switch. -/
def formeEndpoint (f fport : Nat) : Nat := if fport < 8 then 8 * f + fport else if fport = 8 then 0x90 + f else 0x80 + f

/-- The endpoint below port `dport` of a die switch. -/
def dieEndpoint (die dport fport : Nat) : Nat :=
  if dport < 8 then formeEndpoint (8 * die + dport) fport
  else if dport < 12 then 0xA0 + 4 * die + (dport - 8)
  else if dport < 24 then 0xB0 + 12 * die + (dport - 12)
  else if dport < 36 then 0xC8 + 12 * die + (dport - 24)
  else if dport = 36 then 0xE0 else 0xE1 + die

/-- The endpoint that a header leads to from endpoint `src`: up to its level, then down the ports it names. -/
def headerLeads (src : Nat) (h : BitVec 64) : Nat :=
  let fport := fieldN h 31 28
  match fieldN h 40 39 with
  | 1 => formeEndpoint ((epForme (epOf src)).getD 0) fport
  | 2 => dieEndpoint (epDie (epOf src)) (fieldN h 37 32) fport
  | _ => dieEndpoint (fieldN h 38 38) (fieldN h 37 32) fport

end Sys2Proof.Machine
end

