-- ==== Sys2Proof/Machine/Crypto.lean ====
section
/-!
DEFINITION. Machine/Crypto.lean: the public algorithms that the spec names: SHA-512, HMAC, the RSASSA-PSS check of
RFC 8017 (12_configuration.md R427), AES-256-GCM (R429), and the CRCs of R22, R340 and R434. What needs a secret key is
in Config.
-/
namespace Sys2Proof.Machine

/-! ## CRCs -/

/-- One bit into a CRC register of `n` bits, most significant bit first. -/
def crcBit (n : Nat) (poly : BitVec n) (c : BitVec n) (b : Bool) : BitVec n :=
  let top := c.getMsbD 0
  let c' := c <<< 1
  if top != b then c' ^^^ poly else c'

/-- The bits of a list of bytes, each most significant bit first. -/
def msbBits (l : List Byte) : List Bool := (l.map fun b => (List.range 8).map fun i => b.getLsbD (7 - i)).flatten

/-- CRC-16, polynomial 1021h, initial value 0FFFFh (R22). -/
def crc16 (bits : List Bool) : BitVec 16 := bits.foldl (crcBit 16 0x1021#16) 0xFFFF#16

/-- CRC-64 of ECMA-182, initial value 0 (R434). -/
def crc64 (l : List Byte) : BitVec 64 := (msbBits l).foldl (crcBit 64 0x42F0E1EBA9EA3693#64) 0#64

/-- CRC-32 of IEEE 802.3: reflected, initial value 0FFFFFFFFh, final inversion (R340). -/
def crc32 (l : List Byte) : BitVec 32 :=
  let step (c : BitVec 32) (b : Byte) : BitVec 32 :=
    (List.range 8).foldl (fun (c : BitVec 32) _ => if c.getLsbD 0 then (c >>> 1) ^^^ 0xEDB88320#32 else c >>> 1)
      (c ^^^ b.zeroExtend 32)
  ~~~ (l.foldl step 0xFFFFFFFF#32)

/-! ## SHA-512 -/

/-- The round constants of SHA-512. -/
def shaK : List (BitVec 64) :=
  [0x428A2F98D728AE22, 0x7137449123EF65CD, 0xB5C0FBCFEC4D3B2F, 0xE9B5DBA58189DBBC,
   0x3956C25BF348B538, 0x59F111F1B605D019, 0x923F82A4AF194F9B, 0xAB1C5ED5DA6D8118,
   0xD807AA98A3030242, 0x12835B0145706FBE, 0x243185BE4EE4B28C, 0x550C7DC3D5FFB4E2,
   0x72BE5D74F27B896F, 0x80DEB1FE3B1696B1, 0x9BDC06A725C71235, 0xC19BF174CF692694] ++
  [0xE49B69C19EF14AD2, 0xEFBE4786384F25E3, 0x0FC19DC68B8CD5B5, 0x240CA1CC77AC9C65,
   0x2DE92C6F592B0275, 0x4A7484AA6EA6E483, 0x5CB0A9DCBD41FBD4, 0x76F988DA831153B5,
   0x983E5152EE66DFAB, 0xA831C66D2DB43210, 0xB00327C898FB213F, 0xBF597FC7BEEF0EE4,
   0xC6E00BF33DA88FC2, 0xD5A79147930AA725, 0x06CA6351E003826F, 0x142929670A0E6E70] ++
  [0x27B70A8546D22FFC, 0x2E1B21385C26C926, 0x4D2C6DFC5AC42AED, 0x53380D139D95B3DF,
   0x650A73548BAF63DE, 0x766A0ABB3C77B2A8, 0x81C2C92E47EDAEE6, 0x92722C851482353B,
   0xA2BFE8A14CF10364, 0xA81A664BBC423001, 0xC24B8B70D0F89791, 0xC76C51A30654BE30,
   0xD192E819D6EF5218, 0xD69906245565A910, 0xF40E35855771202A, 0x106AA07032BBD1B8] ++
  [0x19A4C116B8D2D0C8, 0x1E376C085141AB53, 0x2748774CDF8EEB99, 0x34B0BCB5E19B48A8,
   0x391C0CB3C5C95A63, 0x4ED8AA4AE3418ACB, 0x5B9CCA4F7763E373, 0x682E6FF3D6B2B8A3,
   0x748F82EE5DEFB2FC, 0x78A5636F43172F60, 0x84C87814A1F0AB72, 0x8CC702081A6439EC,
   0x90BEFFFA23631E28, 0xA4506CEBDE82BDE9, 0xBEF9A3F7B2C67915, 0xC67178F2E372532B] ++
  [0xCA273ECEEA26619C, 0xD186B8C721C0C207, 0xEADA7DD6CDE0EB1E, 0xF57D4F7FEE6ED178,
   0x06F067AA72176FBA, 0x0A637DC5A2C898A6, 0x113F9804BEF90DAE, 0x1B710B35131C471B,
   0x28DB77F523047D84, 0x32CAAB7B40C72493, 0x3C9EBE0A15C9BEBC, 0x431D67C49C100D4C,
   0x4CC5D4BECB3E42B6, 0x597F299CFC657E2A, 0x5FCB6FAB3AD6FAEC, 0x6C44198C4A475817]

/-- The initial hash value of SHA-512. -/
def shaH : List (BitVec 64) :=
  [0x6A09E667F3BCC908, 0xBB67AE8584CAA73B, 0x3C6EF372FE94F82B, 0xA54FF53A5F1D36F1,
   0x510E527FADE682D1, 0x9B05688C2B3E6C1F, 0x1F83D9ABFB41BD6B, 0x5BE0CD19137E2179]

def shaCh (e f g : BitVec 64) : BitVec 64 := (e &&& f) ^^^ (~~~e &&& g)
def shaMaj (a b c : BitVec 64) : BitVec 64 := (a &&& b) ^^^ (a &&& c) ^^^ (b &&& c)
def shaS0 (x : BitVec 64) : BitVec 64 := x.rotateRight 28 ^^^ x.rotateRight 34 ^^^ x.rotateRight 39
def shaS1 (x : BitVec 64) : BitVec 64 := x.rotateRight 14 ^^^ x.rotateRight 18 ^^^ x.rotateRight 41
def shaT0 (x : BitVec 64) : BitVec 64 := x.rotateRight 1 ^^^ x.rotateRight 8 ^^^ (x >>> 7)
def shaT1 (x : BitVec 64) : BitVec 64 := x.rotateRight 19 ^^^ x.rotateRight 61 ^^^ (x >>> 6)

/-- The working variables. -/
structure ShaVars where
  a : BitVec 64
  b : BitVec 64
  c : BitVec 64
  d : BitVec 64
  e : BitVec 64
  f : BitVec 64
  g : BitVec 64
  h : BitVec 64

/-- One round; `w` is the window of the next 16 schedule words. -/
def shaRound (s : ShaVars × List (BitVec 64)) (k : BitVec 64) : ShaVars × List (BitVec 64) :=
  let v := s.1
  let w := s.2
  let w0 := w.getD 0 0
  let t1 := v.h + shaS1 v.e + shaCh v.e v.f v.g + k + w0
  let t2 := shaS0 v.a + shaMaj v.a v.b v.c
  let nw := shaT1 (w.getD 14 0) + w.getD 9 0 + shaT0 (w.getD 1 0) + w0
  (⟨t1 + t2, v.a, v.b, v.c, v.d + t1, v.e, v.f, v.g⟩, w.drop 1 ++ [nw])

/-- Words of 8 bytes, most significant byte first. -/
def beWords : Nat → List Byte → List (BitVec 64)
  | 0, _ => []
  | n + 1, l => BitVec.ofNat 64 (beNat (l.take 8)) :: beWords n (l.drop 8)

/-- One block of 128 bytes into the hash state. -/
def shaBlock (h : List (BitVec 64)) (blk : List Byte) : List (BitVec 64) :=
  let g (i : Nat) : BitVec 64 := h.getD i 0
  let v : ShaVars := ⟨g 0, g 1, g 2, g 3, g 4, g 5, g 6, g 7⟩
  let r := (shaK.foldl shaRound (v, beWords 16 blk)).1
  [g 0 + r.a, g 1 + r.b, g 2 + r.c, g 3 + r.d, g 4 + r.e, g 5 + r.f, g 6 + r.g, g 7 + r.h]

def shaBlocks : Nat → List (BitVec 64) → List Byte → List (BitVec 64)
  | 0, h, _ => h
  | n + 1, h, l => shaBlocks n (shaBlock h (l.take 128)) (l.drop 128)

/-- SHA-512, 64 bytes in order. -/
def sha512 (m : List Byte) : List Byte :=
  let n := m.length
  let padded := (n + 17 + 127) / 128 * 128
  let full := m ++ [0x80#8] ++ bytesOf (padded - n - 17) 0 ++ beBytes 16 (8 * n)
  ((shaBlocks (padded / 128) shaH full).map fun w => beBytes 8 w.toNat).flatten

/-- HMAC with SHA-512. -/
def hmac512 (key m : List Byte) : List Byte :=
  let k := if key.length > 128 then sha512 key else key
  let k := k ++ bytesOf (128 - k.length) 0
  sha512 (k.map (· ^^^ 0x5C#8) ++ sha512 (k.map (· ^^^ 0x36#8) ++ m))

/-! ## RSASSA-PSS (RFC 8017), SHA-512, MGF1 with SHA-512, 64 bytes of salt (R427) -/

/-- b ^ e modulo n by repeated squaring over `fuel` bits of e. -/
def powMod : Nat → Nat → Nat → Nat → Nat
  | 0, _, _, n => 1 % n
  | fuel + 1, b, e, n =>
    let r := powMod fuel (b * b % n) (e / 2) n
    if e % 2 = 1 then b * r % n else r

/-- MGF1. -/
def mgf1 (seed : List Byte) (len : Nat) : List Byte :=
  (((List.range ((len + 63) / 64)).map fun c => sha512 (seed ++ beBytes 4 c)).flatten).take len

def xorBytes (a b : List Byte) : List Byte := (a.zip b).map fun x => x.1 ^^^ x.2

/-- The signature `sig` over `m` verifies under the key. -/
def pssVerify (modulus exponent : Nat) (m sig : List Byte) : Bool :=
  if modulus < 2 then false
  else
    let emBits := Nat.log2 modulus
    let emLen := (emBits + 7) / 8
    let s := beNat sig
    let v := powMod 32 (s % modulus) exponent modulus
    let em := beBytes emLen v
    let dbLen := emLen - 65
    let masked := em.take dbLen
    let h := (em.drop dbLen).take 64
    let spare := 8 * emLen - emBits
    let db := xorBytes masked (mgf1 h dbLen)
    let db := match db with
      | [] => []
      | b :: r => BitVec.ofNat 8 (b.toNat % 2 ^ (8 - spare)) :: r
    let pad := dbLen - 65
    decide (s < modulus) && decide (130 ≤ emLen) && decide (v < 2 ^ (8 * emLen))
      && (em.getLast? == some 0xBC#8)
      && decide ((nth 0 masked 0).toNat / 2 ^ (8 - spare) = 0)
      && (db.take pad).all (· == 0#8) && (nth 0 db pad == 1#8)
      && (h == sha512 (bytesOf 8 0 ++ sha512 m ++ db.drop (pad + 1)))

/-- The signature over `m` under modulus `n` and private exponent `d`, with a salt of 64 bytes. -/
def pssSign (n d : Nat) (m salt : List Byte) : List Byte :=
  let emBits := Nat.log2 n
  let emLen := (emBits + 7) / 8
  let dbLen := emLen - 65
  let h := sha512 (bytesOf 8 0 ++ sha512 m ++ salt)
  let masked := xorBytes (bytesOf (dbLen - 65) 0 ++ [1#8] ++ salt) (mgf1 h dbLen)
  let masked := match masked with
    | [] => []
    | b :: r => BitVec.ofNat 8 (b.toNat % 2 ^ (8 - (8 * emLen - emBits))) :: r
  beBytes 512 (powMod 4096 (beNat (masked ++ h ++ [0xBC#8])) d n)

/-- The plaintext of an RSAES-OAEP ciphertext of 512 bytes, with SHA-512, MGF1 with SHA-512 and an empty label; none where it does not
decode (R562). -/
def oaepDecrypt (n d : Nat) (c : List Byte) : Option (List Byte) :=
  let em := beBytes 512 (powMod 4096 (beNat c) d n)
  let masked := em.drop 65
  let seed := xorBytes ((em.drop 1).take 64) (mgf1 masked 64)
  let db := xorBytes masked (mgf1 seed masked.length)
  if c.length ≠ 512 || n ≤ beNat c || nth 0 em 0 ≠ 0 || db.take 64 ≠ sha512 [] then none
  else match (db.drop 64).dropWhile (· == 0#8) with
    | b :: r => if b = 1#8 then some r else none
    | [] => none

/-- Euclid's algorithm, with the coefficients of the second argument; `fuel` bounds the divisions. -/
def euclid : Nat → Nat → Nat → Int → Int → Int
  | 0, _, _, t, _ => t
  | fuel + 1, r, s, t, u => if s = 0 then t else euclid fuel s (r % s) u (t - (r / s : Nat) * u)

/-- The inverse of `e` modulo `m`. -/
def invMod (e m : Nat) : Nat := (euclid 8192 m (e % m) 0 1 % (m : Int)).toNat

/-! ## HMAC_DRBG of NIST SP 800-90A, with SHA-512 (R558) -/

/-- One update of the state (K, V) with data. -/
def drbgUpdate (s : List Byte × List Byte) (data : List Byte) : List Byte × List Byte :=
  let k := hmac512 s.1 (s.2 ++ [0#8] ++ data)
  let v := hmac512 k s.2
  if data = [] then (k, v)
  else
    let k := hmac512 k (v ++ [1#8] ++ data)
    (k, hmac512 k v)

/-- The state that seed material gives. -/
def drbgSeed (material : List Byte) : List Byte × List Byte := drbgUpdate (bytesOf 64 0, bytesOf 64 1) material

/-! ## AES-256 and GCM -/

/-- The AES substitution table. -/
def aesBox : List Byte :=
  [0x63, 0x7C, 0x77, 0x7B, 0xF2, 0x6B, 0x6F, 0xC5, 0x30, 0x01, 0x67, 0x2B, 0xFE, 0xD7, 0xAB, 0x76,
   0xCA, 0x82, 0xC9, 0x7D, 0xFA, 0x59, 0x47, 0xF0, 0xAD, 0xD4, 0xA2, 0xAF, 0x9C, 0xA4, 0x72, 0xC0,
   0xB7, 0xFD, 0x93, 0x26, 0x36, 0x3F, 0xF7, 0xCC, 0x34, 0xA5, 0xE5, 0xF1, 0x71, 0xD8, 0x31, 0x15,
   0x04, 0xC7, 0x23, 0xC3, 0x18, 0x96, 0x05, 0x9A, 0x07, 0x12, 0x80, 0xE2, 0xEB, 0x27, 0xB2, 0x75] ++
  [0x09, 0x83, 0x2C, 0x1A, 0x1B, 0x6E, 0x5A, 0xA0, 0x52, 0x3B, 0xD6, 0xB3, 0x29, 0xE3, 0x2F, 0x84,
   0x53, 0xD1, 0x00, 0xED, 0x20, 0xFC, 0xB1, 0x5B, 0x6A, 0xCB, 0xBE, 0x39, 0x4A, 0x4C, 0x58, 0xCF,
   0xD0, 0xEF, 0xAA, 0xFB, 0x43, 0x4D, 0x33, 0x85, 0x45, 0xF9, 0x02, 0x7F, 0x50, 0x3C, 0x9F, 0xA8,
   0x51, 0xA3, 0x40, 0x8F, 0x92, 0x9D, 0x38, 0xF5, 0xBC, 0xB6, 0xDA, 0x21, 0x10, 0xFF, 0xF3, 0xD2] ++
  [0xCD, 0x0C, 0x13, 0xEC, 0x5F, 0x97, 0x44, 0x17, 0xC4, 0xA7, 0x7E, 0x3D, 0x64, 0x5D, 0x19, 0x73,
   0x60, 0x81, 0x4F, 0xDC, 0x22, 0x2A, 0x90, 0x88, 0x46, 0xEE, 0xB8, 0x14, 0xDE, 0x5E, 0x0B, 0xDB,
   0xE0, 0x32, 0x3A, 0x0A, 0x49, 0x06, 0x24, 0x5C, 0xC2, 0xD3, 0xAC, 0x62, 0x91, 0x95, 0xE4, 0x79,
   0xE7, 0xC8, 0x37, 0x6D, 0x8D, 0xD5, 0x4E, 0xA9, 0x6C, 0x56, 0xF4, 0xEA, 0x65, 0x7A, 0xAE, 0x08] ++
  [0xBA, 0x78, 0x25, 0x2E, 0x1C, 0xA6, 0xB4, 0xC6, 0xE8, 0xDD, 0x74, 0x1F, 0x4B, 0xBD, 0x8B, 0x8A,
   0x70, 0x3E, 0xB5, 0x66, 0x48, 0x03, 0xF6, 0x0E, 0x61, 0x35, 0x57, 0xB9, 0x86, 0xC1, 0x1D, 0x9E,
   0xE1, 0xF8, 0x98, 0x11, 0x69, 0xD9, 0x8E, 0x94, 0x9B, 0x1E, 0x87, 0xE9, 0xCE, 0x55, 0x28, 0xDF,
   0x8C, 0xA1, 0x89, 0x0D, 0xBF, 0xE6, 0x42, 0x68, 0x41, 0x99, 0x2D, 0x0F, 0xB0, 0x54, 0xBB, 0x16]

def aesSub (b : Byte) : Byte := aesBox.getD b.toNat 0

/-- Times x in the field of AES. -/
def aesTimes (b : Byte) : Byte := if b.getLsbD 7 then (b <<< 1) ^^^ 0x1B#8 else b <<< 1

/-- Round constants as they are needed. -/
def aesRcon : List Byte := [1, 2, 4, 8, 16, 32, 64]

/-- The next 32 bytes of the key schedule of a 256-bit key. -/
def aesNext (k : List Byte) (rc : Byte) : List Byte :=
  let wd (i : Nat) : List Byte := (k.drop (4 * i)).take 4
  let rot (l : List Byte) : List Byte := l.drop 1 ++ l.take 1
  let t := (rot (wd 7)).map aesSub
  let t := match t with
    | [] => []
    | b :: r => (b ^^^ rc) :: r
  let w0 := xorBytes (wd 0) t
  let w1 := xorBytes (wd 1) w0
  let w2 := xorBytes (wd 2) w1
  let w3 := xorBytes (wd 3) w2
  let w4 := xorBytes (wd 4) (w3.map aesSub)
  let w5 := xorBytes (wd 5) w4
  let w6 := xorBytes (wd 6) w5
  let w7 := xorBytes (wd 7) w6
  w0 ++ w1 ++ w2 ++ w3 ++ w4 ++ w5 ++ w6 ++ w7

/-- The expanded key: 256 bytes, of which 240 are used. -/
def aesExpand (k : List Byte) : List Byte :=
  (aesRcon.foldl (fun (a : List Byte × List Byte) rc =>
    let n := aesNext a.1 rc
    (n, a.2 ++ n)) (k, k)).2

def aesMix (c : List Byte) : List Byte :=
  let g (i : Nat) : Byte := c.getD (i % 4) 0
  (List.range 4).map fun i => aesTimes (g i) ^^^ aesTimes (g (i + 1)) ^^^ g (i + 1) ^^^ g (i + 2) ^^^ g (i + 3)

/-- ShiftRows on 16 bytes, column by column. -/
def aesShift (s : List Byte) : List Byte :=
  (List.range 16).map fun i => s.getD ((i + 4 * (i % 4)) % 16) 0

/-- Encrypt one block under an expanded key. -/
def aesBlock (w s : List Byte) : List Byte :=
  let rk (r : Nat) : List Byte := (w.drop (16 * r)).take 16
  let s := xorBytes s (rk 0)
  let s := (List.range 13).foldl (fun s r =>
    let t := aesShift (s.map aesSub)
    xorBytes (((List.range 4).map fun c => aesMix ((t.drop (4 * c)).take 4)).flatten) (rk (r + 1))) s
  xorBytes (aesShift (s.map aesSub)) (rk 14)

/-- Multiplication in the field of GCM; bit 0 is the most significant bit of the number. -/
def gcmMul (x y : BitVec 128) : BitVec 128 :=
  ((List.range 128).foldl (fun (a : BitVec 128 × BitVec 128) i =>
    let z := if x.getMsbD i then a.1 ^^^ a.2 else a.1
    let v := if a.2.getLsbD 0 then (a.2 >>> 1) ^^^ (0xE1#128 <<< 120) else a.2 >>> 1
    (z, v)) (0, y)).1

/-- GHASH over whole blocks; the last one is padded with zeros. -/
def ghash (h : BitVec 128) : Nat → BitVec 128 → List Byte → BitVec 128
  | 0, y, _ => y
  | n + 1, y, l =>
    let b := l.take 16
    let b := b ++ bytesOf (16 - b.length) 0
    ghash h n (gcmMul (y ^^^ BitVec.ofNat 128 (beNat b)) h) (l.drop 16)

def blocks16 (l : List Byte) : Nat := (l.length + 15) / 16

/-- The key stream of GCM from block `first` (0 for the first ciphertext block), for a nonce of 12 bytes. -/
def gcmStream (w nonce : List Byte) (first n : Nat) : List Byte :=
  ((List.range n).map fun i => aesBlock w (nonce ++ beBytes 4 (first + i + 2))).flatten

/-- Decrypt (or encrypt) `l`, whose first byte lies at byte offset `off` (a multiple of 16) of the ciphertext. -/
def gcmCrypt (key nonce : List Byte) (off : Nat) (l : List Byte) : List Byte :=
  xorBytes l (gcmStream (aesExpand key) nonce (off / 16) (blocks16 l))

/-- The tag of GCM over additional data and ciphertext. -/
def gcmTag (key nonce aad cipher : List Byte) : List Byte :=
  let w := aesExpand key
  let h := BitVec.ofNat 128 (beNat (aesBlock w (bytesOf 16 0)))
  let y := ghash h (blocks16 aad) 0 aad
  let y := ghash h (blocks16 cipher) y cipher
  let y := gcmMul (y ^^^ BitVec.ofNat 128 (8 * aad.length * 2 ^ 64 + 8 * cipher.length)) h
  xorBytes (beBytes 16 y.toNat) (aesBlock w (nonce ++ beBytes 4 1))

end Sys2Proof.Machine
end

