-- ==== Sys2Proof/Machine/Wire.lean ====
section
/-!
DEFINITION. Machine/Wire.lean: what a Forron lane carries (09_forron_link.md R327 to R332, R337, R340): blocks, superframes and
their codewords, LANE_MARKs, the block stream of a port, flits as bytes and as blocks, and the PRBS31 pattern.
-/
namespace Sys2Proof.Machine

/-! ## Blocks (R327) -/

/-- A block of 130 bits in order of sending: the header at bits 0 and 1, payload bit i at bit i + 2. -/
abbrev Block := BitVec 130

def blockHeader (b : Block) : Nat := fieldN b 1 0
def blockPayload (b : Block) : BitVec 128 := field b 129 2
def dataBlock (v : BitVec 128) : Block := v ++ (1#2)
def controlBlock (v : BitVec 128) : Block := v ++ (2#2)

/-- A header is valid. -/
def headerOk (h : Nat) : Bool := h = 1 || h = 2

/-- The invalid ones among 64 headers, header i at bits 2i + 1 and 2i. -/
def badHeaders (h : BitVec 128) : Nat := ((List.range 64).filter fun i => !headerOk (fieldN h (2 * i + 1) (2 * i))).length

/-- The type of a control block. -/
def controlType (v : BitVec 128) : Nat := fieldN v 127 120

/-! ## LANE_MARK and superframes (R328) -/

def laneMark (lane width count : Nat) : BitVec 128 :=
  place 128 127 120 1 ||| place 128 119 116 lane ||| place 128 115 112 width ||| place 128 111 96 (count % 65536)

/-- Where message bit `m` of a superframe lies: its codeword and its place there. -/
def messageHome (m : Nat) : Nat × Nat := (m / 5140, m % 5140)

/-- The wire bit of the superframe that carries message bit `m`. -/
def wireBit (m : Nat) : Nat := 5440 * (m / 5140) + m % 5140

/-- The 66,820 message bits of a superframe of 514 blocks. -/
def superframeMessage (l : List Block) : Nat := (l.mapIdx fun j b => b.toNat * 2 ^ (130 * j)).foldl (· + ·) 0

/-- Multiply in the field of 1,024 elements of the code, of which x^10 + x^3 + 1 is zero. -/
def gfMulFrom : Nat → Nat → Nat → Nat → Nat
  | 0, _, _, acc => acc
  | n + 1, a, b, acc =>
    let acc := if b % 2 = 1 then acc ^^^ a else acc
    let a := if 512 ≤ a then (2 * a) ^^^ 0x409 else 2 * a
    gfMulFrom n a (b / 2) acc

def gfMul (a b : Nat) : Nat := gfMulFrom 10 a b 0

/-- The powers of the element x, from the 0th. -/
def gfPowers : Nat → Nat → List Nat
  | 0, _ => []
  | n + 1, a => a :: gfPowers n (gfMul a 2)

/-- A polynomial, highest power first, times x + r. -/
def polyTimes (p : List Nat) (r : Nat) : List Nat := List.zipWith (· ^^^ ·) (p ++ [0]) (0 :: p.map (gfMul r))

/-- The generator polynomial of RS(544,514), highest power first: its roots are the first 30 powers of x. PRESUMED (log 90): R326
and R328 name the code of Clause 91 of IEEE 802.3, which gives the field and the roots. -/
def rsGenerator : List Nat := (gfPowers 30 1).foldl polyTimes [1]

/-- The 30 parity symbols of 514 message symbols. -/
def rsParity (msg : List Nat) : List Nat :=
  msg.foldl (fun (s : List Nat) m =>
    let f := m ^^^ s.headD 0
    List.zipWith (fun a g => a ^^^ gfMul f g) (s.drop 1 ++ [0]) (rsGenerator.drop 1)) (List.replicate 30 0)

/-- The symbols of 5,140 message bits, the first bits first; a symbol's first bit is its lowest (PRESUMED, log 90). -/
def messageSymbols (m : Nat) : List Nat := (List.range 514).map fun i => m / 2 ^ (10 * i) % 1024

/-- Codeword `c` of a superframe: 5,140 message bits, then 300 parity bits. -/
def superframeCodeword (msg c : Nat) : Nat :=
  let m := msg / 2 ^ (5140 * c) % 2 ^ 5140
  m + 2 ^ 5140 * ((rsParity (messageSymbols m)).mapIdx fun i s => s * 2 ^ (10 * i)).foldl (· + ·) 0

/-- The 70,720 wire bits of a superframe, first bit lowest. -/
def superframeWire (l : List Block) : Nat :=
  ((List.range 13).map fun c => superframeCodeword (superframeMessage l) c * 2 ^ (5440 * c)).foldl (· + ·) 0

/-! ## The block stream of a port (R331) -/

/-- Where block `k` of the stream of a port of `width` lanes goes: the lane, the superframe, and the block within it. Block 0 of
every superframe is a LANE_MARK. -/
def streamPlace (width k : Nat) : Nat × Nat × Nat := (k % width, k / width / 513, 1 + k / width % 513)

/-- The place in the stream, from the superframe's first block on, of traffic block `j` of a lane. -/
def streamIndex (width lane j : Nat) : Nat := width * (j - 1) + lane

/-- The 514 blocks of a lane in superframe `n`, of the stream that its port has sent in it (R328, R331). -/
def laneBlocks (width lane n : Nat) (stream : List Block) : List Block :=
  controlBlock (laneMark lane width n)
    :: (List.range 513).map fun j => stream.getD (streamIndex width lane (j + 1)) 0

/-- The bit time at which superframe 0 of a lane would have begun, its mark with this count having come at `time`, modulo 65,536
superframes (R331). -/
def laneOrigin (time count : Nat) : Nat := (time + 65536 * 70720 - 70720 * (count % 65536)) % (65536 * 70720)

/-- How far apart two lanes are that would have begun at these bit times (R331). -/
def laneApart (a b : Nat) : Nat :=
  let k := (a + 65536 * 70720 - b) % (65536 * 70720)
  min k (65536 * 70720 - k)

/-! ## Flits (R337, R340) -/

/-- A flit of a link header and bytes 12 to 251, with its CRC. -/
def flitBytes (h : BitVec 96) (body : List Byte) : List Byte :=
  let l := leBytes 12 h.toNat ++ body
  l ++ leBytes 4 (crc32 l).toNat

/-- The 16 data blocks of a flit: byte 16j + b in payload bits 8b + 7 to 8b of block j. -/
def flitBlocks (l : List Byte) : List Block :=
  (List.range 16).map fun j => dataBlock (BitVec.ofNat 128 (leNat ((l.drop (16 * j)).take 16)))

/-! ## PRBS (R332) -/

/-- The next bit of PRBS31 after 31 bits, the latest at bit 0: polynomial x^31 + x^28 + 1. -/
def prbs31Next (s : BitVec 31) : BitVec 31 := (s <<< 1) ||| BitVec.ofNat 31 (b2n (Bool.xor (bit s 30) (bit s 27)))

/-- What a lane counts of the bits it has received, an error marked true: every error after 64 bits in a row without one. The
bits without error so far, at most 64, go in and out. -/
def prbsCount : List Bool → Nat → Nat × Nat
  | [], n => (n, 0)
  | e :: r, n =>
    if 64 ≤ n then let (k, c) := prbsCount r n; (k, c + b2n e)
    else prbsCount r (if e then 0 else n + 1)

end Sys2Proof.Machine
end

