-- ==== Sys2Proof/Machine/Links.lean ====
section
/-!
DEFINITION. Machine/Links.lean: ports, flits and the sending side of the Forron link layer
(09_forron_link.md R323, R324, R333 to R344), and routing (R348, R356 to R360).
-/
namespace Sys2Proof.Machine

/-! ## Ports (R323, R324) -/

/-- Quad `q` is the upper half of a bonded port. -/
def isUpper (d : Device) (q : Nat) : Bool :=
  q % 2 = 1 && (quad d (q - 1)).bond && (quad d q).mode = 1 && (quad d (q - 1)).mode = 1

/-- Quad `q` is the lower half of a bonded port. -/
def isBonded (d : Device) (q : Nat) : Bool :=
  q % 2 = 0 && (quad d q).bond && (quad d q).mode = 1 && (quad d (q + 1)).mode = 1

/-- The lower quad of the port that quad `q` belongs to. -/
def portOf (d : Device) (q : Nat) : Nat := if isUpper d q then q - 1 else q

/-- The width of port `q` (its lower quad): 4 or 8 lanes. -/
def portWidth (d : Device) (q : Nat) : Nat := if isBonded d q then 8 else 4

/-- The quads of port `q`. -/
def portQuads (d : Device) (q : Nat) : List Nat := if isBonded d q then [q, q + 1] else [q]

def portUp (d : Device) (q : Nat) : Bool := (quad d q).mode = 1 && (quad d q).state = .up && !isUpper d q

/-! ## Routing (R348, R356 to R360) -/

/-- A transport address of this part. -/
def ownAddr (d : Device) (ep : Nat) : BitVec 27 :=
  BitVec.ofNat 27 (2 ^ 19 * d.forron.quire.toNat + 2 ^ 10 * d.forron.device.toNat + ep)

def addrQuire (a : BitVec 27) : Nat := fieldN a 26 19
def addrDevice (a : BitVec 27) : Nat := fieldN a 18 10
def addrEp (a : BitVec 27) : Nat := fieldN a 9 0

/-- The address names this part. -/
def addrOwn (d : Device) (a : BitVec 27) : Bool :=
  addrQuire a = d.forron.quire.toNat && addrDevice a = d.forron.device.toNat

/-- The index of a route entry for an address (R356, R357). -/
def routeIndex (d : Device) (a : BitVec 27) : Nat :=
  if addrQuire a ≠ d.forron.quire.toNat then addrQuire a else 256 + addrDevice a

/-- The port that a valid entry gives to chunk number `k`; none for no valid entry (R356, R357). -/
def entryPort (e : Word) (k : Nat) : Option Nat :=
  if !bit e 31 then none
  else match k % (fieldN e 30 29 + 1) with
    | 0 => some (fieldN e 28 24)
    | 1 => some (fieldN e 23 19)
    | 2 => some (fieldN e 18 14)
    | _ => some (fieldN e 13 9)

/-- The port for a message that die `die` originates (R357, R360). -/
def originPort (d : Device) (die : Nat) (a : BitVec 27) (k : Nat) : Option Nat :=
  entryPort (smapGet 0 (vgetN [] d.forron.oroutes die) (routeIndex d a)) k

/-- The ports of the group that a valid entry gives. -/
def entryPorts (e : Word) : List Nat :=
  if bit e 31 then [fieldN e 28 24, fieldN e 23 19, fieldN e 18 14, fieldN e 13 9].take (fieldN e 30 29 + 1) else []

def originPorts (d : Device) (die : Nat) (a : BitVec 27) : List Nat :=
  entryPorts (smapGet 0 (vgetN [] d.forron.oroutes die) (routeIndex d a))

/-- The port for a transit message that arrived at quad `q`. -/
def transitPort (d : Device) (q : Nat) (a : BitVec 27) (k : Nat) : Option Nat :=
  entryPort (smapGet 0 (quad d q).routes (routeIndex d a)) k

/-- A route entry may be stored: every port of its group is present, not an upper half, and below 24 (R359, R360). -/
def routeOk (d : Device) (e : Word) : Bool :=
  ([fieldN e 28 24, fieldN e 23 19, fieldN e 18 14, fieldN e 13 9].take (fieldN e 30 29 + 1)).all
    fun p => quadPresent d.part p && !isUpper d p

/-! ## Collectives' descriptors and windows (R362, R364) -/

/-- An endpoint number of a sequence engine (R348). -/
def engineEp (ep : Nat) : Bool := ep = 0xE1 || ep = 0xE2

def colOp (c : Collective) : Nat := fieldN c.desc 251 250
def colRing (c : Collective) : Nat := fieldN c.desc 249 246
def colNum (c : Collective) : Nat := fieldN c.desc 245 242
def colEp (c : Collective) : Nat := fieldN c.desc 241 232
def colStream (c : Collective) : BitVec 12 := field c.desc 231 220
def colElems (c : Collective) : Nat := fieldN c.desc 195 168
def colBase (c : Collective) : Nat := fieldN c.desc 167 128

/-- The step that a message names: the all-gather of an all-reduce counts from 0 again (R363, R364). -/
def colWire (c : Collective) (t : Nat) : Nat := if colOp c = 2 && c.n - 1 ≤ t then t - (c.n - 1) else t

/-- The ticket's window of a collective is open on the die's engine (R39, R364). -/
def colOpen (d : Device) (die : Nat) (c : Collective) : Bool := openWindow d c.entry.slot 3 3 die (colNum c)

/-! ## Chunks of this part's senders and receivers (R349, R352, R364) -/

def faWindow (b : BitVec 256) : Nat := fieldN b 227 224

/-- The transfer window is open on every quad of a port (R352). -/
def portWindow (d : Device) (slot w port : Nat) : Bool := (portQuads d port).all fun q => openWindow d slot 2 2 q w

/-- The chunk of a Forron transfer that an address and a tag of this part name. -/
def findFtx (d : Device) (p : Nat) (tag : BitVec 12) : Option (Nat × FTransfer × TxChunk) :=
  if 128 ≤ p then none
  else
    (((press d p).ftransfers.mapIdx fun i t => (i, t)).findSome? fun it =>
      (it.2.chunks.find? (·.tag = tag)).map fun c => (it.1, it.2, c))

/-- The engine that an endpoint names, its collective and the chunk of a tag. -/
def findEtx (d : Device) (ep : Nat) (tag : BitVec 12) : Option (Nat × Collective × Nat × TxChunk) :=
  if engineEp ep then
    match vgetN none d.forron.engines (ep - 0xE1) with
    | none => none
    | some c => (c.sent.find? (fun s => s.2.2.tag = tag)).map fun s => (ep - 0xE1, c, s.1, s.2.2)
  else none

/-- The engine that a chunk is for. -/
def frxDie (x : FRx) : Option Nat :=
  if engineEp (addrEp x.dst) then some (addrEp x.dst - 0xE1) else none

/-- A message of this part waits for its window: the RESERVE of a transfer for its XFER_WINDOW on every quad of the port, the
RESERVE or DATA of an engine for its COLLECTIVE_WINDOW (R352, R364). -/
def heldBack (d : Device) (q : Nat) (m : FMsg) : Bool :=
  match findFtx d (addrEp m.src) m.tag with
  | some (_, t, _) => m.mtype = 1 && !portWindow d t.entry.slot (faWindow t.desc) q
  | none => match findEtx d (addrEp m.src) m.tag with
    | some (die, c, _, _) => (m.mtype = 1 || m.mtype = 3) && !colOpen d die c
    | none => false

/-! ## Messages and flits (R337 to R350) -/

/-- Bytes 12 to 251 of the flit of a message. -/
def fmsgBytes (m : FMsg) : List Byte :=
  leBytes 1 (16 * m.mtype + 8 * b2n m.last + 4 * b2n m.marker + fieldN m.resv 1 0) ++ leBytes 1 m.index
    ++ leBytes 2 (m.tag.toNat + 4096 * fieldN m.resv 5 2) ++ leBytes 4 (m.src.toNat + 2 ^ 27 * fieldN m.resv 10 6)
    ++ leBytes 4 (m.dst.toNat + 2 ^ 27 * fieldN m.resv 15 11) ++ leBytes 2 m.sinc.toNat ++ leBytes 2 m.pinc.toNat
    ++ m.payload ++ bytesOf (224 - m.payload.length) 0

/-- The message in a flit's bytes, and whether its type and its reserved fields are in order (R349, R350). -/
def fmsgOf (l : List Byte) : FMsg × Bool :=
  let b0 := leAt l 12 1
  let m : FMsg :=
    { mtype := b0 / 16, last := b0 / 8 % 2 = 1, marker := b0 / 4 % 2 = 1, index := leAt l 13 1,
      tag := BitVec.ofNat 12 (leAt l 14 2), src := BitVec.ofNat 27 (leAt l 16 4),
      dst := BitVec.ofNat 27 (leAt l 20 4), sinc := BitVec.ofNat 16 (leAt l 24 2),
      pinc := BitVec.ofNat 16 (leAt l 26 2), payload := (l.drop 28).take 224,
      resv := place 16 1 0 (b0 % 4) ||| place 16 5 2 (leAt l 14 2 / 4096) ||| place 16 10 6 (leAt l 16 4 / 2 ^ 27)
        ||| place 16 15 11 (leAt l 20 4 / 2 ^ 27) }
  let z (off n : Nat) : Bool := ((m.payload.drop (off - 28)).take n).all (· == 0#8)
  let payloadOk : Bool := match m.mtype with
    | 1 => m.pinc = 0 && leAt l 30 1 / 32 = 0 && z 31 1 && z 52 200 && (engineEp (leAt l 20 4 % 1024) || z 46 6)
    | 2 => leAt l 28 1 ≤ 1 && z 30 2 && z 46 206
    | 3 => true
    | 4 => leAt l 28 1 ≤ 2 && z 29 3 && z 46 206
    | 5 => z 28 12 && z 46 206
    | _ => false
  let ok := m.resv = 0 && (m.mtype = 3 || (m.index = 0 && !m.last)) && payloadOk
  (m, ok)

/-- The class of a message: DATA travels in the data class (R350). -/
def fmsgData (m : FMsg) : Bool := m.mtype = 3

/-- The address that a message travels to: src for GRANT and RECEIPT, dst otherwise (R349). -/
def fmsgTo (m : FMsg) : BitVec 27 := if m.mtype = 2 || m.mtype = 4 then m.src else m.dst

/-- A link header (R338). -/
def linkHeader (msg data : Bool) (seq ackseq : BitVec 12) (ackt crCtl crData : Nat) (sinc dinc : BitVec 16) :
    BitVec 96 :=
  place 96 95 94 (b2n msg) ||| place 96 93 93 (b2n data) ||| place 96 92 81 seq.toNat ||| place 96 80 69 ackseq.toNat
    ||| place 96 68 67 ackt ||| place 96 66 63 crCtl ||| place 96 62 59 crData ||| place 96 31 16 sinc.toNat
    ||| place 96 15 0 dinc.toNat

/-- The header of the next flit that port `q` sends, which takes the ack and up to 15 credits of each class. -/
def takeHeader (q : Nat) (msg data : Bool) (seq : BitVec 12) (d : Device) : BitVec 96 × Device :=
  let x := quad d q
  let c := min 15 x.retCtl
  let e := min 15 x.retData
  let ackt := if x.nakDue then 2 else if x.anyAcc then 1 else 0
  (linkHeader msg data seq (x.expSeq - 1) ackt c e d.forron.inc x.peerInc,
   modQuad q (fun x => { x with retCtl := x.retCtl - c, retData := x.retData - e, nakDue := false }) d)

/-- The LANE_MARKs with which the lanes of port `p` begin superframe `n` (R328). -/
def sendMarks (p n : Nat) (d : Device) : Device :=
  let w := portWidth d p
  (List.range w).foldl (fun d k => emit (.laneMark p k (laneMark k w n)) d) d

/-- Blocks go into the block stream of port `p`; once they fill a superframe of its lanes, it leaves with its codewords and the
next begins (R328, R331). -/
def sendBlocks (p : Nat) (l : List Block) (d : Device) : Device :=
  let d := modQuad p (fun x => { x with stream := x.stream ++ l }) d
  let x := quad d p
  let w := portWidth d p
  if x.stream.length < 513 * w then d
  else
    let d := (List.range w).foldl (fun d k =>
      emit (.superframe p k (BitVec.ofNat 70720 (superframeWire (laneBlocks w k x.frames x.stream)))) d) d
    sendMarks p (x.frames + 1) (modQuad p (fun x => { x with stream := x.stream.drop (513 * w), frames := x.frames + 1 }) d)

/-- A flit leaves, with its CRC, as 16 data blocks (R337, R340); a NULL flit carries its header only. -/
def emitFlit (q : Nat) (h : BitVec 96) (m : Option FMsg) (d : Device) : Device :=
  let l := flitBlocks (flitBytes h (match m with | some m => fmsgBytes m | none => bytesOf 240 0))
  sendBlocks q l (emit (.flit q h m l) d)

/-- Send a NULL flit (R339). -/
def sendNull (q : Nat) (d : Device) : Device :=
  let (h, d) := takeHeader q false false 0 d
  emitFlit q h none d

/-- Port `q` has something to tell in a link header: a NAK or credits (R338). -/
def portOwes (d : Device) (q : Nat) : Bool :=
  let x := quad d q
  portUp d q && (x.nakDue || x.retCtl ≠ 0 || x.retData ≠ 0)

/-- Send NULL flits until no port that is Up owes its partner anything (R339, R342): of 64 flits, a header returns 15. -/
def payDebts (d : Device) : Device :=
  (List.range 24).foldl (fun d q => (List.range 5).foldl (fun d _ => if portOwes d q then sendNull q d else d) d) d

/-- A flit leaves the receive buffer of port `q`: its credit is to be returned (R342). -/
def returnCredit (q : Nat) (data : Bool) (d : Device) : Device :=
  modQuad q (fun x => if data then { x with retData := x.retData + 1 } else { x with retCtl := x.retCtl + 1 }) d

/-- Press Time at which retry_timeout will have passed, as FL_CTRL has it now; 0 acts as 1 (R343, R371, R372). -/
def ackDue (d : Device) : Nat := d.now + max 1 d.forron.retryTimeout.toNat

/-- Send one flit of the retry buffer again (R343). -/
def resendOne (q : Nat) (d : Device) (f : HeldFlit) : Device :=
  let (h, d) := takeHeader q true f.data f.seq d
  emitFlit q h (some f.msg) d

/-- The first waiting message of port `q` whose class has a credit and that no window holds back. -/
def pickSend (d : Device) (q : Nat) : Option Nat :=
  let x := quad d q
  findIdx? (fun (m : Option Nat × FMsg) =>
    (if fmsgData m.2 then x.credData ≠ 0 else x.credCtl ≠ 0) && (m.1.isSome || !heldBack d q m.2)) x.waitSend

/-- Send waiting messages while the port is Up, credits last and the retry buffer has room (R342, R343). -/
def pumpPort : Nat → Nat → Device → Device
  | 0, _, d => d
  | n + 1, q, d =>
    let x := quad d q
    if portUp d q && x.retryBuf.length < 512 then
      match pickSend d q with
      | none => d
      | some i =>
        let e := nth (none, ⟨0, false, false, 0, 0, 0, 0, 0, 0, [], 0, 0⟩) x.waitSend i
        let m := e.2
        let data := fmsgData m
        let seq := x.nextSeq
        let due := ackDue d
        let d := modQuad q (fun x =>
          { x with waitSend := removeAt x.waitSend i, nextSeq := x.nextSeq + 1,
                   retryBuf := x.retryBuf ++ [⟨seq, data, m⟩], ackBy := if x.retryBuf = [] then due else x.ackBy,
                   credCtl := if data then x.credCtl else x.credCtl - 1,
                   credData := if data then x.credData - 1 else x.credData }) d
        let d := match e.1 with
          | some a => returnCredit a data d
          | none => d
        let (h, d) := takeHeader q true data seq d
        pumpPort n q (emitFlit q h (some m) d)
    else d

/-- Queue a message at a port: transit messages, with their ports of arrival, before those of this part (R346), and send what
can go. A transit message keeps its place in the receive buffer until it leaves (R342). -/
def sendAt (q : Nat) (transit : Option Nat) (m : FMsg) (d : Device) : Device :=
  let d := modQuad q (fun x =>
    { x with waitSend :=
        if transit.isSome then x.waitSend.filter (·.1.isSome) ++ [(transit, m)] ++ x.waitSend.filter (·.1.isNone)
        else x.waitSend ++ [(none, m)] }) d
  pumpPort 1024 q d

/-- Resend every held flit in order; the round counts (R343). -/
def resendAll (q : Nat) (d : Device) : Device :=
  let due := ackDue d
  let d := modQuad q (fun x => { x with retry := satAdd x.retry 1, rounds := x.rounds + 1, ackBy := due }) d
  (quad d q).retryBuf.foldl (resendOne q) d

/-! ## Records of area 04h (R367) -/

/-- The detail of R367. -/
structure FlDetail where
  stream  : Nat := 0xFFFF
  port    : Nat := 0xFF
  flags   : Nat := 0
  partner : Nat := 0
  held    : Nat := 0
  seen    : Nat := 0
  tag     : Nat := 0xFFFF
  chunk   : Nat := 0
  state   : Nat := 0xFF
  mtype   : Nat := 0
  seq     : Nat := 0
  coll    : Nat := 0
  cause   : Nat := 0
  step    : Nat := 0
  deriving DecidableEq, Repr

def flDetail (x : FlDetail) : BitVec 256 :=
  dput 32 x.stream <| dput 34 x.port <| dput 35 x.flags <| dput 36 x.partner <| dput 40 x.held <|
  dput 42 x.seen <| dput 44 x.tag <| dput 46 x.chunk <| dput 50 x.state <| dput 51 x.mtype <| dput 52 x.seq <|
  dput 54 x.coll <| dput 55 x.cause <| dput 56 x.step 0

/-- What the part has seen of the partner at port `q` in an event of the link: bytes 34 to 43 of R367. -/
def flSeen (d : Device) (q : Nat) (x : FlDetail) : FlDetail :=
  let y := quad d q
  { x with port := q, partner := 2 ^ 19 * fieldN y.partner 30 23 + 2 ^ 10 * fieldN y.partner 22 14,
           held := y.peerInc.toNat, seen := 0, flags := 2 * b2n y.sawStale + 4 * b2n y.sawNew }

/-- The same for something that began when the port had this retraining count and partner incarnation. -/
def flDuring (d : Device) (q : Nat) (start : Word × BitVec 16) (x : FlDetail) : FlDetail :=
  let y := quad d q
  { (flSeen d q x) with held := start.2.toNat, seen := y.peerInc.toNat,
                        flags := b2n (y.retrainCount ≠ start.1) + 2 * b2n y.sawStale + 4 * b2n (y.peerInc ≠ start.2) }

/-- The retraining counts and partner incarnations of the ports now, for R367. -/
def linksNow (d : Device) : List (Word × BitVec 16) := d.quads.toList.map fun x => (x.retrainCount, x.peerInc)

/-- The chunk number of a message; none in a DATA message (R350). -/
def chunkOf (m : FMsg) : Nat := if m.mtype = 3 then 0 else leAt m.payload 14 4

/-- What the part knows of the chunk of a message: stream, chunk number, collective and step (R350, R364, R367). A DATA message
names none of them: they are its chunk's, where that is known here. -/
def msgChunk (d : Device) (m : FMsg) : Nat × Nat × Nat × Nat :=
  let named := if m.mtype = 3 then 0xFFFF else leAt m.payload 12 2 % 4096
  if m.mtype = 1 then (named, chunkOf m, leAt m.payload 18 1, leAt m.payload 20 4)
  else if m.mtype = 2 || m.mtype = 4 then
    match findEtx d (addrEp m.src) m.tag with
    | some (_, c, step, _) => (named, chunkOf m, 16 * colRing c + colNum c, colWire c step)
    | none => (named, chunkOf m, 0, 0)
  else match d.forron.rx.find? (fun x => x.src = m.src && x.tag = m.tag) with
    | some x => (x.stream.toNat, x.chunk, leAt x.coll 0 1, leAt x.coll 2 4)
    | none =>
      let k := (d.forron.transit.find? fun e => e.1 = m.src && e.2.1 = m.tag).map fun e => e.2.2
      (named, if m.mtype = 3 then k.getD 0 else chunkOf m, 0, 0)

/-- A record of the transport about message `m` that arrived at port `q` (R367); `partner` is what the record names. -/
def logMsgOf (partner : BitVec 27) (q : Nat) (code : BitVec 16) (m : FMsg) (d : Device) : Device :=
  let k := msgChunk d m
  logPlain (unitQuad q) code (flDetail
    { (flSeen d q {}) with stream := k.1, partner := partner.toNat, seen := m.sinc.toNat, tag := m.tag.toNat,
                           chunk := k.2.1, mtype := m.mtype, seq := m.lseq.toNat, coll := k.2.2.1, step := k.2.2.2 }) d

/-- A transit message is dropped: the record names where it was going, and its credit goes back (R342, R358, R367). -/
def dropTransit (q : Nat) (m : FMsg) (d : Device) : Device :=
  logMsgOf (fmsgTo m) q 0x0414 m (returnCredit q (fmsgData m) d)

/-- The receive buffer of port `p` is lost, and with it every message that has not left it (R335, R342, R525). -/
def dropReceived (p : Nat) (d : Device) : Device :=
  modForron (fun f => { f with inbox := f.inbox.filter (·.1 ≠ p) })
    { d with quads := d.quads.map fun x => { x with waitSend := x.waitSend.filter (·.1 ≠ some p) } }

/-- What waits at a port to be sent is lost: the transit messages are dropped (R358, R525). -/
def dropSending (l : List (Option Nat × FMsg)) (d : Device) : Device :=
  l.foldl (fun d e => match e.1 with | some a => dropTransit a e.2 d | none => d) d

/-! ## Sending by the route tables (R349, R357) -/

/-- Send a message of this part by the origin table of `die`, as part of chunk `k`; false where no route is valid. -/
def originate (die k : Nat) (m : FMsg) (d : Device) : Device × Bool :=
  match originPort d die (fmsgTo m) k with
  | none => (d, false)
  | some q => (sendAt q none m d, true)

end Sys2Proof.Machine
end

