-- ==== Sys2Proof/Machine/LogOps.lean ====
section
/-!
DEFINITION. Machine/LogOps.lean: appending to the Colophon log with its hash chain, and the TR_ records that name a log
entry (16_roles_and_trust.md R553, R569 to R571, R575).
-/
namespace Sys2Proof.Machine

/-- One link of the hash chain (R571). -/
def chainStep (h : BitVec 512) (e : LogEntry) : BitVec 512 :=
  BitVec.ofNat 512 (leNat (sha512 (leBytes 64 h.toNat ++ logBytes e)))

/-- Append an entry; the oldest of more than 16,384 goes into the chain (R571). -/
def logAppend (e : LogEntry) (d : Device) : Device :=
  modTrust (fun t =>
    let log := t.log ++ [e]
    if log.length ≤ 16384 then { t with log := log, seq := e.seq }
    else match log with
      | [] => t
      | o :: r => { t with log := r, seq := e.seq, chain := chainStep t.chain o }) d

/-- Log an action (R569, R570). -/
def logAct (action role outcome : Nat) (code : BitVec 16) (source target : Nat) (detail : BitVec 256) (d : Device) :
    Device :=
  logAppend (logMake action role outcome code source target detail d) d

/-- Log an action that fails, with its TR_ (or other) errata record naming the entry (R575). -/
def logRefused (action role outcome : Nat) (code : BitVec 16) (source target : Nat) (detail : BitVec 256)
    (d : Device) : Device :=
  let e := logMake action role outcome code source target detail d
  logPlain unitTrust code (logHead e) (logAppend e d)

/-- Every entry written so far is in flash, as before an action that changes the store, the firmware or the ownership
(R571). -/
def logFlushed (d : Device) : Device := modTrust (fun t => { t with log := t.log.map fun e => { e with durable := true } }) d

/-- H of entry `s`, from the oldest retained on (R571). -/
def chainAt (t : Trust) (s : Nat) : BitVec 512 :=
  (t.log.filter (fun e => decide (e.seq ≤ s))).foldl chainStep t.chain

/-- TR_STATUS.store_busy: a store write is in progress, of a command or register, or of the power-on count (R336, R560). -/
def storeBusy (d : Device) : Bool := d.trust.job.isSome || (d.forron.countPending && !d.forron.countFailed)

/-- Neither firmware slot is acceptable: the part admits no ticket and loads no bit-stream (R567). -/
def noImage (d : Device) : Bool := d.trust.running.isNone && d.trust.booting.isNone

/-- Who asks, as a source byte (R569). -/
def reqSource : Requester → Nat
  | .pf0 => 0 | .pf1 => 1 | .pf2 => 2 | .foreman => 4

/-- The role a request holds (R551): Foreman maker, PF0 with a session installer, any other host request operator. -/
def reqRole (d : Device) : Requester → Nat
  | .foreman => 3
  | .pf0 => if d.trust.session then 2 else 1
  | _ => 1

/-- Installer rights (R551). -/
def installer (d : Device) (r : Requester) : Bool := r = .pf0 && d.trust.session

/-- A lockable right: every operator holds it unless TR_LOCKS withdraws it (R552). Foreman acts for the part. -/
def lockable (d : Device) (r : Requester) (bitNo : Nat) : Bool :=
  installer d r || r = .foreman || !(d.trust.store.locks.getLsbD bitNo)

/-- Do a write that needs a right: with the right it is logged as done, without it it is logged, reported with TR_NO_RIGHT
and discarded (R553, R570). -/
def withRight (right : Bool) (r : Requester) (addr : Nat) (v : Word) (act : Device → Device) (d : Device) : Device :=
  let detail := BitVec.ofNat 256 v.toNat
  if right then act (logAct 1 (reqRole d r) 0 0 (reqSource r) addr detail d)
  else logRefused 1 (reqRole d r) 1 0x0901 (reqSource r) addr detail d

end Sys2Proof.Machine
end

