-- ==== Sys2Proof/Machine/Float.lean ====
section
/-!
DEFINITION. Machine/Float.lean: exact and rounded arithmetic of binary32 (R70 to R72, R101, R115, R147), the elementwise
functions with their tables (R151 to R156), the reductions (R150) and the Quoin generator (R380 to R382).
-/
namespace Sys2Proof.Machine

/-- EXPT: 2^(j/64) rounded under RNE (R151). -/
def exptTable : List Nat := [
  0x3F800000, 0x3F8164D2, 0x3F82CD87, 0x3F843A29, 0x3F85AAC3, 0x3F871F62, 0x3F88980F, 0x3F8A14D5,
  0x3F8B95C2, 0x3F8D1ADF, 0x3F8EA43A, 0x3F9031DC, 0x3F91C3D3, 0x3F935A2B, 0x3F94F4F0, 0x3F96942D,
  0x3F9837F0, 0x3F99E046, 0x3F9B8D3A, 0x3F9D3EDA, 0x3F9EF532, 0x3FA0B051, 0x3FA27043, 0x3FA43516,
  0x3FA5FED7, 0x3FA7CD94, 0x3FA9A15B, 0x3FAB7A3A, 0x3FAD583F, 0x3FAF3B79, 0x3FB123F6, 0x3FB311C4,
  0x3FB504F3, 0x3FB6FD92, 0x3FB8FBAF, 0x3FBAFF5B, 0x3FBD08A4, 0x3FBF179A, 0x3FC12C4D, 0x3FC346CD,
  0x3FC5672A, 0x3FC78D75, 0x3FC9B9BE, 0x3FCBEC15, 0x3FCE248C, 0x3FD06334, 0x3FD2A81E, 0x3FD4F35B,
  0x3FD744FD, 0x3FD99D16, 0x3FDBFBB8, 0x3FDE60F5, 0x3FE0CCDF, 0x3FE33F89, 0x3FE5B907, 0x3FE8396A,
  0x3FEAC0C7, 0x3FED4F30, 0x3FEFE4BA, 0x3FF28177, 0x3FF5257D, 0x3FF7D0DF, 0x3FFA83B3, 0x3FFD3E0C]

/-- LOGT: log2(1 + j/64) rounded under RNE (R151). -/
def logtTable : List Nat := [
  0x00000000, 0x3CB73CB4, 0x3D35D69C, 0x3D8759C5, 0x3DB31FB8, 0x3DDE4212, 0x3E0462C4, 0x3E19574F,
  0x3E2E00D2, 0x3E42615F, 0x3E567AF1, 0x3E6A4F72, 0x3E7DE0B6, 0x3E88983F, 0x3E92203D, 0x3E9B8926,
  0x3EA4D3C2, 0x3EAE00D2, 0x3EB7110E, 0x3EC0052B, 0x3EC8DDD4, 0x3ED19BB0, 0x3EDA3F60, 0x3EE2C97D,
  0x3EEB3A9F, 0x3EF39355, 0x3EFBD42B, 0x3F01FED4, 0x3F060828, 0x3F0A0650, 0x3F0DF989, 0x3F11E20F,
  0x3F15C01A, 0x3F1993E3, 0x3F1D5DA0, 0x3F211D84, 0x3F24D3C2, 0x3F28808C, 0x3F2C2411, 0x3F2FBE80,
  0x3F335004, 0x3F36D8CB, 0x3F3A58FF, 0x3F3DD0C8, 0x3F41404F, 0x3F44A7BA, 0x3F480731, 0x3F4B5ED7,
  0x3F4EAED0, 0x3F51F740, 0x3F553848, 0x3F587209, 0x3F5BA4A4, 0x3F5ED039, 0x3F61F4E5, 0x3F6512C7,
  0x3F6829FB, 0x3F6B3A9F, 0x3F6E44CD, 0x3F7148A1, 0x3F744636, 0x3F773DA4, 0x3F7A2F04, 0x3F7D1A71]

/-- RCPT: 1/(1 + j/64) rounded under RNE (R151). -/
def rcptTable : List Nat := [
  0x3F800000, 0x3F7C0FC1, 0x3F783E10, 0x3F74898D, 0x3F70F0F1, 0x3F6D7304, 0x3F6A0EA1, 0x3F66C2B4,
  0x3F638E39, 0x3F607038, 0x3F5D67C9, 0x3F5A740E, 0x3F579436, 0x3F54C77B, 0x3F520D21, 0x3F4F6475,
  0x3F4CCCCD, 0x3F4A4588, 0x3F47CE0C, 0x3F4565C8, 0x3F430C31, 0x3F40C0C1, 0x3F3E82FA, 0x3F3C5264,
  0x3F3A2E8C, 0x3F381703, 0x3F360B61, 0x3F340B41, 0x3F321643, 0x3F302C0B, 0x3F2E4C41, 0x3F2C7692,
  0x3F2AAAAB, 0x3F28E83F, 0x3F272F05, 0x3F257EB5, 0x3F23D70A, 0x3F2237C3, 0x3F20A0A1, 0x3F1F1166,
  0x3F1D89D9, 0x3F1C09C1, 0x3F1A90E8, 0x3F191F1A, 0x3F17B426, 0x3F164FDA, 0x3F14F209, 0x3F139A86,
  0x3F124925, 0x3F10FDBC, 0x3F0FB824, 0x3F0E7835, 0x3F0D3DCB, 0x3F0C08C1, 0x3F0AD8F3, 0x3F09AE41,
  0x3F088889, 0x3F0767AB, 0x3F064B8A, 0x3F053408, 0x3F042108, 0x3F03126F, 0x3F020821, 0x3F010204]

/-- RSQT: 1/sqrt(1 + j/16) rounded under RNE (R151). -/
def rsqtTable : List Nat := [
  0x3F800000, 0x3F785B42, 0x3F715BEF, 0x3F6AEBF5, 0x3F64F92E, 0x3F5F7483, 0x3F5A514A, 0x3F5584CD,
  0x3F5105EC, 0x3F4CCCCD, 0x3F48D2AB, 0x3F4511A3, 0x3F41848F, 0x3F3E26EB, 0x3F3AF4BA, 0x3F37EA74,
  0x3F3504F3, 0x3F32416A, 0x3F2F9D53, 0x3F2D166C, 0x3F2AAAAB, 0x3F285835, 0x3F261D5F, 0x3F23F8A2,
  0x3F21E89B, 0x3F1FEC04, 0x3F1E01B3, 0x3F1C2896, 0x3F1A5FB2, 0x3F18A61F, 0x3F16FB06, 0x3F155DA2,
  0x3F13CD3A, 0x3F124925, 0x3F10D0C3, 0x3F0F6381, 0x3F0E00D5, 0x3F0CA83F, 0x3F0B5948, 0x3F0A137D,
  0x3F08D677, 0x3F07A1D2, 0x3F067532, 0x3F05503E, 0x3F0432A5, 0x3F031C1A, 0x3F020C52, 0x3F01030A]

/-- The coefficients c1, c2, c3, d1, d2, d3 (R151). -/
def polyCoeffs : List Nat := [0x3F317218, 0x3E75FDF0, 0x3D635847, 0x3FB8AA3B, 0xBF38AA3B, 0x3EF6384F]

/-- The digest of TR_IMPRINT: bytes 0 to 3 of the SHA-512 of the tables and coefficients above (R374). -/
def imprintDigest : BitVec 32 := 0x0BA59838#32

/-- TR_IMPRINT (R373, R394). -/
def imprint : BitVec 64 := 0x9480#16 ++ 0x01#8 ++ 0x01#8 ++ imprintDigest

/-- The exact value of a binary32 code. -/
def v32 (c : Word) : Val := decodeElem .binary32 c.toNat

/-- A table entry as an exact value. -/
def tabV (t : List Nat) (j : Nat) : Val := decodeElem .binary32 (t.getD j 0)

/-- RNE with IEEE overflow: how the platens, the reductions and the function steps round (R115, R150, R151). -/
def rneMode : ConvMode := ⟨.rne, .ieee, false, false⟩

/-- Round an exact value to a binary32 code under RNE. -/
def rne32 (v : Val) : Word := BitVec.ofNat 32 (encodeVal .binary32 rneMode 0 v).code

/-- Round an exact value to binary32 under RNE and take it as an exact value again. -/
def rneV (v : Val) : Val := v32 (rne32 v)

def valIsNaN : Val → Bool
  | .nan _ => true
  | _ => false

/-- The sign of a value. -/
def valNeg : Val → Bool
  | .fin n _ _ => n
  | .inf n => n
  | .nan c => c.msb

def valNegate : Val → Val
  | .fin n m e => .fin (!n) m e
  | .inf n => .inf (!n)
  | .nan c => .nan c

/-- A signed multiple of 2^e. -/
def valOfInt (v : Int) (e : Int) : Val := .fin (v < 0) v.natAbs e

/-- The exact sum of two values that are not NaN; a zero sum has the sign of R147, `rdn` where RDN is in force. -/
def valAddNum (rdn : Bool) (a b : Val) : Val :=
  match a, b with
  | .inf na, .inf nb => if na = nb then .inf na else valNaN
  | .inf na, _ => .inf na
  | _, .inf nb => .inf nb
  | .fin na ma ea, .fin nb mb eb =>
    let e := min ea eb
    let ia : Int := (ma * 2 ^ (ea - e).toNat : Nat)
    let ib : Int := (mb * 2 ^ (eb - e).toNat : Nat)
    let s := (if na then -ia else ia) + (if nb then -ib else ib)
    if s = 0 then
      .fin (if ma = 0 ∧ mb = 0 ∧ na = nb then na else rdn) 0 0
    else valOfInt s e
  | _, _ => valNaN

/-- The exact product of two values that are not NaN. -/
def valMulNum (a b : Val) : Val :=
  match a, b with
  | .fin na ma ea, .fin nb mb eb => .fin (na != nb) (ma * mb) (ea + eb)
  | .inf na, .fin nb mb _ => if mb = 0 then valNaN else .inf (na != nb)
  | .fin na ma _, .inf nb => if ma = 0 then valNaN else .inf (na != nb)
  | .inf na, .inf nb => .inf (na != nb)
  | _, _ => valNaN

/-- The first NaN of a list of operands (R71). -/
def firstNaN : List Val → Option Val
  | [] => none
  | .nan c :: _ => some (.nan (quiet32 c))
  | _ :: r => firstNaN r

def valAdd (rdn : Bool) (a b : Val) : Val := (firstNaN [a, b]).getD (valAddNum rdn a b)
def valSub (rdn : Bool) (a b : Val) : Val := (firstNaN [a, b]).getD (valAddNum rdn a (valNegate b))
def valMul (a b : Val) : Val := (firstNaN [a, b]).getD (valMulNum a b)

/-- a * b + c exactly (R149). -/
def valFma (rdn : Bool) (a b c : Val) : Val :=
  match firstNaN [a, b, c] with
  | some n => n
  | none =>
    match valMulNum a b with
    | .nan w => .nan w
    | p => valAddNum rdn p c

/-- Order of two values that are not NaN: a < b. -/
def valLt (a b : Val) : Bool :=
  match a, b with
  | .inf na, .inf nb => na && !nb
  | .inf na, _ => na
  | _, .inf nb => !nb
  | .fin na ma ea, .fin nb mb eb =>
    if ma = 0 ∧ mb = 0 then false
    else if ma = 0 then !nb
    else if mb = 0 then na
    else if na = nb then (if na then magLt mb eb ma ea else magLt ma ea mb eb)
    else na
  | _, _ => false

def valIsZero : Val → Bool
  | .fin _ m _ => m = 0
  | _ => false

/-- max and min on binary32 codes (R101). -/
def fmax (x y : Word) : Word :=
  let a := v32 x; let b := v32 y
  if valIsNaN a && valIsNaN b then quiet32 x
  else if valIsNaN a then y else if valIsNaN b then x
  else if valIsZero a && valIsZero b then x &&& y
  else if valLt a b then y else x

def fmin (x y : Word) : Word :=
  let a := v32 x; let b := v32 y
  if valIsNaN a && valIsNaN b then quiet32 x
  else if valIsNaN a then y else if valIsNaN b then x
  else if valIsZero a && valIsZero b then x ||| y
  else if valLt b a then y else x

/-- The magnitude of a binary32 code. -/
def fabs (x : Word) : Word := x &&& 0x7FFFFFFF#32

/-- The comparison predicates of R101, by the pred code of R235. -/
def fpred (pred : Nat) (x y : Word) : Bool :=
  let a := v32 x; let b := v32 y
  if valIsNaN a || valIsNaN b then pred = 1
  else
    let lt := valLt a b; let gt := valLt b a; let eq := !lt && !gt
    match pred with
    | 0 => eq | 1 => !eq | 2 => lt | 3 => lt || eq | 4 => gt | _ => gt || eq

/-- The nearest integer to m * 2^e, ties to even. -/
def rneInt (neg : Bool) (m : Nat) (e : Int) : Int :=
  let n : Nat :=
    if e ≥ 0 then m * 2 ^ e.toNat
    else
      let sh := (-e).toNat
      let q := m / 2 ^ sh
      let r := m % 2 ^ sh
      if 2 * r > 2 ^ sh ∨ (2 * r = 2 ^ sh ∧ q % 2 = 1) then q + 1 else q
  if neg then -(n : Int) else n

def coef (i : Nat) : Val := tabV polyCoeffs i
def oneV : Val := .fin false 1 0

/-- EXP2 before its conversion (R152). -/
def exp2V (x : Val) : Val :=
  match x with
  | .nan c => .nan (quiet32 c)
  | .inf n => if n then valZero else .inf false
  | .fin neg m e =>
    let big := magLt 1 8 m e
    let (m, e) := if big then (1, 8) else (m, e)
    let xr := rneInt neg m (e + 6)
    let n := xr / 64
    let j := (xr - 64 * n).toNat
    let f := valAddNum false (.fin neg m e) (valOfInt (-xr) (-6))
    let u := rneV (valFma false (coef 2) f (coef 1))
    let u := rneV (valFma false u f (coef 0))
    let u := rneV (valMul u f)
    let y := rneV (valFma false (tabV exptTable j) u (tabV exptTable j))
    valScale y n

/-- The significand of m * 2^e as a value in [1, 2), and its exponent. -/
def sigOf (m : Nat) (e : Int) : Val × Nat × Int :=
  (.fin false m (-(Nat.log2 m : Int)), Nat.log2 m, (Nat.log2 m : Int) + e)

/-- LOG2 before its conversion (R153). -/
def log2V (rdn : Bool) (x : Val) : Val :=
  match x with
  | .nan c => .nan (quiet32 c)
  | .inf n => if n then valNaN else .inf false
  | .fin neg m e =>
    if m = 0 then .inf true
    else if neg then valNaN
    else
      let (s, k, ex) := sigOf m e
      let j := (m - 2 ^ k) * 64 / 2 ^ k
      let d := valAddNum false s (.fin true (64 + j) (-6))
      let t := rneV (valMul d (tabV rcptTable j))
      let p := rneV (valFma false (coef 5) t (coef 4))
      let p := rneV (valFma false p t (coef 3))
      let p := rneV (valMul p t)
      let q := rneV (valAdd false (valOfInt ex 0) (tabV logtTable j))
      valAdd rdn q p

/-- RCP before its conversion (R154). -/
def rcpV (x : Val) : Val :=
  match x with
  | .nan c => .nan (quiet32 c)
  | .inf n => .fin n 0 0
  | .fin neg m e =>
    if m = 0 then .inf neg
    else
      let (s, k, ex) := sigOf m e
      let j := (m - 2 ^ k) * 64 / 2 ^ k
      let y0 := tabV rcptTable j
      let t := rneV (valFma false (valNegate s) y0 oneV)
      let u := rneV (valFma false t t t)
      let y := rneV (valFma false y0 u y0)
      match valScale y (-ex) with
      | .fin _ m e => .fin neg m e
      | v => v

/-- RSQ before its conversion (R155). -/
def rsqV (x : Val) : Val :=
  match x with
  | .nan c => .nan (quiet32 c)
  | .inf n => if n then valNaN else valZero
  | .fin neg m e =>
    if m = 0 then .inf neg
    else if neg then valNaN
    else
      let (s, k, ex) := sigOf m e
      let odd := ex % 2 ≠ 0
      let s := if odd then valScale s 1 else s
      let ex := if odd then ex - 1 else ex
      let j := ((if odd then 2 * m else m) - 2 ^ k) * 16 / 2 ^ k
      let q := tabV rsqtTable j
      let h := rneV (valMul q q)
      let t := rneV (valFma false (valNegate s) h oneV)
      let u := rneV (valFma false t (.fin false 3 (-3)) (.fin false 1 (-1)))
      let v := rneV (valMul t u)
      let y := rneV (valFma false q v q)
      valScale y (-(ex / 2))

/-- SMSTEP on one lane: the new maximum, and the exact new sum; none where nothing changes (R156). -/
def smstep (rdn : Bool) (x ma ls : Word) : Option (Word × Val) :=
  let mn := fmax ma x
  if mn = 0xFF800000#32 then none
  else
    let part (a : Word) : Val := rneV (exp2V (rneV (valSub false (v32 a) (v32 mn))))
    some (mn, valFma rdn (v32 ls) (part ma) (part x))

/-- One level of the reduction tree (R150). -/
def pairUp (op : Word → Word → Word) : List Word → List Word
  | a :: b :: r => op a b :: pairUp op r
  | l => l

/-- The value of the tree over 256 lanes. -/
def reduce (op : Word → Word → Word) (l : List Word) : Word :=
  ((List.range 8).foldl (fun l _ => pairUp op l) l).headD 0

/-- The combinations and identities of R150, by iop 0Eh to 11h. -/
def reduceOp (iop : Nat) : (Word → Word → Word) × Word :=
  match iop with
  | 0x0E => (fun a b => rne32 (valAdd false (v32 a) (v32 b)), 0x80000000#32)
  | 0x0F => (fmax, 0xFF800000#32)
  | 0x10 => (fmin, 0x7F800000#32)
  | _ => (fun a b => fmax (fabs a) (fabs b), 0#32)

/-- The Quoin generator (R380). -/
def quoin (seed step : BitVec 64) (stream index : BitVec 32) : BitVec 32 :=
  let w0 : BitVec 32 := seed.extractLsb' 0 32 ^^^ step.extractLsb' 32 32
  let w1 : BitVec 32 := seed.extractLsb' 32 32 ^^^ step.extractLsb' 0 32
  let (l, r) := (List.range 4).foldl (fun (a : BitVec 32 × BitVec 32) n =>
    let t := a.2 + (if n % 2 = 0 then w0 else w1) + BitVec.ofNat 32 (n * 0x9E3779B9)
    let f := t.rotateLeft 7 ^^^ t
    (a.2, a.1 ^^^ f)) (stream, index)
  l + r

/-- The stream of an SR DRAIN or INK (R381): virtual forme, press, SR count. -/
def srStream (vforme press : Nat) (count : BitVec 24) : BitVec 32 :=
  BitVec.ofNat 32 (2 ^ 31 + (vforme % 16) * 2 ^ 27 + (press % 8) * 2 ^ 24 + count.toNat)

end Sys2Proof.Machine
end

