-- ==== Sys2Proof/Machine/Operands.lean ====
section
/-!
DEFINITION. Machine/Operands.lean: the fields of a Tequen word, the register ring, addressing forms, control registers
and descriptors (05_compositor.md R180 to R195, 06_tequen_instructions.md R206 to R241).
-/
namespace Sys2Proof.Machine

/-! ## Word fields (R206, R207, R209) -/

def wq (w : Word) : Nat := fieldN w 31 28
def wop (w : Word) : Nat := fieldN w 27 22

/-- The opcodes that R209 lists. -/
def opListed (op : Nat) : Bool :=
  (op = 1 || op = 2) || (4 ≤ op && op ≤ 6) || (8 ≤ op && op ≤ 0xE) || (0x10 ≤ op && op ≤ 0x15)
    || (0x18 ≤ op && op ≤ 0x1E) || (0x20 ≤ op && op ≤ 0x26) || (0x28 ≤ op && op ≤ 0x2D)

/-- A branch or LPSET, which takes no qualifier (R207). -/
def opNoQual (op : Nat) : Bool := 0x18 ≤ op && op ≤ 0x1E

/-- A valid word at decode: listed opcode, unreserved q, no qualifier where none is allowed (R208). -/
def wordValid (w : Word) : Bool :=
  opListed (wop w) && (wq w = 0 || 8 ≤ wq w) && (wq w = 0 || !opNoQual (wop w))

/-- The stage qualifier lets the instruction execute: 0 <= iter - k < trip (R191). -/
def qualOn (w : Word) (r : CoRegs) : Bool :=
  wq w < 8 || (wq w - 8 ≤ r.iter.toNat && r.iter.toNat - (wq w - 8) < r.trip.toNat)

/-! ## The register ring (R179, R180, R210) -/

/-- The physical register that a reference to gN names. -/
def gphys (r : CoRegs) (n : Nat) : Nat :=
  if n < 16 then n else 16 + (n - 16 + 16 - r.rbase.toNat) % 16

/-- Read gN; g0 reads as zero. -/
def rg (r : CoRegs) (n : Nat) : Word := if n = 0 then 0 else vgetN 0 r.g (gphys r n)

/-- Write gN; writes to g0 are discarded. -/
def wg (r : CoRegs) (n : Nat) (v : Word) : CoRegs :=
  if n = 0 then r else { r with g := vmodN r.g (gphys r n) (fun _ => v) }

/-- The stride that rstep selects (R179, R180). -/
def stride (r : CoRegs) : Nat := 2 ^ r.rstep.toNat

/-! ## Addressing (R184) -/

/-- Reverse the 16 bits of a halfword. -/
def reverse16 (a : Half) : Half :=
  (List.range 16).foldl (fun (x : Half) i => if a.getLsbD i then x ||| (1#16 <<< (15 - i)) else x) 0

/-- The least power of two that is at least L. -/
def pow2Above (l : Nat) : Nat := if l ≤ 1 then 1 else 2 ^ (Nat.log2 (l - 1) + 1)

/-- CO_BAD_DESCRIPTOR to CO_PRESS_NOT_HELD (R205). -/
def codeBadDesc : BitVec 16 := 0x0A40#16
def codeIllegal : BitVec 16 := 0x0A41#16
def codeMisaligned : BitVec 16 := 0x0A42#16
def codeTokenOverflow : BitVec 16 := 0x0A43#16
def codeBadImage : BitVec 16 := 0x0A44#16
def codePressReg : BitVec 16 := 0x0A45#16
def codePressNotHeld : BitVec 16 := 0x0A46#16

/-- The address after a post-modification by `step`, or by `- step` (R184). DESIGN CHOICE: R184 gives the bit-reversed sum for a
post-add; a post-subtract adds the reversal of `- step` in the same way (log 88). -/
def postMod (a : Half) (md : Word) (sub : Bool) : Except (BitVec 16) Half :=
  let step : Int := (BitVec.ofNat 16 (fieldN md 15 0)).toInt
  let d := if sub then -step else step
  let l := fieldN md 29 16
  match fieldN md 31 30 with
  | 0 => .ok (BitVec.ofInt 16 (a.toNat + d))
  | 1 =>
    if step.natAbs > l ∨ l = 0 then .error codeIllegal
    else
      let p := pow2Above l
      let base := a.toNat / p * p
      .ok (BitVec.ofNat 16 (base + (((a.toNat : Int) - base + d) % l).toNat))
  | 2 => .ok (reverse16 (reverse16 a + reverse16 (BitVec.ofInt 16 d)))
  | _ => .error codeIllegal

/-- A modifier may hold this value (R184, R216). -/
def modifierOk (md : Word) : Bool :=
  match fieldN md 31 30 with
  | 3 => false
  | 1 => fieldN md 29 16 ≠ 0
  | _ => true

/-! ## Targets of tensor instructions (R224) -/

/-- The target fields of a tensor word. -/
def tgtPm (w : Word) : Bool := bit w 21
def tgtPress (w : Word) : Nat := fieldN w 20 18
def tgtCore (w : Word) : Bool := bit w 16
def tgtMaskReg (w : Word) : Nat := fieldN w 20 16

/-- Only WAITPT, SIGNAL, WAIT and FENCE may set core (R224). -/
def opCore (op : Nat) : Bool := 0x28 ≤ op && op ≤ 0x2B

/-- The target field is well formed (R224). -/
def tgtOk (w : Word) : Bool :=
  if tgtPm w then true
  else !bit w 17 && (if tgtCore w then opCore (wop w) && tgtPress w = 0 else true)

/-- The press mask that an issue names (R224); the mask register is checked by `maskOk`. -/
def issueMask (w : Word) (r : CoRegs) : Nat :=
  if tgtPm w then (rg r (tgtMaskReg w)).toNat % 256 else 2 ^ tgtPress w

/-- The mask register's own check (R224, R242). -/
def maskOk (w : Word) (r : CoRegs) : Bool :=
  if tgtPm w then
    let g := rg r (tgtMaskReg w)
    g.toNat < 256 && g.toNat ≠ 0 && (wop w ≠ 0x2D || countBits g = 1)
  else true

/-! ## Descriptors (R193, R194) -/

def dKind (d : BitVec 256) : Nat := fieldN d 255 252

/-- Bits of a descriptor that a list of fields covers; the others are reserved. -/
def fieldsMask (l : List (Nat × Nat)) : BitVec 256 :=
  BitVec.ofNat 256 (l.foldl (fun a (hl : Nat × Nat) => a + (2 ^ (hl.1 - hl.2 + 1) - 1) * 2 ^ hl.2) 0)

/-- Every bit outside the named fields is zero. -/
def reservedZero (d : BitVec 256) (l : List (Nat × Nat)) : Bool := (d &&& ~~~(fieldsMask l)) = 0

def kind1Fields : List (Nat × Nat) := [(255, 252), (251, 251), (239, 208), (207, 184), (183, 160)]
def kind2Fields : List (Nat × Nat) := [(255, 252), (239, 208), (207, 184), (183, 176), (175, 144)]
def kind3Fields : List (Nat × Nat) := [(255, 252), (239, 208), (207, 184), (183, 152), (151, 120)]
def kind4Fields : List (Nat × Nat) := [(255, 252), (251, 248), (239, 208)]

def dBase (d : BitVec 256) : Nat := fieldN d 239 208
def dStride (d : BitVec 256) : Nat := fieldN d 207 184
def dFirst (d : BitVec 256) : Nat := fieldN d 183 160
def dTile (d : BitVec 256) : Bool := bit d 251
def dCol0 (d : BitVec 256) : Nat := fieldN d 183 176
def dBias (d : BitVec 256) : Nat := fieldN d 175 144
def dSlug (d : BitVec 256) : Nat := fieldN d 183 152
def dQuoin (d : BitVec 256) : BitVec 32 := field d 151 120
def dVecFmt (d : BitVec 256) : Nat := fieldN d 251 248

/-- The press number replaces bits [23:21] of a galley local address of an instruction issued with pm = 1 (R226). -/
def pressAddr (pm : Bool) (press a : Nat) : Nat :=
  if pm && a < 0x1000000 then a % 0x200000 + 0x200000 * press else a

/-- A byte range lies wholly in the galley of press `press` of the forme (R192); answers its galley offset. -/
def inGalley (press a n : Nat) : Option Nat :=
  if 0x200000 * press ≤ a ∧ a + n ≤ 0x200000 * (press + 1) then some (a - 0x200000 * press) else none

/-- A byte range lies wholly in the forme's case (R192); answers its case offset. -/
def inCase (a n : Nat) : Option Nat :=
  if 0x1000000 ≤ a ∧ a + n ≤ 0x2000000 then some (a - 0x1000000) else none

/-! ## Control registers of tensor instructions (R228, R231, R233, R236) -/

/-- Shape register: K, m, n; none where its zero field is not zero (R228, R210). -/
def shapeReg (g : Word) : Option (Nat × Nat × Nat) :=
  if fieldN g 31 26 = 0 then some (fieldN g 12 0 + 1, fieldN g 20 13 + 1, fieldN g 25 21 + 1) else none

/-- Rounding code of a 3-bit field: 7 selects the default; 6 is reserved (R231). -/
def roundField (dflt c : Nat) : Option Rnd := if c = 7 then rndOfCode dflt else rndOfCode c

/-- Overflow code of a 2-bit field: 3 selects the default (R231). -/
def ovfField (dflt c : Nat) : Option Ovf := if c = 3 then ovfOfCode dflt else ovfOfCode c

/-- NaN code of a 2-bit field: 2 selects the default, 3 is reserved; true is SQUASH (R231). -/
def nanField (dflt : Bool) (c : Nat) : Option Bool :=
  match c with
  | 0 => some false | 1 => some true | 2 => some dflt | _ => none

/-- An INK operand spec (R234). -/
inductive InkSpec where
  | lane (l : Nat)
  | scalar (s : Nat)
  | vec (t : Nat)
  deriving DecidableEq, Repr

def inkSpec (c : Nat) : InkSpec :=
  if c ≥ 16 then .vec (c % 16) else if c ≥ 8 then .scalar (c % 8) else .lane c

/-! ## What an issue captures and reads (R189, R225) -/

/-- The g registers (by number) that an instruction reads, for the interlock of R189. -/
def readsG (w : Word) (r : CoRegs) : List Nat :=
  let op := wop w
  let mask := if 0x20 ≤ op && tgtPm w then [tgtMaskReg w] else []
  mask ++
  match op with
  | 0x04 => fieldN w 16 12 :: (if bit w 6 then [] else [fieldN w 11 7])
  | 0x05 => [fieldN w 16 12]
  | 0x06 => if bit w 16 then [fieldN w 21 17] else []
  | 0x09 => [fieldN w 21 17]
  | 0x0A => if bit w 12 then [] else [fieldN w 21 17]
  | 0x0B => if bit w 12 then [] else [fieldN w 21 17]
  | 0x0C => rangeFrom (8 * fieldN w 17 16) 8
  | 0x0D => [fieldN w 14 10]
  | 0x10 | 0x11 | 0x12 | 0x13 | 0x14 => if bit w 15 then [] else [fieldN w 14 10, fieldN w 7 3]
  | 0x15 => if fieldN w 15 12 = 3 || fieldN w 15 12 = 6 then [fieldN w 20 16] else []
  | 0x19 => [fieldN w 21 17]
  | 0x1C => [fieldN w 21 17]
  | 0x1E => if bit w 18 then [fieldN w 15 11] else []
  | 0x20 | 0x21 => fieldN w 3 0 :: (if fieldN w 13 12 = 2 then [fieldN w 3 0 + 1] else [])
  | 0x22 => [fieldN w 3 0]
  | 0x23 =>
    let gc := rg r (fieldN w 3 0)
    fieldN w 3 0 :: ([fieldN gc 31 27, fieldN gc 26 22, fieldN gc 21 17, fieldN gc 16 12].filterMap fun c =>
      match inkSpec c with
      | .scalar s => some (8 + s)
      | _ => none)
  | 0x24 => [fieldN w 3 0]
  | 0x28 => [fieldN w 3 0]
  | 0x2C => [fieldN w 15 11]
  | _ => []

/-- The g values that an entry captures, in the order its dispatch reads them (R225). -/
def captureVals (w : Word) (r : CoRegs) : List Word :=
  match wop w with
  | 0x20 | 0x21 => [rg r (fieldN w 3 0), rg r (fieldN w 3 0 + 1)]
  | 0x22 | 0x24 | 0x28 => [rg r (fieldN w 3 0)]
  | 0x23 => rg r (fieldN w 3 0) :: (rangeFrom 8 8).map (rg r)
  | 0x2C => [rg r (fieldN w 15 11)]
  | _ => []

/-- The descriptors that an entry captures (R196): PASS tA, tB; FEED tB twice; DRAIN tD; INK the vectors of d, a, b, c;
JUSTIFY tS, tD; XFER and LINK t. -/
def captureDesc (w : Word) (r : CoRegs) : List (BitVec 256) :=
  let t (i : Nat) : BitVec 256 := vgetN 0 r.t i
  match wop w with
  | 0x20 => [t (fieldN w 11 8), t (fieldN w 7 4)]
  | 0x21 => [0, t (fieldN w 7 4)]
  | 0x22 => [t (fieldN w 11 8)]
  | 0x23 =>
    let gc := rg r (fieldN w 3 0)
    [fieldN gc 31 27, fieldN gc 26 22, fieldN gc 21 17, fieldN gc 16 12].map fun c =>
      match inkSpec c with
      | .vec i => t i
      | _ => 0
  | 0x24 => [t (fieldN w 15 12), t (fieldN w 11 8)]
  | 0x25 | 0x26 => [t (fieldN w 15 12)]
  | _ => []

/-- The word's own fields of a tensor instruction are well formed at issue (R210, R228 to R241). DEDUCED: the gp of WAITPT is
taken as a control register's field, so that 0 in it is illegal (R238, log 102). -/
def tensorWordOk (w : Word) : Bool :=
  tgtOk w &&
  match wop w with
  | 0x20 => fieldN w 13 12 ≠ 3 && fieldN w 3 0 ≠ 0 && (fieldN w 13 12 ≠ 2 || fieldN w 3 0 ≤ 14)
  | 0x21 => fieldN w 13 12 ≠ 3 && fieldN w 11 8 = 0 && fieldN w 3 0 ≠ 0
      && (fieldN w 13 12 ≠ 2 || fieldN w 3 0 ≤ 14)
  | 0x22 => fieldN w 7 4 = 0 && fieldN w 3 0 ≠ 0 && (!bit w 13 || (fieldN w 11 8 = 0 && !bit w 12))
  | 0x23 => fieldN w 15 11 ≤ 0x11 && fieldN w 8 4 = 0 && fieldN w 3 0 ≠ 0
  | 0x24 => fieldN w 7 4 = 0 && fieldN w 3 0 ≠ 0
  | 0x25 | 0x26 => fieldN w 4 0 = 0
  | 0x28 => fieldN w 15 4 = 0 && fieldN w 3 0 ≠ 0
  | 0x29 | 0x2A => fieldN w 9 8 = 0 && fieldN w 7 0 ≠ 0
  | 0x2B => fieldN w 15 0 = 0
  | _ => true

end Sys2Proof.Machine
end

