-- ==== Sys2Proof/Machine/Passes.lean ====
section
/-!
DEFINITION. Machine/Passes.lean: what passes, drains and bank images compute (03_platens.md R108 to R138, 04 R157, R160,
R166 to R168): operands and their headers, leads in force, the step of a cell, the drain's conversion. Pure functions of
a press's galley and banks; Machine/Platens.lean puts them to work.
-/
namespace Sys2Proof.Machine

/-! ## Reading a memory with blocked banks (R300, R311) -/

/-- A reader: the memory, what the code reported, and the first address found in a blocked bank. -/
structure Rd where
  mem     : Mem
  evs     : List MemEv := []
  blocked : Option Nat := none
  deriving DecidableEq, Repr

/-- The read cannot be delivered: an uncorrectable block or a blocked bank. -/
def rdFailed (r : Rd) : Bool := r.blocked.isSome || r.evs.any fun e => e.bad && !e.flush

/-- A byte range touches a blocked bank: banks of 2^sh bytes, mask of blocked banks (R311). -/
def touchesBlocked {w : Nat} (mask : BitVec w) (sh a n : Nat) : Bool :=
  mask ≠ 0 && (rangeFrom (a / 2 ^ sh) ((a + n - 1) / 2 ^ sh + 1 - a / 2 ^ sh)).any mask.getLsbD

/-- Read a range of a memory whose banks of 2^sh bytes may be blocked. -/
def rdBytes {w : Nat} (mask : BitVec w) (sh : Nat) (r : Rd) (a n : Nat) : Rd × List Byte :=
  if rdFailed r then (r, bytesOf n 0)
  else if touchesBlocked mask sh a n then ({ r with blocked := some a }, bytesOf n 0)
  else
    let (m, v, evs) := memRead r.mem a n
    ({ r with mem := m, evs := r.evs ++ evs }, v)

/-- Write a range of such a memory; a blocked bank takes none of it. -/
def rdWrite {w : Nat} (mask : BitVec w) (sh : Nat) (r : Rd) (a : Nat) (v : List Byte) : Rd :=
  if v = [] ∨ rdFailed r then r
  else if touchesBlocked mask sh a v.length then { r with blocked := some a }
  else
    let (m, evs) := memWrite r.mem a v
    { r with mem := m, evs := r.evs ++ evs }

/-- Flush the merge buffer, as the completion of a writing instruction does (R304). -/
def rdFlush (r : Rd) : Rd :=
  let (m, evs) := flushAll r.mem
  { r with mem := m, evs := r.evs ++ evs }

/-! ## Headers (R167) -/

/-- The fields of a slug or tile header. -/
structure Header where
  fmtReq  : Nat
  fmtUsed : Nat
  flags   : Nat
  rows    : Nat
  cols    : Nat
  stride  : Nat
  step    : BitVec 64
  quoin   : BitVec 32
  slug    : Nat
  maxVan  : Nat
  maxSat  : Nat
  van     : Nat
  sat     : Nat
  tally   : BitVec 64
  writer  : BitVec 32
  deriving DecidableEq, Repr

/-- The 64 bytes of a header. DESIGN CHOICE: the field row_stride holds the low 16 bits of a longer stride (log 102). -/
def headerBytes (h : Header) : List Byte :=
  leBytes 1 (h.fmtReq * 16 + h.fmtUsed) ++ leBytes 1 h.flags ++ leBytes 2 h.rows ++ leBytes 2 h.cols
    ++ leBytes 2 h.stride ++ leBytes 8 h.step.toNat ++ leBytes 4 h.quoin.toNat ++ leBytes 4 h.slug
    ++ leBytes 2 h.maxVan ++ leBytes 2 h.maxSat ++ leBytes 2 h.van ++ leBytes 2 h.sat
    ++ leBytes 8 h.tally.toNat ++ leBytes 4 h.writer.toNat ++ bytesOf 20 0

/-- valid of a header's bytes. -/
def hdrValid (b : List Byte) : Bool := bit (nth 0 b 1) 0

/-- The format used of a header's bytes; none where the header names a reserved code as the format requested or used (R69,
R107, R166, R167). -/
def hdrFmt (b : List Byte) : Option Fmt :=
  let n := (nth 0 b 0).toNat
  match fmtOfCode (n / 16) with
  | none => none
  | some _ => fmtOfCode (n % 16)

/-- Header flag bits (R167). -/
def hdrFlags (tile sr aborted promoted valid : Bool) : Nat :=
  16 * b2n tile + 8 * b2n sr + 4 * b2n aborted + 2 * b2n promoted + b2n valid

/-- The header of an open destination: with valid 1 as its close writes it, or as its opening or an abort writes it
(R167 to R169, R232). -/
def destHeader (o : OpenDest) (aborted valid : Bool) : List Byte :=
  headerBytes { fmtReq := o.fmt, fmtUsed := o.fmt, flags := hdrFlags o.tile o.sr aborted false valid, rows := o.rows,
                cols := o.cols, stride := o.stride, step := o.step, quoin := o.quoin, slug := o.slug, maxVan := 0,
                maxSat := 0, van := o.van, sat := o.sat, tally := 0, writer := o.writer }

/-- Bytes of a slug in a format (R160). -/
def slugBytes (f : Fmt) : Nat := 320 + 2048 * fmtWidth f

/-! ## Codes of the platen and the inking unit (R140, R175) -/

def codeBankInvalid : BitVec 16 := 0x0A20#16
def codeLeadMismatch : BitVec 16 := 0x0A21#16
def codeBankKind : BitVec 16 := 0x0A22#16
def codePassTooLong : BitVec 16 := 0x0A23#16
def codeBadOperand : BitVec 16 := 0x0A24#16
def codeFeedUnmapped : BitVec 16 := 0x0A25#16
def codeInBadFormat : BitVec 16 := 0x0A30#16
def codeOpenLimit : BitVec 16 := 0x0A31#16
def codeSlotSmall : BitVec 16 := 0x0A32#16
def codeSlugInvalid : BitVec 16 := 0x0A33#16

/-! ## Operands of a pass (R109, R166, R194, R195) -/

/-- Runs of a pass of K steps. -/
def runsOf (k : Nat) : Nat := (k + 63) / 64

/-- Check a descriptor of kind 1h and take its fields, with the press number put in (R195, R226). -/
def takeSource (pm : Bool) (press : Nat) (d : BitVec 256) : Except (BitVec 16) OpSrc :=
  if dKind d ≠ 1 || !reservedZero d kind1Fields || dBase d % 64 ≠ 0 then .error codeBadDesc
  else
    let base := pressAddr pm press (dBase d)
    match inGalley press base 64 with
    | none => .error codeBadDesc
    | some _ => .ok ⟨dTile d, base, dStride d, dFirst d⟩

/-- Check one slug's address and header; answers its format. -/
def checkSlug (mask : BitVec 32) (press : Nat) (r : Rd) (a : Nat) : Rd × Except (BitVec 16) Fmt :=
  match inGalley press a 64 with
  | none => (r, .error codeBadDesc)
  | some o =>
    if a % 64 ≠ 0 then (r, .error codeBadDesc)
    else
      let (r, h) := rdBytes mask 16 r o 64
      if rdFailed r then (r, .error 0)
      else if !hdrValid h then (r, .error codeSlugInvalid)
      else match hdrFmt h with
        | none => (r, .error codeFmtBad)
        | some f =>
          match inGalley press a (slugBytes f) with
          | none => (r, .error codeBadDesc)
          | some _ => (r, .ok f)

/-- Check every slug of a slug operand in order; `n` runs are left, from run `c`. -/
def checkSlugs (mask : BitVec 32) (press : Nat) (s : OpSrc) : Nat → Nat → Rd → Rd × Except (BitVec 16) (List Fmt)
  | 0, _, r => (r, .ok [])
  | n + 1, c, r =>
    match checkSlug mask press r (s.base + s.stride * (s.first + c)) with
    | (r, .error e) => (r, .error e)
    | (r, .ok f) =>
      match checkSlugs mask press s n (c + 1) r with
      | (r, .error e) => (r, .error e)
      | (r, .ok l) => (r, .ok (f :: l))

/-- Check an operand at dispatch and answer the format of each of its runs. `lines` is 256 rows or 32 columns. -/
def checkOperand (mask : BitVec 32) (press lines k : Nat) (r : Rd) (s : OpSrc) :
    Rd × Except (BitVec 16) (List Fmt) :=
  if s.tile then
    let o := s.base - 0x200000 * press
    let (r, h) := rdBytes mask 16 r o 64
    if rdFailed r then (r, .error 0)
    else if !hdrValid h then (r, .error codeSlugInvalid)
    else match hdrFmt h with
      | none => (r, .error codeFmtBad)
      | some f =>
        if fmtShort f then (r, .error codeBadOperand)
        else match inGalley press s.base (64 + s.stride * (lines - 1) + fmtWidth f / 8 * (s.first + k)) with
          | none => (r, .error codeBadDesc)
          | some _ => (r, .ok (List.replicate (runsOf k) f))
  else checkSlugs mask press s (runsOf k) 0 r

/-- Read one run of an operand. -/
def readRun (mask : BitVec 32) (press lines k : Nat) (s : OpSrc) (r : Rd) (c : Nat) (f : Fmt) : Rd × RunData :=
  let w := fmtWidth f
  if s.tile then
    let cnt := min 64 (k - 64 * c)
    let (r, rows) := (List.range lines).foldl (fun (a : Rd × List (List Byte)) i =>
      let (r, v) := rdBytes mask 16 a.1
        (s.base - 0x200000 * press + 64 + s.stride * i + w / 8 * (s.first + 64 * c)) (w / 8 * cnt)
      (r, v :: a.2)) (r, [])
    (r, ⟨f, bytesOf lines 0, rows.reverse⟩)
  else
    let o := s.base + s.stride * (s.first + c) - 0x200000 * press
    let (r, leads) := rdBytes mask 16 r (o + 64) lines
    let (r, rows) := (List.range lines).foldl (fun (a : Rd × List (List Byte)) i =>
      let (r, v) := rdBytes mask 16 a.1 (o + 320 + 8 * w * i) (8 * w)
      (r, v :: a.2)) (r, [])
    (r, ⟨f, if fmtShort f then leads else bytesOf lines 0, rows.reverse⟩)

/-- Read every run of an operand. -/
def readRuns (mask : BitVec 32) (press lines k : Nat) (s : OpSrc) (r : Rd) (fmts : List Fmt) : Rd × List RunData :=
  let x := fmts.foldl (fun (a : Rd × Nat × List RunData) f =>
    let (r, d) := readRun mask press lines k s a.1 a.2.1 f
    (r, a.2.1 + 1, d :: a.2.2)) (r, 0, [])
  (x.1, x.2.2.reverse)

/-- The width class of a format as its place in R111, fastest first; none for int32. -/
def widthClass : Fmt → Option Nat
  | .diamond3 | .brilliant2 => some 0
  | .nonpareil6 | .pearl4 | .int4 => some 1
  | .minion8 | .brevier8 | .int8 => some 2
  | .binary16 => some 3
  | .binary32 => some 4
  | .int32 => none

/-- Feed cycles of K steps at a class (R111). -/
def feedCycles (cls k : Nat) : Nat :=
  match cls with
  | 0 => (k + 3) / 4 | 1 => (k + 1) / 2 | 2 => k | 3 => 4 * k | _ => 16 * k

/-- The slowest class of a list of formats. -/
def slowest (l : List Fmt) : Nat := l.foldl (fun a f => max a ((widthClass f).getD 0)) 0

/-- A pass is an integer pass when both operands are int8 or int4 (R110). -/
def passInt (a b : List Fmt) : Bool :=
  a.all (fun f => f = .int8 || f = .int4) && b.all (fun f => f = .int8 || f = .int4)

/-! ## Leads in force and the step (R113 to R118) -/

/-- The lead in force of one line: the bank's record, else the largest (float) or smallest (integer) lead other than
80h of its runs (R117). DESIGN CHOICE: a line of a long format, whose lead is 0, on a record entry that holds another lead has
that lead in force, as a line of a short format has (log 88). -/
def leadInForce (int : Bool) (entry : BitVec 8) (runs : List (BitVec 8)) : BitVec 8 :=
  if entry ≠ 0x80#8 then entry
  else (runs.filter (· ≠ 0x80#8)).foldl (fun (a : BitVec 8) l =>
    if a = 0x80#8 then l
    else if int then (if l.toInt < a.toInt then l else a) else (if a.toInt < l.toInt then l else a)) 0x80#8

/-- The leads of line `i` in each run. -/
def lineLeads (runs : List RunData) (i : Nat) : List (BitVec 8) := runs.map fun r => nth 0 r.leads i

/-- The leads in force of lines 0 to n - 1, as a lead record lists them. -/
def leadsInForce (int : Bool) (record : List (Nat × BitVec 8)) (runs : List RunData) (n : Nat) :
    List (Nat × BitVec 8) :=
  (List.range n).foldl (fun a i =>
    smapSet 0x80#8 a i (leadInForce int (smapGet 0x80#8 record i) (lineLeads runs i))) []

/-- Some run of an unmasked line lies below its lead in force, or more than 16 above it (R117). -/
def leadMismatch (force : List (Nat × BitVec 8)) (runs : List RunData) (n : Nat) : Bool :=
  (List.range n).any fun i =>
    let f := (smapGet 0x80#8 force i).toInt
    (lineLeads runs i).any fun l => l ≠ 0x80#8 && (decide (l.toInt < f) || decide (f + 16 < l.toInt))

/-- Merge leads in force into a lead record (R118). -/
def mergeLeads (record force : List (Nat × BitVec 8)) : List (Nat × BitVec 8) :=
  force.foldl (fun a (il : Nat × BitVec 8) =>
    if smapGet 0x80#8 a il.1 = 0x80#8 then smapSet 0x80#8 a il.1 il.2 else a) record

/-- The lead and value of each of `cnt` elements of line `i` of a run. -/
def runElems (r : RunData) (i cnt : Nat) : List (BitVec 8 × Val) :=
  let row := nth [] r.rows i
  let l := nth 0 r.leads i
  (List.range cnt).map fun k => (l, decodeElem r.fmt (bitsAt row (fmtWidth r.fmt * k) (fmtWidth r.fmt)))

/-- Every element of line `i` in steps 0 to k - 1. -/
def lineElems (runs : List RunData) (i k : Nat) : List (BitVec 8 × Val) :=
  ((runs.zip (List.range runs.length)).map fun (r, c) => runElems r i (min 64 (k - 64 * c))).flatten

/-- One step of one cell, and whether an integer cell wrapped (R114 to R116). -/
def cellStep (int : Bool) (inA inB : BitVec 8) (acc : Word × Bool) (ab : (BitVec 8 × Val) × (BitVec 8 × Val)) :
    Word × Bool :=
  let ((la, va), (lb, vb)) := ab
  if la = 0x80#8 ∨ lb = 0x80#8 then
    if int then acc else (rne32 (valAdd false (v32 acc.1) valZero), acc.2)
  else
    let d := (la.toInt - inA.toInt) + (lb.toInt - inB.toInt)
    if int then
      match valMul va vb with
      | .fin neg m e =>
        let p : Int := (m * 2 ^ (e + d).toNat : Nat)
        let s := acc.1.toInt + (if neg then -p else p)
        (BitVec.ofInt 32 s, acc.2 || s < -2147483648 || s > 2147483647)
      | _ => acc
    else
      match firstNaN [va, vb, v32 acc.1] with
      | some n => (rne32 n, acc.2)
      | none =>
        match valScale (valMulNum va vb) d with
        | .nan c => (c, acc.2)
        | p => (rne32 (valAddNum false p (v32 acc.1)), acc.2)

/-- The steps of a list of run pairs on every unmasked cell of a bank: new accumulators and cells that wrapped. -/
def passCells (int : Bool) (m n k : Nat) (a b : List RunData) (inA inB : List (Nat × BitVec 8))
    (acc : List (Nat × Word)) : List (Nat × Word) × Nat :=
  let cols := (List.range n).map fun j => lineElems b j k
  (List.range m).foldl (fun (st : List (Nat × Word) × Nat) i =>
    let row := lineElems a i k
    (List.range n).foldl (fun (st : List (Nat × Word) × Nat) j =>
      let (v, w) := (row.zip (nth [] cols j)).foldl
        (cellStep int (smapGet 0x80#8 inA i) (smapGet 0x80#8 inB j)) (smapGet 0 st.1 (32 * i + j), false)
      (smapSet 0 st.1 (32 * i + j) v, st.2 + b2n w)) st) (acc, 0)

/-! ## Bank images (R124, R125) -/

/-- The bytes of a bank image; `kind` is its kind byte. -/
def imageBytes (b : Bank) (kind : Nat) : List Byte :=
  ((List.range 32).map fun j => ((List.range 256).map fun i => leBytes 4 (smapGet 0 b.acc (32 * i + j)).toNat).flatten).flatten
    ++ (List.range 256).map (smapGet 0x80#8 b.rows) ++ (List.range 32).map (smapGet 0x80#8 b.cols)
    ++ leBytes 1 kind ++ bytesOf 31 0

/-- The kind byte of an image. -/
def imageKind (l : List Byte) : Nat := (nth 0 l 33056).toNat

/-- A bank from an image; its state is left to the caller. -/
def imageBank (l : List Byte) (st : BankState) : Bank :=
  { acc := (List.range 32).foldl (fun a j => (List.range 256).foldl (fun a i =>
      smapSet 0 a (32 * i + j) (BitVec.ofNat 32 (leAt l (1024 * j + 4 * i) 4))) a) [],
    rows := (List.range 256).foldl (fun a i => smapSet 0x80#8 a i (nth 0x80 l (32768 + i))) [],
    cols := (List.range 32).foldl (fun a j => smapSet 0x80#8 a j (nth 0x80 l (33024 + j))) [],
    int := imageKind l = 1, state := st }

/-! ## Conversion events (R100) -/

def countConv (c : FmtCounts) (o : ConvOut) : FmtCounts :=
  ⟨c.ovf + b2n o.ovf, c.sat + b2n o.sat, c.und + b2n o.und, c.van + b2n o.van, c.sq + b2n o.sq⟩

/-- Add counts to a press's format counters (R104). -/
def addCounts (r : FmtRegs) (c : FmtCounts) : FmtRegs :=
  { r with overflow := satAdd r.overflow c.ovf, saturate := satAdd r.saturate c.sat,
           underflow := satAdd r.underflow c.und, vanish := satAdd r.vanish c.van, squash := satAdd r.squash c.sq }

/-! ## Converting drains (R122, R157, R158) -/

/-- The exact value that a drain converts, with its fused operation: 0 NONE, 1 BIAS, 2 RELU, 3 BIAS_RELU. -/
def drainValue (b : Bank) (i j fuse : Nat) (rdn : Bool) (bias : Word) : Val :=
  let acc := smapGet 0 b.acc (32 * i + j)
  let v := if b.int then valOfInt acc.toInt 0 else v32 acc
  let y := valScale v (leadSum (smapGet 0x80#8 b.rows i) (smapGet 0x80#8 b.cols j))
  let y := if fuse % 2 = 1 then valAdd rdn y (v32 bias) else y
  if 2 ≤ fuse && !valIsNaN y && (valNeg y || valIsZero y) then valZero else y

/-- What a drain delivers: codes by column and row in element order, the counts, and the column and code at which it
faulted. -/
structure DrainOut where
  cells  : List (Nat × Nat × Nat) := []
  counts : FmtCounts := {}
  fault  : Option (Nat × BitVec 16) := none
  deriving DecidableEq, Repr

/-- Convert one element; after a fault nothing more is converted (R93, R98). -/
def drainElem (b : Bank) (d : DrainOp) (seed step : BitVec 64) (bias : List Word) (o : DrainOut) (ji : Nat × Nat) :
    DrainOut :=
  match o.fault with
  | some _ => o
  | none =>
    let (j, i) := ji
    let q := if d.mode.rnd = .sr then (quoin seed step d.stream (BitVec.ofNat 32 (256 * j + i))).toNat else 0
    let c := encodeVal d.fmt d.mode q (drainValue b i j d.fuse (d.mode.rnd = .rdn) (nth 0 bias j))
    let o := { o with counts := countConv o.counts c }
    match c.fault with
    | some f => { o with fault := some (j, f) }
    | none => { o with cells := (j, i, c.code) :: o.cells }

/-- The elements of a drain, column and row, in element order. -/
def drainOrder (d : DrainOp) : List (Nat × Nat) :=
  ((List.range d.n).map fun j => (List.range d.m).map fun i => (j, i)).flatten

/-- Convert elements of a drain in their order. -/
def drainElems (b : Bank) (d : DrainOp) (seed step : BitVec 64) (bias : List Word) (l : List (Nat × Nat)) : DrainOut :=
  let o := l.foldl (drainElem b d seed step bias) {}
  { o with cells := o.cells.reverse }

/-- Convert a whole drain in element order. -/
def drainConvert (b : Bank) (d : DrainOp) (seed step : BitVec 64) (bias : List Word) : DrainOut :=
  drainElems b d seed step bias (drainOrder d)

end Sys2Proof.Machine
end

