-- ==== Sys2Proof/Machine/Tasks.lean ====
section
/-!
DEFINITION. Machine/Tasks.lean: tasks and their ends: the fault of a task and its abort, quiet presses, the release of
reservations, and the records of a ticket (01_press_time.md R48, R56; 05_compositor.md R202; 07 R278; 09 R354;
13 R488 to R490; 14 R503 to R507).
-/
namespace Sys2Proof.Machine

/-! ## Tickets and their units -/

def ticketOf (d : Device) (slot : Nat) : Option Ticket := d.mkr.tickets.find? (·.slot = slot)
def ticketById (d : Device) (id : BitVec 64) : Option Ticket := d.mkr.tickets.find? (·.id = id)
def modTicket (slot : Nat) (g : Ticket → Ticket) (d : Device) : Device :=
  modMk (fun m => { m with tickets := modWhere (·.slot = slot) g m.tickets }) d

/-- The formes that a task runs on. -/
def taskFormes (d : Device) (slot : Nat) : List Nat := (List.range 16).filter fun f => (forme d f).task = some slot

/-- The presses of a task: those of its formes' press masks (R39, R508). -/
def taskPresses (d : Device) (slot : Nat) : List Nat :=
  ((taskFormes d slot).map fun f => ((List.range 8).filter fun p => (forme d f).pmask.getLsbD p).map (8 * f + ·)).flatten

/-- The task of a press. -/
def pressTask (d : Device) (p : Nat) : Option Nat :=
  let f := forme d (p / 8)
  if f.pmask.getLsbD (p % 8) then f.task else none

def taskId (d : Device) (slot : Nat) : BitVec 64 := ((ticketOf d slot).map (·.id)).getD 0

/-- An access of the task in `slot`, by requester code (R316). -/
def writerOf (d : Device) (slot req : Nat) (stream : Option (BitVec 12)) (ctx : Ctx) : Writer :=
  ⟨slot, taskId d slot, req, stream, ctx⟩

/-- The writer of an entry of press `p`. -/
def writerEntry (d : Device) (p phase : Nat) (e : QEntry) (platen : Option PlatenId) : Writer :=
  writerOf d e.slot 0 none (ctxOf p phase e platen)

/-! ## Chase messages -/

/-- Tags that chunks of a press hold (R255). -/
def heldTags (x : Press) : List (BitVec 12) :=
  (x.transfers.map fun t => t.chunks.map (·.tag)).flatten ++ (x.ftransfers.map fun t => t.chunks.map (·.tag)).flatten

/-- The next tag of a press that none of its chunks holds: at most 32 are held (R256, R352). -/
def freshTag (x : Press) : BitVec 12 :=
  (((List.range 64).map fun k => x.tagNext + BitVec.ofNat 12 k).find? fun t => !(heldTags x).contains t).getD x.tagNext

/-- Put a message on the chase, with its header (R268). -/
def chaseSend (m : ChaseMsg) (d : Device) : Device :=
  modChase (fun c => { c with flight := c.flight ++ [{ m with header := chaseHeader d m }] }) d

/-- The endpoint that holds an address: for HBM by address, the controller of the stack (R247). -/
def epUnit (d : Device) (ep addr : Nat) : Nat := if ep = 0xA8 then 0xA0 + (hbmMap d.part addr).1 else ep

/-- Receivers of a chunk of a push (R247, R273). -/
def chunkRcvrs (d : Device) (t : Transfer) (c : TxChunk) : List Nat :=
  if t.mcast then t.rcvrs
  else match t.pool with
    | some _ => [t.dst]
    | none => [epUnit d t.dst (t.daddr + c.off)]

/-- CANCEL for one chunk of a transfer of press `p` (R278). -/
def cancelChunk (p : Nat) (t : Transfer) (d : Device) (c : TxChunk) : Device :=
  let msg (dst : Nat) : ChaseMsg :=
    { type := 6, dst := dst, src := p, tag := c.tag, stream := t.stream, slot := t.entry.slot, init := p }
  if t.push then
    ((chunkRcvrs d t c).filter fun r => !c.acks.contains r).foldl (fun d r => chaseSend (msg r) d) d
  else
    let d := modChase (fun x => { x with rx := x.rx.filter fun k => !(k.init = p && k.tag = c.tag && k.pull.isSome) }) d
    chaseSend (msg (epUnit d t.src (t.saddr + c.off))) d

/-- Cancel a transfer: CANCEL for every chunk requested, granted or asked for (R278). -/
def cancelTransfer (p : Nat) (d : Device) (t : Transfer) : Device := t.chunks.foldl (cancelChunk p t) d

/-- The destination address of a Forron transfer (R348, R351). -/
def flDest (desc : BitVec 256) : BitVec 27 :=
  BitVec.ofNat 27 (2 ^ 19 * fieldN desc 87 80 + 2 ^ 10 * fieldN desc 79 71 + fieldN desc 237 228)

/-- Payload bytes 40 to 45: stream and chunk number (R350). -/
def flTail (stream : BitVec 12) (chunk : Nat) : List Byte := leBytes 2 stream.toNat ++ leBytes 4 chunk

/-- A CANCEL message (R350, R354). -/
def flCancel (d : Device) (src dst : BitVec 27) (stream : BitVec 12) (c : TxChunk) : FMsg :=
  { mtype := 5, tag := c.tag, src := src, dst := dst, sinc := d.forron.inc, pinc := c.pinc,
    payload := bytesOf 12 0 ++ flTail stream c.num }

/-- A message of type `ty` of a chunk of this part waits to be sent. -/
def waitsToSend (d : Device) (ty : Nat) (src : BitVec 27) (tag : BitVec 12) : Bool :=
  d.quads.any fun x => x.waitSend.any fun e => e.1.isNone && e.2.mtype = ty && e.2.src = src && e.2.tag = tag

/-- RESERVE and DATA of a chunk that wait to be sent are dropped: the sender stops (R354, R358). -/
def dropWaiting (src : BitVec 27) (tag : BitVec 12) (d : Device) : Device :=
  { d with quads := d.quads.map fun x => { x with waitSend := x.waitSend.filter fun e =>
      !(e.1.isNone && (e.2.mtype = 1 || e.2.mtype = 3) && e.2.src = src && e.2.tag = tag) } }

/-- Cancel one chunk of a sender: a RESERVE that has not left is dropped, and no CANCEL is due (R354). -/
def cancelSent (die k : Nat) (src : BitVec 27) (tag : BitVec 12) (m : FMsg) (d : Device) : Device :=
  if waitsToSend d 1 src tag then dropWaiting src tag d else (originate die k m (dropWaiting src tag d)).1

/-- Cancel a Forron transfer of press `p` (R354). -/
def cancelForron (p : Nat) (d : Device) (t : FTransfer) : Device :=
  (t.chunks.filter (fun c => c.acks = [])).foldl (fun d c =>
    cancelSent (p / 64) c.num (ownAddr d p) c.tag
      (flCancel d (ownAddr d p) (flDest t.desc) (BitVec.ofNat 12 (fieldN t.desc 223 212)) c) d) d

/-- End the collective of press `p` on its die's engine, cancelling its chunks; what was granted to it can go nowhere any more
(R354, R364). -/
def cancelEngine (p : Nat) (d : Device) : Device :=
  let die := p / 64
  match vgetN none d.forron.engines die with
  | none => d
  | some c =>
    if c.press ≠ p then d
    else
      let d := (c.sent.filter fun s => s.2.2.acks = []).foldl (fun d s =>
        cancelSent die s.2.1 (ownAddr d (0xE1 + die)) s.2.2.tag (flCancel d (ownAddr d (0xE1 + die)) c.succ
          (BitVec.ofNat 12 (fieldN c.desc 231 220)) s.2.2) d) d
      modForron (fun x => { x with engines := vmodN x.engines die fun _ => none,
                                   rx := x.rx.filter fun k => !(k.granted && frxDie k = some die) }) d

/-! ## Stopping a press (R138, R202, R278) -/

def bankInvalid (b : Bank) : Bank := { b with state := .invalid }

def stopPlaten (pl : Platen) : Platen :=
  { pl with bank0 := bankInvalid pl.bank0, bank1 := bankInvalid pl.bank1, passes := [], drain := none }

/-- A FEED of the platen has taken its first lead beat and not its last data beat (R447). -/
def feedsOf (p : Nat) (x : Press) : List Nat :=
  if (x.plA.passes ++ x.plB.passes).any (fun o => o.feed && o.feedFmt.isSome && o.phase ≠ .settling) then [p / 8 * 2 + p % 8 / 4] else []

/-- The feeds that a stop of the press flushes: its FEEDs in progress, and those that have not yet had their first lead beat
(R415). -/
def feedsFlushed (p : Nat) (x : Press) : List Nat :=
  if (x.plA.passes ++ x.plB.passes).any (fun o => o.feed && o.phase ≠ .settling) then [p / 8 * 2 + p % 8 / 4] else []

/-- The press's platens, inking lane and justifier stop, and its queue is emptied (R138, R506 step 2). -/
def haltPress (d : Device) (p : Nat) : Device :=
  let d := (feedsFlushed p (press d p)).foldl (fun d k => emit (.fdFlush k) d) d
  modPress p (fun x => { x with queue := [], plA := stopPlaten x.plA, plB := stopPlaten x.plB, inkOp := none,
                                jusOp := none, preempt := .none }) d

/-- What the press has sent for is cancelled, and what is sent to it is dropped (R278, R354, R506 step 3). -/
def cancelPress (d : Device) (p : Nat) : Device :=
  let x := press d p
  let d := x.transfers.foldl (cancelTransfer p) d
  let d := x.ftransfers.foldl (cancelForron p) d
  let d := cancelEngine p d
  let d := modChase (fun c => { c with rx := c.rx.filter fun k => k.dst ≠ p }) d
  modPress p (fun x => { x with transfers := [], ftransfers := [] }) d

/-- Everything that the press does for its task stops; what it has sent for is cancelled. -/
def stopPress (d : Device) (p : Nat) : Device := cancelPress (haltPress d p) p

/-- Rewrite one open destination's header with valid 0 and aborted 1 (R169); a blocked bank takes none of it (R311). -/
def abortDest (p : Nat) (d : Device) (o : OpenDest) : Device :=
  let id := if o.inCase then MemId.case (p / 8) else MemId.galley p
  let w := writerOf d o.slot 0 none { phase := 3 }
  if memBlocked d id o.addr 64 then noteFail ⟨0x0513, id, o.addr, 0, 0, 0, some w, 0⟩ d
  else writeMem id o.addr (destHeader o true false) 0 none (some w) d

/-- The press closes what it held open, as far as its galley's side allows, and its merge buffer is flushed (R169,
R304, R506). -/
def settlePress (p : Nat) (d : Device) : Device :=
  let x := press d p
  let ready (o : OpenDest) : Bool := o.inCase || !x.chaseSide
  let d := (x.opens.filter fun o => o.begun && ready o).foldl (abortDest p) d
  let left := x.opens.filter fun o => o.begun && !ready o
  let d := modPress p (fun x => { x with opens := left, pressWait := x.pressWait || left ≠ [] }) d
  if x.chaseSide then d else (flushMem (.galley p) 0 0 d).1

/-- A bank is Busy, Loading or Draining. -/
def bankActive (b : Bank) : Bool := b.state = .busy || b.state = .loading || b.state = .draining
def platenIdle (pl : Platen) : Bool :=
  pl.passes = [] && pl.drain = none && !bankActive pl.bank0 && !bankActive pl.bank1

/-- Nothing that the press dispatched is incomplete; its queue apart. -/
def pressIdle (x : Press) : Bool :=
  platenIdle x.plA && platenIdle x.plB && x.inkOp = none && x.jusOp = none && x.transfers = [] && x.ftransfers = []

/-- No collective of the press runs on its die's engine. -/
def engineIdle (d : Device) (p : Nat) : Bool :=
  match vgetN none d.forron.engines (p / 64) with
  | none => true
  | some c => c.press ≠ p

/-- The press is quiet (R506). -/
def pressQuiet (d : Device) (p : Nat) : Bool :=
  let x := press d p
  x.queue = [] && pressIdle x && engineIdle d p && x.galley.merge = [] && x.opens = []

/-! ## Faults and aborts (R503 to R507) -/

/-- The platen that a unit address names raised the fault (R138). -/
def markPlaten (unit : BitVec 32) (d : Device) : Device :=
  if unitClass unit = 1 then
    modPress (unitPressOf unit) (fun x =>
      if fieldN unit 11 8 = 0 then { x with plA := { x.plA with fault := true } }
      else { x with plB := { x.plB with fault := true } }) d
  else d

/-- The platen of a fault's context raised it, where the memory is its galley (R138). -/
def markPlatenOf (id : MemId) (c : Ctx) (d : Device) : Device :=
  match id, c.platen with
  | .galley p, 0 => modPress p (fun x => { x with plA := { x.plA with fault := true } }) d
  | .galley p, 1 => modPress p (fun x => { x with plB := { x.plB with fault := true } }) d
  | _, _ => d

/-- Compositors and presses of the task stop (R202, R506 step 2). -/
def stopTask (slot : Nat) (d : Device) : Device :=
  let d := (taskFormes d slot).foldl (fun d f => modForme f (fun x =>
    { x with state := if x.state = .off then .off else .faulted, pend := [] }) d) d
  (taskPresses d slot).foldl haltPress d

/-- The task's presses cancel, flush and rewrite, and its formes' memories are flushed (R506 step 3). -/
def cancelTask (slot : Nat) (d : Device) : Device :=
  let d := (taskPresses d slot).foldl cancelPress d
  let d := (taskPresses d slot).foldl (fun d p => settlePress p d) d
  (taskFormes d slot).foldl (fun d f =>
    let d := (flushMem (.case f) 1 slot d).1
    let d := (flushMem (.xmem f) 1 slot d).1
    (flushMem (.ymem f) 1 slot d).1) d

/-- Step 3 of an abort is due: its step 2 has ended, two points after the governing fault (R506). -/
def cancelDue (now : Nat) (a : AbortSt) : Bool := !a.cancelled && a.t0.toNat + 2 ≤ now

/-- The aborts whose step 3 is due begin it (R506). -/
def settleAborts (d : Device) : Device :=
  (d.mkr.tickets.filter fun t => t.abort.any (cancelDue d.now)).foldl (fun d t =>
    cancelTask t.slot (modTicket t.slot (fun t =>
      { t with abort := t.abort.map fun a => { a with cancelled := true } }) d)) d

/-- Codes that govern an abort without any unit raising them as a fault of its own (R505). -/
def noUnitRaised (code : BitVec 16) : Bool := code = 0x0103 || code = 0x0113 || code = 0x0704

/-- The abort of a task begins (R505). -/
def beginAbort (slot : Nat) (code : BitVec 16) (unit : BitVec 32) (ctx : Ctx) (own : Option (BitVec 256))
    (d : Device) : Device :=
  let d := modTicket slot (fun t =>
    { t with abort := some ⟨code, unit, ctx, own, d.time.count, 0, max 1 d.errata.abortPt.toNat,
                            if noUnitRaised code then [] else [unit], false⟩, pause := none }) d
  stopTask slot (markPlaten unit d)

/-- The place of a new fault among the task's faults of the same point, by unit address; 0 governs. A code that no unit raised
as a fault keeps its place before them all (R505). -/
def rankOf (a : AbortSt) (unit : BitVec 32) : Nat :=
  b2n (noUnitRaised a.code) + (a.at0.filter fun u => u.toNat ≤ unit.toNat).length

/-- The code's area gives its records a detail of its own in place of the context detail (R503, R505). -/
def ownDetail (code : BitVec 16) : Bool := [3, 4, 5, 6, 8, 9].contains (code.toNat / 256)

/-- The entry of a fault of the task reads as that of one more fault before it: severity 1, the governing code `gov`, flags[2],
one secondary more. One with its area's own detail keeps that (R505). -/
def demoted (gov : BitVec 16) (r : Rec) : Rec :=
  if ownDetail r.code then { r with severity := 1 }
  else
    let detail := setField (setField r.detail 15 0 gov.toNat) 26 26 1
    { r with severity := 1, detail := setField detail 191 160 (fieldN r.detail 191 160 + 1) }

/-- A fault of unit `unit` takes its place before faults of the same point already written: their entries in the log follow
(R505). `gov` governs. -/
def demoteAfter (t : Ticket) (unit : BitVec 32) (gov : BitVec 16) (first : Bool) (d : Device) : Device :=
  let its (r : Rec) : Bool :=
    r.ticket = t.id && r.time = d.time.count && decide (unit.toNat < r.unit.toNat)
      && ((first && r.severity = 2) || (r.severity = 1 && (ownDetail r.code || bit r.detail 26)))
  modErrata (fun e => { e with ring := e.ring.map fun ie => if its ie.2 then (ie.1, demoted gov ie.2) else ie }) d

/-- A unit raises a fault of the task in `slot`: it governs the task's abort, or is secondary to it (R505). `own` is the
detail of the code's area, where it has one. -/
def faultTask (slot : Nat) (code : BitVec 16) (unit : BitVec 32) (ctx : Ctx) (own : Option (BitVec 256))
    (d : Device) : Device :=
  match ticketOf d slot with
  | none => logError 1 unit 0 code (own.getD (ctxDetail 0 ctx false false (stepOf d unit) 0)) ctx.pc ctx.stream d
  | some t => match t.abort with
    | some a =>
      let n := a.secondaries + 1
      if a.t0 ≠ d.time.count then
        let detail := own.getD (ctxDetail a.code ctx true false (stepOf d unit) n)
        let d := logError 1 unit t.id code detail ctx.pc ctx.stream d
        modTicket slot (fun t => { t with abort := some { a with secondaries := n } }) d
      else
        let k := rankOf a unit
        let b : AbortSt := { a with secondaries := n, at0 := unit :: a.at0 }
        let b := if k = 0 then { b with code := code, unit := unit, ctx := ctx, own := own } else b
        let detail := own.getD (ctxDetail b.code ctx (k ≠ 0) false (stepOf d unit) k)
        let d := logError (if k = 0 then 2 else 1) unit t.id code detail ctx.pc ctx.stream
          (demoteAfter t unit b.code (k = 0) d)
        let d := modTicket slot (fun t => { t with abort := some b }) d
        if k = 0 then markPlaten unit d else d
    | none =>
      let detail := own.getD (ctxDetail code ctx false false (stepOf d unit) 0)
      beginAbort slot code unit ctx own (logError 2 unit t.id code detail ctx.pc ctx.stream d)

/-- A fault of an entry of press `p`. -/
def faultEntry (p phase : Nat) (e : QEntry) (code : BitVec 16) (platen : Option PlatenId) (d : Device) : Device :=
  let unit := match platen with
    | none => unitPress p
    | some pl => unitPlaten p pl
  faultTask e.slot code unit (ctxOf p phase e platen) none d

/-- A fault whose record carries the stored-data detail of R316. -/
def faultStored (slot : Nat) (id : MemId) (req : Nat) (stream : Option (BitVec 12)) (ctx : Ctx) (e : MemEv)
    (d : Device) : Device :=
  faultTask slot 0x0510 (memUnit id) ctx (some (evDetail d id req stream e)) d

/-- A fault of an access to a blocked bank (R311). -/
def faultBlocked (slot : Nat) (id : MemId) (a req : Nat) (stream : Option (BitVec 12)) (ctx : Ctx) (d : Device) :
    Device :=
  faultTask slot 0x0513 (memUnit id) ctx (some (sdDetail d id a 0 req 0 0 1 stream)) d

/-- Tell the writer of an access that failed: its task faults, by this error's own entry; a writer without an open ticket has
only the record (R304, R308, R311). -/
def failWriter (d : Device) (f : AccessFail) : Device :=
  let detail (req : Nat) (stream : Option (BitVec 12)) : BitVec 256 :=
    sdDetail d f.mem f.addr f.flags req f.attempts f.syn 1 stream
  match f.writer with
  | none => logPlain (memUnit f.mem) f.code (detail f.req none) d
  | some w =>
    if (ticketOf d w.slot).any (·.id = w.ticket) then
      faultTask w.slot f.code (memUnit f.mem) w.ctx (some (detail w.req w.stream)) (markPlatenOf f.mem w.ctx d)
    else logError 1 (memUnit f.mem) w.ticket f.code (detail w.req w.stream) w.ctx.pc w.ctx.stream d

/-- Tell the writers of the accesses that failed in a command; their tasks' aborts may add to them. -/
def settleFails : Nat → Device → Device
  | 0, d => d
  | fuel + 1, d =>
    match d.errata.failed with
    | [] => d
    | f :: r => settleFails fuel (failWriter (modErrata (fun e => { e with failed := r }) d) f)

/-- An uncorrectable error that faults no task: its errata record (R308). -/
def logStored (id : MemId) (req : Nat) (stream : Option (BitVec 12)) (e : MemEv) (d : Device) : Device :=
  logPlain (memUnit id) 0x0510 (evDetail d id req stream e) d

/-! ## The end of a ticket -/

/-- A table entry stops being valid: every bit is cleared (R48, R65). -/
def freeEntry (i : Nat) (d : Device) : Device :=
  modMk (fun m => { m with table := smapDel m.table i,
                           tickets := m.tickets.map fun t => { t with entries := t.entries.filter (· ≠ i) } }) d

/-- Release every entry of a ticket (R48). -/
def releaseEntries (t : Ticket) (d : Device) : Device := t.entries.foldl (fun d i => freeEntry i d) d

/-- The ticket is no longer open. -/
def dropTicket (slot : Nat) (d : Device) : Device :=
  modMk (fun m => { m with tickets := m.tickets.filter (·.slot ≠ slot) }) d

/-- A chunk of a pool of forme `f` or of its presses (R245). -/
def inFormePool (f : Nat) (c : RxChunk) : Bool := c.pool.isSome && (c.dst = 0x80 + f || (decide (c.dst < 0x80) && c.dst / 8 = f))

/-- Every pool of a forme closes (R254). The chunks granted in it keep their places, and give nothing back to a pool that opens
later. -/
def closePools (f : Nat) (d : Device) : Device :=
  let d := modChase (fun x => { x with rx := x.rx.map fun c => if c.granted && inFormePool f c then { c with closed := true } else c }) d
  let d := modForme f (fun x => { x with pools := Vector.replicate 8 {} }) d
  (List.range 8).foldl (fun d p => modPress (8 * f + p) (fun x => { x with pools := Vector.replicate 2 {} }) d) d

/-- A forme is given up by its task: Idle, or Off with its domain. -/
def freeForme (d : Device) (f : Nat) : Device :=
  closePools f (modForme f (fun x =>
    { x with state := if x.state = .off then .off else .idle, task := none, pmask := 0, pend := [] }) d)

/-- A record of a ticket, written to its queue (R488). -/
def ticketRec (t : Ticket) (type sev : Nat) (unit : BitVec 32) (code : BitVec 16) (detail : BitVec 256) (d : Device) :
    Device :=
  postRec t.pq { type := BitVec.ofNat 16 type, severity := BitVec.ofNat 2 sev, unit := unit, time := d.time.count,
                 ticket := t.id, code := code, detail := detail } d

/-- Bytes 48 to 51: ring and ring index (R490). -/
def ringDetail (t : Ticket) : BitVec 256 := dput 48 t.ring (dput 50 t.ringIndex 0)

/-- The detail of the ABORTED record (R490). -/
def abortedDetail (d : Device) (t : Ticket) (a : AbortSt) : BitVec 256 :=
  if a.code = 0x0103 || a.code = 0x0704 then ringDetail t
  else if a.code = 0x0113 then dput 32 t.promise (ringDetail t)
  else a.own.getD (ctxDetail a.code a.ctx false false (stepOf d a.unit) a.secondaries)

/-- A ticket without a task ends as aborted (R481, R490). -/
def abortUnstarted (t : Ticket) (code : BitVec 16) (unit : BitVec 32) (detail : BitVec 256) (d : Device) : Device :=
  dropTicket t.slot (ticketRec t 4 2 unit code detail (releaseEntries t d))

/-- An abort that no unit raises as a fault of its own (R505): its Errata entry, without a capture. -/
def abortTask (t : Ticket) (code : BitVec 16) (unit : BitVec 32) (d : Device) : Device :=
  let ctx : Ctx := { phase := 3 }
  match t.abort with
  | some _ => d
  | none =>
    beginAbort t.slot code unit ctx none
      (errataEntry 2 unit t.id code (ctxDetail code ctx false false 0 0) d)

/-- The detail of the ABORTED record of a ticket without a task (R490, R503): its ring, or the context detail of a code of
area 0Ah, in which no task aborts. -/
def unstartedDetail (d : Device) (t : Ticket) (code : BitVec 16) (unit : BitVec 32) : BitVec 256 :=
  if code = 0x0103 || code = 0x0704 then ringDetail t else ctxDetail 0 { phase := 3 } false false (stepOf d unit) 0

/-- End a ticket that has begun by its task's abort, any other one at once (R481, R513). -/
def abortTicket (t : Ticket) (code : BitVec 16) (unit : BitVec 32) (d : Device) : Device :=
  if t.started then abortTask t code unit d else abortUnstarted t code unit (unstartedDetail d t code unit) d

/-- Step 4 of an abort (R506): TASK_CONTEXT, the reservations, the ABORTED record, and the compositors. -/
def finishAbort (t : Ticket) (a : AbortSt) (d : Device) : Device :=
  let d := errataEntry 1 a.unit t.id 0x0A10 (ctxDetail a.code a.ctx false false (stepOf d a.unit) a.secondaries) d
  let fs := taskFormes d t.slot
  let d := releaseEntries t d
  let d := ticketRec t 4 2 a.unit a.code (abortedDetail d t a) d
  dropTicket t.slot (fs.foldl freeForme d)

/-- The entries that end with their ticket: all but WAKE, which its span and margin end (R48). -/
def endedEntries (d : Device) (t : Ticket) : List Nat :=
  t.entries.filter fun i => fieldN (smapGet 0 d.mkr.table i) 95 92 ≠ 6

/-- The ticket completes: its entries are released and COMPLETED is posted (R48, R489, R490). -/
def completeTicket (t : Ticket) (d : Device) : Device :=
  let d := (endedEntries d t).foldl (fun d i => freeEntry i d) d
  dropTicket t.slot
    (ticketRec t 3 0 unitMk 0 (dput 32 t.promise (dput 40 d.sheet (ringDetail t))) d)

/-- A promise is broken: one record for each ticket (R52, R490). -/
def breakPromise (t : Ticket) (unit : BitVec 32) (d : Device) : Device :=
  if t.broken then d
  else
    let d := modMk (fun m => { m with broken := satAdd m.broken 1 }) d
    let d := modTicket t.slot (fun t => { t with broken := true, brokenUnit := unit }) d
    let d := ticketRec t 5 2 unit 0x0113 (dput 32 t.promise (dput 40 (b2n t.abortOnBreak) 0)) d
    if t.abortOnBreak then abortTask t 0x0113 unit d else d

end Sys2Proof.Machine
end

