-- ==== Sys2Proof/Machine/PowerOps.lean ====
section
/-!
DEFINITION. Machine/PowerOps.lean: the power domains: which are on in each state, what holds one on, what one loses when
it goes off, the wake governor's queue, wakes from Stand, and the effective power budget
(15_power.md R524 to R546; 01 R45, R53; 16 R564).
-/
namespace Sys2Proof.Machine

/-! ## Kinds of domain (R5, R538, R539) -/

inductive DomKind where
  | press (p : Nat)
  | forme (f : Nat)
  | stack (n : Nat)
  | quad (q : Nat)
  | region (r : Nat)
  | host
  | conf
  | bridge
  deriving DecidableEq, Repr

def domKind (n : Nat) : DomKind :=
  if n < 128 then .press n
  else if n < 144 then .forme (n - 128)
  else if n < 152 then .stack (n - 144)
  else if n < 176 then .quad (n - 152)
  else if n < 200 then .region (n - 176)
  else if n = 200 then .host
  else if n = 201 then .conf
  else .bridge

def domCost (n : Nat) : Nat :=
  match domKind n with
  | .stack _ => 4 | .bridge => 2 | .forme _ => 2 | .press _ => 1 | .quad _ => 1 | .region _ => 2 | .host => 2 | .conf => 2

def domRamp (n : Nat) : Nat :=
  match domKind n with
  | .stack _ => 512 | .bridge => 256 | .forme _ => 512 | .press _ => 256 | .quad _ => 256 | .region _ => 512
  | .host => 1024 | .conf => 1024

/-- The figure of R539: the wake latency plus 16 points, rounded up; `gap` is CF_RELEASE_GAP in reference cycles. -/
def domFigure (gap n : Nat) : Nat :=
  match domKind n with
  | .stack _ => 2576 | .bridge => 272 | .forme _ => 4624 | .press _ => 784 | .quad _ => 272
  | .region _ => 528 + (128 * gap + 24) / 25
  | .host => 1040 | .conf => 1040

/-- The entry reserves domain `n`. -/
def entryDomain (e : BitVec 128) (n : Nat) : Bool :=
  eAction e ≠ 7 &&
  match eClass e with
  | 0 => decide (n = 128 + eIndex e) || (decide (n / 8 = eIndex e) && decide (n < 128) && (eQty e).testBit (n % 8))
  | 1 => n = 144 + eIndex e
  | 2 => n = 152 + eIndex e
  | 3 => n = 202 + eIndex e
  | 4 => n = 200
  | 6 => n = eIndex e
  | _ => false

/-- A ticket's reservation in the table needs the domain; system entries hold none (R535). -/
def domainReserved (d : Device) (n : Nat) : Bool :=
  d.mkr.table.any fun ie => eSlot ie.2 ≠ 0xFFF && entryDomain ie.2 n

/-! ## Which domains are on (R527, R534, R535, R564) -/

/-- Gated by host software, disabled under R564, or failed under R526; a press that is offline (R513). -/
def domainGated (d : Device) (n : Nat) : Bool :=
  match domKind n with
  | .press p => bit d.errata.offline p
  | .quad q =>
    (domain d n).failed || bit d.power.gateQuad q
      || ((quad d q).mode = 1 && !bit d.trust.store.enForron q)
      || ((quad d q).mode = 2 && !bit d.trust.store.enFount q)
  | .region r => (domain d n).failed || bit d.power.gateRegion r || !bit d.trust.store.enRegion r
  | _ => (domain d n).failed

/-- A press that is gatable in a state. -/
def gatable (d : Device) (st : PwState) (p : Nat) : Bool :=
  match st with
  | .run => false
  | .trim => bit (vgetN 0 d.power.trimMask (p / 32)) (p % 32)
  | _ => true

/-- The state wants the domain on, whether or not anything is reserved. -/
def domainWanted (d : Device) (st : PwState) (n : Nat) : Bool :=
  let awake := st = .run || st = .trim || st = .idle
  domainPresent d.part n && !domainGated d n &&
  match domKind n with
  | .press p => awake && !gatable d st p
  | .forme _ => awake
  | .stack _ => awake
  | .quad q => awake || (st = .stand && (quad d q).mode = 1)
  | .region _ => awake
  | .host | .conf | .bridge => st ≠ .deep

/-- The state wants the domain off now (R527, R534). -/
def domainUnwanted (d : Device) (st : PwState) (n : Nat) : Bool :=
  match domKind n with
  | .press p =>
    bit d.errata.offline p || !domainPresent d.part n || st = .stand || st = .deep
      || (gatable d st p && !domainReserved d n)
  | _ => !domainWanted d st n

/-- A load binds the region, or a capture of it is armed, copying or held (R451, R535). -/
def regionBusy (d : Device) (r : Nat) : Bool :=
  (match d.cf.load with
    | some l => l.full || (l.accepted && bit l.bound r)
    | none => false)
  || bit d.cf.capHeld r

/-- A switch-off of the domain is held (R535); the power cycle of R512 does not ask. -/
def domainHeld (d : Device) (n : Nat) : Bool :=
  domainReserved d n ||
  match domKind n with
  | .region r => regionBusy d r
  | .press p => match (press d p).recovery.state with
    | .inService | .offline => false
    | _ => true
  | _ => false

/-! ## The governor's queue (R538) -/

def domainQueued (d : Device) (n : Nat) : Bool := d.power.queue.any (·.1 = n)

/-- Ask for a domain: at the back of the queue, or at its front for a power cycle (R512). -/
def govRequest (n : Nat) (front : Bool) (d : Device) : Device :=
  let r := (n, domCost n)
  modPower (fun w => { w with queue := if front then r :: w.queue else w.queue ++ [r] }) d

/-- Take a request for the domain out of the governor's queue. -/
def dropRequest (n : Nat) (d : Device) : Device := modPower (fun w => { w with queue := w.queue.filter (·.1 ≠ n) }) d

/-- The press's power cycle is in progress (R512). -/
def pressCycling (d : Device) (n : Nat) : Bool :=
  match domKind n with
  | .press p => (press d p).recovery.state = .powerCycling
  | _ => false

/-- Ask for a domain that is off and may come on. A press in a power cycle is asked for by the cycle alone (R512). -/
def wakeDomain (d : Device) (n : Nat) : Device :=
  if (domain d n).dstate = .on || (domain d n).dstate = .waking || domainQueued d n || domainGated d n
      || pressCycling d n || !domainPresent d.part n then d
  else govRequest n false d

/-- Bring one domain toward what the state in force and the gates want of it. -/
def settleDomain (d : Device) (n : Nat) : Device :=
  if d.power.change.isSome then d
  else if (domain d n).dstate = .on then
    if domainUnwanted d d.power.state n then
      if domainHeld d n then modDomain n (fun x => { x with held := true }) d
      else modDomain n (fun x => { x with held := false, dstate := .goingOff }) d
    else modDomain n (fun x => { x with held := false }) d
  else if (domain d n).dstate = .off && domainWanted d d.power.state n then wakeDomain d n
  else d

/-- The order in which one state change asks for domains (R538). -/
def govOrder : List Nat :=
  rangeFrom 144 8 ++ [202, 203] ++ rangeFrom 128 16 ++ rangeFrom 0 128 ++ rangeFrom 152 24 ++ rangeFrom 176 24
    ++ [200, 201]

/-- Bring every domain toward what is wanted of it. -/
def settleDomains (d : Device) : Device := govOrder.foldl settleDomain d

/-! ## What a domain loses (R525) -/

/-- The press after its galley, banks, lanes and queue are gone; what a press reset keeps is kept. -/
def stopClear (x : Press) : Press :=
  let pl (p : Platen) : Platen := { p with bank0 := {}, bank1 := {}, passes := [], drain := none, fault := false }
  { x with queue := [], plA := pl x.plA, plB := pl x.plB, inkOp := none, jusOp := none, opens := [],
           transfers := [], ftransfers := [], pools := Vector.replicate 2 {}, chaseSide := false, pressWait := false,
           preempt := .none, fmt := { x.fmt with rnd := 0, ovf := 0, nan := false },
           ink := { x.ink with lanes := [], k1 := 0, k2 := 0, k3 := 0, satLimit := 0xFF, vanLimit := 0x40,
                               fallback := 0x88553332 } }

/-- The forme after its compositor, tokens, pools and memories are gone. -/
def formeClear (x : Forme) : Forme :=
  { x with state := .off, regs := {}, imem := {}, xmem := {}, ymem := {}, case := {},
           tokens := Vector.replicate 64 0, pools := Vector.replicate 8 {}, pend := [], task := none, pmask := 0,
           filling := true }

/-- The link layer of a quad that has lost its state; its configuration registers, tables and counters are kept. -/
def quadClear (x : Quad) : Quad :=
  { x with state := .down, laneLock := 0, stream := [], peerInc := 0, lastTrain := none, trainRun := 0, seen := false, expSeq := 0,
           nextSeq := 0, retryBuf := [], waitSend := [], credCtl := 64, credData := 64, retCtl := 0, retData := 0,
           anyAcc := false, nakDue := false, naked := false, rounds := 0 }

/-- The lanes of a quad that changes its mode or goes off have recovered no clock and hold no word (R417, R525). -/
def emptyLanes (q : Nat) : Device → Device :=
  modFount fun f => { f with cdrLock := vmodN f.cdrLock q fun _ => 0,
                             elastic := (List.range 4).foldl (fun a k => vmodN a (4 * q + k) fun _ => {}) f.elastic }

/-- A region that waits to be released after its wake waits no longer. -/
def dropWoken (r : Nat) (c : Conf) : Conf :=
  if bit c.wokenNext r then { c with wokenNext := setField c.wokenNext r r 0, held := setField c.held r r 0 } else c

/-- What a domain loses as it goes off, into `st` (R525). -/
def loseDomain (n : Nat) (st : DState) (d : Device) : Device :=
  match domKind n with
  | .press p => modPress p (fun x => { stopClear x with galley := {} }) d
  | .forme f => modForme f formeClear d
  | .stack s => modStack s (fun x =>
      { x with coal := [], buses := Vector.replicate 32 {}, refreshed := 0,
               state := match st with
                 | .partialRefresh => .partialRefresh
                 | .selfRefresh => .selfRefresh
                 | _ => .off }) d
  | .quad q => dropSending (quad d q).waitSend (dropReceived q (emptyLanes q (modQuad q quadClear d)))
  | .region r =>
    let d := modFount (fun f => { f with flops := f.flops.filter fun e => e.1 / 96 ≠ r,
                                         pins := if r % 3 = 0 then vmodN f.pins (r / 3) fun _ => {} else f.pins }) d
    modCf (fun c => dropWoken r { c with ram := c.ram.filter fun e => e.1 / 1536 ≠ r,
                                         pinOpen := if r % 3 = 0 then setField c.pinOpen (r / 3) (r / 3) 1 else c.pinOpen }) d
  | _ => d

/-- Armed pad banks of a region latch as it goes off (R542): bank GBb belongs to FN(3b). A bank without its supply holds
nothing (R580). -/
def latchPads (n : Nat) (d : Device) : Device :=
  match domKind n with
  | .region r =>
    if r % 3 = 0 && bit d.power.padArm (r / 3) && bit d.power.vccio (r / 3) then
      modPower (fun w => { w with padHeld := setField w.padHeld (r / 3) (r / 3) 1,
                                  pads := vmodN w.pads (r / 3) fun _ => padLatch d (r / 3) }) d
    else d
  | _ => d

/-- A domain is off: pads latched, state lost (R525, R542). -/
def domainOff (n : Nat) (st : DState) (d : Device) : Device :=
  let d := loseDomain n st (latchPads n d)
  modDomain n (fun x => { x with dstate := st, held := false, ramp := none, partialNext := false }) d

/-- A stack's controller has completed every queued request (R293): none waits for a command bus. -/
def stackEmpty (d : Device) (n : Nat) : Bool := (stack d (n - 144)).queues.all (·.waiting.isEmpty)

/-- A stack's controller completes what it holds before it goes off: its merge buffer is flushed (R293). -/
def finishStack (n : Nat) (d : Device) : Device := (flushMem (.hbm (n - 144)) 0xFF 0x1000 d).1

/-- The domain of a stack goes to a state of self-refresh (R38), once its controller has completed what it holds; until then it
is Going off (R293). -/
def restStack (n : Nat) (st : DState) (d : Device) : Device :=
  let d := finishStack n d
  if stackEmpty d n then domainOff n st d
  else modDomain n (fun x => { x with dstate := .goingOff, held := false, ramp := none, partialNext := st = .partialRefresh }) d

/-! ## Records of area 08h (R546) -/

structure PwDetail where
  cause  : Nat := 0
  level  : Nat := 0
  src    : Nat := 0xFF
  dst    : Nat := 0xFF
  points : Nat := 0
  old    : Nat := 0
  new    : Nat := 0
  domain : Nat := 0xFFFF
  req    : Nat := 0
  deriving DecidableEq, Repr

def pwDetail (x : PwDetail) : BitVec 256 :=
  dput 32 x.cause <| dput 33 x.level <| dput 34 x.src <| dput 35 x.dst <| dput 36 x.points <| dput 40 x.old <|
  dput 42 x.new <| dput 44 x.domain <| dput 46 x.req 0

def pwCode : PwState → Nat
  | .run => 0 | .trim => 1 | .idle => 2 | .stand => 3 | .deep => 4

def pwReq : PwRequester → Nat
  | .host => 0 | .d3hot => 1 | .sideband => 2 | .makeready => 3 | .powerUnit => 4 | .recovery => 5

/-! ## The effective budget (R53, R543) -/

/-- The budget at absolute point `p` for a candidate evaluated at `now`: a lower budget counts at once at and after its
sheet, a higher one only once its sheet has begun. -/
def budgetAt (m : Makeready) (now p : Nat) : Nat :=
  m.throttles.foldl (fun b r =>
    if 4096 * r.sheet ≤ p && (r.budget ≤ b || 4096 * r.sheet ≤ now) then r.budget else b) m.effBase

/-- MK_POWER_BUDGET.effective as it reads now. -/
def effectiveNow (d : Device) : Nat := budgetAt d.mkr d.now d.now

/-- The budget that the newest request asks for. -/
def budgetAsked (m : Makeready) : Nat := m.throttles.foldl (fun _ r => r.budget) m.effBase

/-- The least of the values in force (R543). -/
def leastBudget (d : Device) : Nat :=
  let w := d.power
  let b := d.mkr.budget.toNat
  let b1 := match w.applied with | some x => min b x.toNat | none => b
  let b2 := if w.pinLow then min b1 w.pinBudget.toNat else b1
  if w.tempHot then min b2 (3 * d.mkr.budget.toNat / 4) else b2

/-- After a change of one of the values: a throttle request where the least value has changed. `lead` is how many sheets
ahead it takes effect. -/
def rebudget (cause lead : Nat) (req : PwRequester) (d : Device) : Device :=
  let old := budgetAsked d.mkr
  let new := leastBudget d
  if old = new then d
  else
    let live := d.mkr.throttles.filter fun r => d.now < 4096 * r.sheet
    let base := budgetAt d.mkr d.now d.now
    let d := modMk (fun m => { m with effBase := base, throttles := live ++ [⟨new, d.sheet + lead⟩] }) d
    logPlain unitPower 0x0804
      (pwDetail { cause := cause, old := old, new := new, req := pwReq req }) d

/-! ## Emergency clock stretch (R544, R545) -/

/-- The level in force: the highest that a cause demands. -/
def stretchLevel (w : Power) : Nat :=
  if w.tempLevel then 3 else if w.alert then 2 else if w.droop || w.powerOver then 1 else 0

/-- The causes in force, as PW_STRETCH's detail numbers them (R546). -/
def stretchCauses (w : Power) : BitVec 8 :=
  BitVec.ofNat 8 (b2n w.droop + 2 * b2n w.powerOver + 4 * b2n w.alert + 8 * b2n w.tempLevel)

/-- The press has work (R263). -/
def pressHasWork (x : Press) : Bool :=
  let busy (y : Platen) : Bool := y.passes ≠ [] || y.drain.isSome
  x.queue ≠ [] || busy x.plA || busy x.plB || x.inkOp.isSome || x.jusOp.isSome
    || x.transfers ≠ [] || x.ftransfers ≠ []

/-- A point passes under a stretch: every press with work loses `level` of its 4 cycles (R263, R545). -/
def stretchPoint (d : Device) : Device :=
  let level := stretchLevel d.power
  if level = 0 then d
  else { d with presses := d.presses.map fun x =>
      if pressHasWork x then { x with stalls := { x.stalls with throttle := satAdd x.stalls.throttle level } } else x }

/-! ## Bias and assist (R540) -/

/-- A code that was clamped is logged. -/
def logClamp (st : PwState) (clamped : Bool) (d : Device) : Device :=
  if clamped then logPlain unitPower 0x0806 (pwDetail { dst := pwCode st, req := 4 }) d else d

/-- Apply the codes of a state, the body bias in bits 7 to 0 and the SRAM assist in bits 9 and 8, each clamped by Foreman. -/
def applyBias (st : PwState) (d : Device) : Device :=
  let raw := vgetN 0 d.trust.store.power (pwCode st)
  let code := Config.biasClamp (pwCode st) raw
  let d := modPower (fun w => { w with bias := field code 7 0, assist := field code 9 8 }) d
  logClamp st (fieldN code 9 8 ≠ fieldN raw 9 8) (logClamp st (fieldN code 7 0 ≠ fieldN raw 7 0) d)

/-! ## Wakes (R532, R533) -/

/-- The wake is complete: every domain that the target state wants is on (R531). -/
def wakeComplete (d : Device) (c : PwChange) : Bool :=
  govOrder.all fun n => !domainWanted d c.target n || (domain d n).dstate = .on

/-- End a wake that is complete. -/
def wakeCheck (d : Device) : Device :=
  match d.power.change with
  | some c =>
    if c.wake && wakeComplete d c then modPower (fun w => { w with state := c.target, change := none }) d else d
  | none => d

/-- Begin the wake from Stand to `target`. -/
def beginWake (source : Nat) (target : PwState) (req : PwRequester) (d : Device) : Device :=
  let d := modPower (fun w => { w with change := some ⟨target, req, true, 0⟩, wakeSource := BitVec.ofNat 4 source,
                                       latched := none }) d
  let d := applyBias target d
  let d := (govOrder.filter (domainWanted d target)).foldl wakeDomain d
  wakeCheck d

/-- The state that a wake returns to (R532). -/
def wakeTarget (d : Device) : PwState :=
  match d.power.wakeTo with
  | 0 => .run | 1 => .trim | _ => .idle

/-- A wake event: it ends Stand, or is latched while entry is in progress; in any other state it does nothing
(R532, R533). Deep is left by a device reset, which `Machine/Reset.lean` gives. -/
def wakeEvent (source : Nat) (asked : Option PwState) (req : PwRequester) (d : Device) : Device :=
  match d.power.change with
  | some c =>
    if !c.wake && (c.target = .stand || (c.target = .deep && source = 1)) && d.power.latched.isNone then
      modPower (fun w => { w with latched := some (BitVec.ofNat 4 source, asked) }) d
    else d
  | none =>
    if d.power.state = .stand then beginWake source (asked.getD (wakeTarget d)) req d else d

/-- A domain's wake is complete: it is On (R526, R531, R538). -/
def domainUp (n : Nat) (d : Device) : Device :=
  settleDomain (wakeCheck (modDomain n (fun x => { x with dstate := .on, ramp := none }) d)) n

/-! ## Entries of the Imposition Table (R36, R37) -/

def getEntry (d : Device) (i : Nat) : BitVec 128 := smapGet 0 d.mkr.table i
def modEntry (i : Nat) (g : BitVec 128 → BitVec 128) (d : Device) : Device :=
  modMk (fun m => { m with table := smapMod 0 m.table i g }) d

/-- The ticket of `slot` holds forme `f`: one of its START or HOLD reservations has begun and not ended (R39, R48). -/
def formeHeld (d : Device) (slot f : Nat) : Bool :=
  d.mkr.table.any fun ie =>
    let e := ie.2
    eSlot e = slot && (eAction e = 1 || eAction e = 8) && eClass e = 0 && eIndex e = f && eFired e

/-- The LINK_RETRY margin of the ticket's windows of an action, a class and one of these indexes, with this arg: the largest,
where several quads carry the port (R47, R345, R354, R364). -/
def windowMargin (d : Device) (slot action cls : Nat) (idx : List Nat) (arg : Nat) : Nat :=
  d.mkr.table.foldl (fun m ie =>
    let e := ie.2
    if eSlot e = slot && eAction e = action && eClass e = cls && idx.contains (eIndex e) && eArg e = arg && eMclass e = 1
    then max m (eMargin e) else m) 0

end Sys2Proof.Machine
end

