-- ==== Sys2Proof/Machine/ChaseOps.lean ====
section
/-!
DEFINITION. Machine/ChaseOps.lean: pools of the chase, receive space, the grants that it allows and the services of windows
(07_galleys_and_chase.md R253 to R259; 11 R408 to R410).
-/
namespace Sys2Proof.Machine

/-! ## Pools (R253, R254) -/

/-- The pools of an endpoint. -/
def epPools : Ep → Nat
  | .galley _ => 2
  | .case _ => 8
  | _ => 0

def getPool (d : Device) (e : Ep) (k : Nat) : Pool :=
  match e with
  | .galley p => vgetN {} (press d p).pools k
  | .case f => vgetN {} (forme d f).pools k
  | _ => {}

def modPool (e : Ep) (k : Nat) (g : Pool → Pool) (d : Device) : Device :=
  match e with
  | .galley p => modPress p (fun x => { x with pools := vmodN x.pools k g }) d
  | .case f => modForme f (fun x => { x with pools := vmodN x.pools k g }) d
  | _ => d

/-- An address of a pool's ring, `k` bytes on from `a`. -/
def poolNext (q : Pool) (a k : Nat) : Nat := if q.size = 0 then a else q.base + (a - q.base + k) % q.size

/-! ## Receive space and grants (R257, R258) -/

/-- The ingress buffer of an endpoint (R258). -/
def ingressBytes : Ep → Nat
  | .galley _ => 0x8000
  | .case _ => 0x20000
  | .comp _ => 0x2000
  | .hbm _ | .hbmAddr => 0x40000
  | .quad _ | .region _ => 0x8000
  | .host => 0x40000
  | _ => 0

/-- Bytes of the ingress buffer of endpoint `dst` that are granted and not yet committed. -/
def ingressUsed (d : Device) (dst : Nat) : Nat :=
  (d.chase.rx.filter fun c => c.dst = dst && c.granted && c.pool.isNone && !c.committed).foldl (fun a c => a + c.len) 0

/-- A region delivers nothing of its own: it is loading, gated or unconfigured (R402, R410, R418). -/
def regionSilent (d : Device) (r : Nat) : Bool :=
  !domainOn d (176 + r) || !bit d.cf.regions r || bit d.cf.held r

/-- The port of a region grants nothing and presents nothing: the region is silent, or its port is isolated (R410). -/
def regionShut (d : Device) (r : Nat) : Bool := regionSilent d r || crossIsolated d r crossPort

/-- The region whose port an endpoint is, and the channel (R408). -/
def epPort : Ep → Option (Nat × Nat)
  | .quad q => some (q, 1)
  | .region r => some (r, 0)
  | _ => none

/-- The receiver grants nothing now. -/
def epShut (d : Device) (e : Ep) : Bool :=
  !epAwake d e || (match epPort e with
    | some (r, _) => regionShut d r
    | none => false)

/-- The whole chunk fits (R254, R257). -/
def rxFits (d : Device) (c : RxChunk) : Bool :=
  match c.pool with
  | none => ingressUsed d c.dst + c.len ≤ ingressBytes (epOf c.dst)
  | some k => let q := getPool d (epOf c.dst) k; q.isOpen && c.len ≤ q.free

/-- One chunk at a receiver: its destination, the source endpoint of its header, its tag, and the initiator whose tag it
is. -/
def rxIs (dst src : Nat) (tag : BitVec 12) (init : Nat) (c : RxChunk) : Bool :=
  c.dst = dst && c.src = src && c.tag = tag && c.init = init

def rxSame (c k : RxChunk) : Bool := rxIs c.dst c.src c.tag c.init k

def modRx (c : RxChunk) (g : RxChunk → RxChunk) (d : Device) : Device :=
  modChase (fun x => { x with rx := modWhere (rxSame c) g x.rx }) d

def dropRx (c : RxChunk) (d : Device) : Device :=
  modChase (fun x => { x with rx := x.rx.filter fun k => !rxSame c k }) d

/-! ## Chunk services (R259) -/

/-- A stack, by its number, and the host link, 8, share their services among windows. -/
def serviceIndex : Ep → Option Nat
  | .hbm n => some n
  | .host => some 8
  | _ => none

/-- The window of the transfer of initiator `p` that holds a tag: its ticket's slot and the window's number. -/
def chunkKey (d : Device) (p : Nat) (tag : BitVec 12) : Nat × Nat :=
  if p < 128 then
    match (press d p).transfers.find? fun t => t.chunks.any (·.tag = tag) with
    | some t => (t.entry.slot, t.window)
    | none => (0x1000, 0)
  else (0x1000, 0)

/-- A chunk service: a grant, or the answer to a READ. -/
def noteService (e : Ep) (key : Nat × Nat) (d : Device) : Device :=
  match serviceIndex e with
  | none => d
  | some k => modChase (fun x => { x with served := vmodN x.served k fun l => (key :: l).take 15 }) d

/-- The open windows at a stack or the host link that have one of the keys, with their entries, in the order of their points. -/
def windowsOf (d : Device) (e : Ep) (keys : List (Nat × Nat)) : List ((Nat × Nat) × BitVec 128) :=
  let here (x : BitVec 128) : Bool := match e with
    | .hbm n => eClass x = 1 && eIndex x = n
    | _ => eClass x = 4
  let l := (d.mkr.table.filter fun ie =>
    eAction ie.2 = 2 && here ie.2 && eFired ie.2 && decide (d.now < entryEnd d ie.2)
      && keys.contains (eSlot ie.2, eArg ie.2)).map fun ie => ((eSlot ie.2, eArg ie.2), ie.2)
  l.mergeSort fun a b => decide (entryTime d a.2 ≤ entryTime d b.2)

/-- Grant a chunk that fits: its place in a pool, then GRANT to the sender of a push or READ to the source of a pull
(R254 to R256). -/
def grantChunk (c : RxChunk) (d : Device) : Device :=
  let a := match c.pool with
    | none => c.addr
    | some k => (getPool d (epOf c.dst) k).tail
  let d := match c.pool with
    | none => d
    | some k => modPool (epOf c.dst) k (fun q => { q with tail := poolNext q q.tail c.len, free := q.free - c.len }) d
  let ring := match c.pool with
    | none => (0, 0)
    | some k => let q := getPool d (epOf c.dst) k; (q.base, q.size)
  let d := modRx c (fun k => { k with granted := true, addr := a, ring := ring }) (noteService (epOf c.dst) (chunkKey d c.init c.tag) d)
  match c.pull with
  | some (src, sa) =>
    chaseSend { type := 2, dst := src, src := c.init, tag := c.tag, len := c.len, addr := sa, stream := c.stream,
                slot := c.slot, init := c.init, rcv := c.dst } d
  | none =>
    chaseSend { type := 1, dst := c.src, src := c.dst, tag := c.tag, len := c.len, addr := a, pool := c.pool,
                stream := c.stream, slot := c.slot, init := c.init } d

/-- A window claims the next service: in the last 15 it has had fewer than its entry's qty (R259). -/
def windowDue (d : Device) (k : Nat) (key : Nat × Nat) (e : BitVec 128) : Bool :=
  decide (((vgetN [] d.chase.served k).filter (· = key)).length < eQty e)

/-- The chunks at a receiver that wait for a grant. -/
def ungranted (d : Device) (dst : Nat) : List RxChunk := d.chase.rx.filter fun c => c.dst = dst && !c.granted

/-! ## Requests to host memory (R464) -/

/-- Cut a range of host memory at multiples of 512; `fuel` bounds the pieces. -/
def hostPieces : Nat → Nat → Nat → List (Nat × Nat)
  | 0, _, _ => []
  | fuel + 1, a, n =>
    if n = 0 then []
    else
      let k := min n (512 - a % 512)
      (a, k) :: hostPieces fuel (a + k) (n - k)

/-- The requests that a range takes: at most 512 bytes each. -/
def hostRequests (a n : Nat) : List (Nat × Nat) := hostPieces (n / 512 + 2) a n

/-- Read requests of the part that host memory has not answered: ticket reads and pulls. -/
def hostReads (d : Device) : Nat :=
  b2n d.host.reading.isSome + (d.chase.hostPulls.map fun m => (hostRequests m.addr m.len).length).foldl (· + ·) 0

/-- A pull of `n` bytes at an aperture offset can be issued: the link is up, PF1 may read, and with it at most 256 requests are
outstanding. -/
def hostReadable (d : Device) (a n : Nat) : Bool :=
  d.host.linkUp && d.host.busMaster && hostReads d + (hostRequests a n).length ≤ 256

/-- A READ at a stack or at the host link that can be answered now. -/
def readWaits (d : Device) (dst : Nat) (m : ChaseMsg) : Bool :=
  m.type = 2 && m.dst = dst && match epOf dst with
    | .hbm s => (stack d s).state = .ready && !hbmWaits d m.addr m.len
    | .host => hostReadable d m.addr m.len
    | _ => false

/-- The windows with chunks waiting at a stack or the host link: for a grant, or for the answer to a READ (R259). -/
def waitingKeys (d : Device) (dst : Nat) : List (Nat × Nat) :=
  ((ungranted d dst).map fun c => chunkKey d c.init c.tag)
    ++ ((d.chase.flight.filter (readWaits d dst)).map fun m => chunkKey d m.init m.tag)

/-- An open window with chunks waiting claims the next service of stack `n`: a request through the HBM window waits (R472). -/
def stackClaimed (d : Device) (n : Nat) : Bool :=
  (windowsOf d (.hbm n) (waitingKeys d (0xA0 + n))).any fun w => windowDue d n w.1 w.2

/-- The open window that the next service of a stack or of the host link goes to: the first, in the order of the entries'
points, that claims it; else the first with chunks waiting (R259). -/
def nextWindow (d : Device) (dst k : Nat) : Option ((Nat × Nat) × BitVec 128) :=
  let ws := windowsOf d (epOf dst) (waitingKeys d dst)
  (ws.find? fun w => windowDue d k w.1 w.2).orElse fun _ => ws.head?

/-- The request that a receiver grants next (R257, R259): at a stack and at the host link, that of the window to which the next
service goes, and none while that window waits for the answer to a READ alone; a request whose window is not open by its arrival.
At any other receiver the request that arrived first. -/
def nextGrant (d : Device) (dst : Nat) : Option RxChunk :=
  let l := ungranted d dst
  match serviceIndex (epOf dst) with
  | none => l.head?
  | some k => match nextWindow d dst k with
    | some w => l.find? fun c => chunkKey d c.init c.tag = w.1
    | none => l.head?

/-- It is a READ's turn to be answered (R259). -/
def readTurn (d : Device) (m : ChaseMsg) : Bool :=
  match serviceIndex (epOf m.dst) with
  | none => true
  | some k => match nextWindow d m.dst k with
    | some w => chunkKey d m.init m.tag = w.1
    | none => true

/-- Grant the requests at one receiver while the next one fits; a request that waits holds up those behind it (R257). -/
def grantAt (dst : Nat) : Nat → Device → Device
  | 0, d => d
  | fuel + 1, d =>
    match nextGrant d dst with
    | none => d
    | some c => if !epShut d (epOf dst) && rxFits d c then grantAt dst fuel (grantChunk c d) else d

/-- Grant what fits at every receiver, the receivers in the order of their first requests. -/
def settleGrants (d : Device) : Device :=
  let l := (d.chase.rx.filter (!·.granted)).map (·.dst)
  l.eraseDups.foldl (fun d dst => grantAt dst l.length d) d

end Sys2Proof.Machine
end

