-- ==== Sys2Proof/Machine/ForronRx.lean ====
section
/-!
DEFINITION. Machine/ForronRx.lean: the receiving side of the Forron transport where it meets the chase
(09_forron_link.md R349, R350, R353), and the sequence engines' collectives as far as they grant (R361 to R364).
-/
namespace Sys2Proof.Machine

/-- Payload bytes 28 to 45 of a GRANT or a RECEIPT (R350). -/
def flReplyBytes (status cause value : Nat) (stream : BitVec 12) (chunk : Nat) : List Byte :=
  leBytes 1 status ++ leBytes 1 cause ++ bytesOf 2 0 ++ leBytes 8 value ++ flTail stream chunk

/-- A GRANT (type 2) or a RECEIPT (type 4) for a chunk at its receiver. -/
def flReply (d : Device) (mtype status cause value : Nat) (x : FRx) : FMsg :=
  { mtype := mtype, tag := x.tag, src := x.src, dst := x.dst, sinc := d.forron.inc, pinc := x.sinc,
    payload := flReplyBytes status cause value x.stream x.chunk }

/-- Answer the sender of a chunk, by the origin table of the die that answers: an engine's own, or that of the port at which a
controller took the RESERVE (R360). -/
def flAnswer (mtype status cause value : Nat) (x : FRx) (d : Device) : Device :=
  (originate ((frxDie x).getD (x.port / 12)) x.chunk (flReply d mtype status cause value x) d).1

/-- Press Time at which grant_hold will have passed, as FL_CTRL has it now; 0 acts as 1 (R354, R371, R372). -/
def holdDue (d : Device) : Nat := d.now + max 1 d.forron.grantHold.toNat

/-- One chunk at a Forron receiver: its sender and its tag (R349). -/
def frxIs (src : BitVec 27) (tag : BitVec 12) (x : FRx) : Bool := x.src = src && x.tag = tag
def frxSame (x y : FRx) : Bool := frxIs x.src x.tag y

def modFrx (x : FRx) (g : FRx → FRx) (d : Device) : Device :=
  modForron (fun f => { f with rx := modWhere (frxSame x) g f.rx }) d
def dropFrx (x : FRx) (d : Device) : Device :=
  modForron (fun f => { f with rx := f.rx.filter fun y => !frxSame x y }) d

/-- The chunk that a controller pushes under a chase tag. -/
def frxOfTag (d : Device) (port : Nat) (ctag : BitVec 12) : Option FRx :=
  d.forron.rx.find? fun x => x.port = port && x.ctag = ctag

/-- The chase GRANT of a controller's push has come: GRANT to the Forron sender (R353). -/
def forronGranted (x : FRx) (addr : Nat) (d : Device) : Device :=
  let due := holdDue d
  flAnswer 2 0 0 addr x (modFrx x (fun x => { x with granted := true, holdBy := due, addr := addr }) d)

/-- The chase ACK of a controller's push has come: RECEIPT with the tally of the bytes passed on (R353). -/
def forronAcked (x : FRx) (good : Bool) (d : Device) : Device :=
  flAnswer 4 (if good then 0 else 1) 0 (tally x.data).toNat x (dropFrx x d)

/-! ## Collectives (R361 to R364) -/

/-- Steps in all: n - 1, or both phases of an all-reduce, which the model numbers on through both. -/
def colSteps (c : Collective) : Nat := if colOp c = 2 then 2 * (c.n - 1) else c.n - 1

/-- Step `t` belongs to the reduce-scatter. -/
def colReduces (c : Collective) (t : Nat) : Bool := colOp c = 0 || (colOp c = 2 && t < c.n - 1)

/-- The segment that step `t` sends; the step receives the one before it in the ring (R363). -/
def colSends (c : Collective) (t : Nat) : Nat :=
  if colReduces c t then (c.i + c.n - t % c.n) % c.n
  else
    let u := if colOp c = 2 then t - (c.n - 1) else t
    (c.i + 1 + c.n - u % c.n) % c.n
def colReceives (c : Collective) (t : Nat) : Nat := (colSends c t + c.n - 1) % c.n

/-- First byte and length of segment `s` within the buffer. -/
def colSegment (c : Collective) (s : Nat) : Nat × Nat :=
  let u := colElems c / 16
  let a := s * u / c.n
  let b := (s + 1) * u / c.n
  (64 * a, 64 * (b - a))

/-- Chunks of a segment, cut at 4 KiB boundaries of the offset in the buffer (R251, R363). -/
def colChunks (c : Collective) (s : Nat) : List (Nat × Nat) :=
  let (a, n) := colSegment c s
  granules (n / 4096 + 2) a n

/-- The step of the receiving engine's collective that a RESERVE is for, where it agrees with it: its source, ring, number, op,
step, place and length (R364). -/
def colStepOf (c : Collective) (x : FRx) : Option Nat :=
  let b0 := leAt x.coll 0 1
  let w := leAt x.coll 2 4
  if x.src = c.pred && b0 / 16 = colRing c && b0 % 16 = colNum c && leAt x.coll 1 1 = colOp c then
    (if colOp c = 2 then [w, w + (c.n - 1)] else [w]).find? fun t =>
      decide (t < colSteps c) && colWire c t = w && (colChunks c (colReceives c t))[x.chunk]? = some (x.addr, x.len)
  else none

def colAgrees (c : Collective) (x : FRx) : Bool := (colStepOf c x).isSome

/-- A RESERVE's chunk touches a retired granule or a blocked bank of an engine's buffer (R353). -/
def bufferBarred (d : Device) (c : Collective) (a n : Nat) : Bool :=
  (colEp c = 0xA8 && hbmRetired d a n) || match epMem d (epOf (colEp c)) a with
    | some (id, l) => memBlocked d id l n
    | none => false

/-- The record of R310 for a RESERVE that touches a retired granule of `n` bytes of HBM from `a` on. -/
def logTurnedAway (stream : BitVec 12) (a n : Nat) (d : Device) : Device :=
  if hbmRetired d a n then
    let (s, l) := hbmMap d.part (retiredAt d a n)
    logPlain (unitStack s) 0x0512 (sdDetail d (.hbm s) l 0 3 0 0 1 (some stream)) d
  else d

/-- A chunk that waits for its engine: refused with cause 5 where it disagrees with the engine's collective, and with cause 4 where
the buffer may not be touched; granted where its window is open; else it waits (R353, R364). -/
def settleEngine (d : Device) (x : FRx) : Device :=
  match frxDie x with
  | none => d
  | some die =>
    match vgetN none d.forron.engines die with
    | none => d
    | some c =>
      if x.granted then d
      else if !colAgrees c x then flAnswer 2 1 5 0 x (dropFrx x d)
      else if bufferBarred d c (colBase c + x.addr) x.len then
        flAnswer 2 1 4 0 x (dropFrx x (if colEp c = 0xA8 then logTurnedAway x.stream (colBase c + x.addr) x.len d else d))
      else if colOpen d die c then
        let due := holdDue d
        flAnswer 2 0 0 x.addr x (modFrx x (fun x => { x with granted := true, holdBy := due }) d)
      else d

/-- Answer the RESERVEs that wait for a sequence engine. -/
def settleEngines (d : Device) : Device := d.forron.rx.foldl settleEngine d

end Sys2Proof.Machine
end

