-- ==== Sys2Proof/Machine/State.lean ====
section
/-!
DEFINITION. Machine/State.lean: the state of the block: the device and the queue of commands that wait, first in, first
out; the reasons a step could stop; and the state right after reset.
-/
namespace Sys2Proof.Machine

/-- The block: everything the part holds, and the commands sent to it that wait. -/
structure State where
  dev     : Device
  pending : List Instr
  deriving DecidableEq, Repr

/-- Why a step faults. -/
inductive Fault where
  /-- Raised by nothing: every command of the spec has an effect, and what the spec calls a fault is a change of state
  (an Errata entry, a proof record, the abort of a task). Safe. -/
  | unraised
  deriving DecidableEq, Repr

/-- Why a step refuses. -/
inductive Refusal where
  /-- Raised by an arm of `exec` whose command has no meaning yet. Safe. -/
  | notModelled (mnemonic : String)
  deriving DecidableEq, Repr

/-- The block right after reset: the device at its reset values, no command waiting. -/
def State.reset : State := ⟨Device.reset, []⟩

end Sys2Proof.Machine
end

