-- ==== Sys2Proof/Machine/Recover.lean ====
section
/-!
DEFINITION. Machine/Recover.lean: the frisket of a press: closing it, press reset, power cycle, offline and escalation
(14_errata_and_recovery.md R508 to R516), and how a command's effect becomes the step's answer.
-/
namespace Sys2Proof.Machine

/-- The frisket of the press is closed (R508, R513). -/
def fenced (d : Device) (p : Nat) : Bool := (press d p).recovery.state ≠ .inService

/-- An entry about press `p` with the context detail (R503); it is no fault of a task. -/
def logPress (p : Nat) (code : BitVec 16) (escalation : Bool) (d : Device) : Device :=
  let t := (pressTask d p).bind (ticketOf d)
  let a := t.bind (·.abort)
  logError 1 (unitPress p) ((t.map (·.id)).getD 0) code
    (ctxDetail ((a.map (·.code)).getD 0) { phase := 3 } false escalation (stepOf d (unitPress p))
      ((a.map (·.secondaries)).getD 0)) none none d

def modRecovery (p : Nat) (g : Recovery → Recovery) (d : Device) : Device :=
  modPress p (fun x => { x with recovery := g x.recovery }) d

/-- Close a frisket: the fence step begins (R508, R510). Cause 1 request, 2 internal, 3 abort stuck. -/
def closeFrisket (p cause : Nat) (d : Device) : Device :=
  if fenced d p then d
  else modRecovery p (fun r => { r with state := .fenced, lastCause := BitVec.ofNat 3 cause, closedAt := d.now,
                                        stepAt := d.now, drainPt := max 1 d.errata.drainPt.toNat, cycled := false,
                                        fencedLog := [] }) d

/-- What is outstanding at a press is abandoned, as when the drain bound has passed: the headers of its open destinations are
rewritten, and then the flushes are abandoned (R169, R174, R304, R510). -/
def abandonPress (p : Nat) (d : Device) : Device :=
  let d := stopPress d p
  let d := ((press d p).opens.filter (·.begun)).foldl (abortDest p) d
  modPress p (fun x => { x with opens := [], galley := { x.galley with merge := [] } }) d

/-- The reset step begins (R510). -/
def beginReset (p : Nat) (d : Device) : Device :=
  modRecovery p (fun r => { r with state := .resetting, stepAt := d.now }) d

/-- Every effect of a press reset (R144, R174, R283, R322, R372). -/
def resetPress (p : Nat) (d : Device) : Device :=
  modPress p (fun x => let y := stopClear x; { y with galley := { y.galley with merge := [] } }) (abandonPress p d)

/-- The power-cycle step begins: the press's domain goes off, and where it is off already it is asked for, at the front of the
governor's queue (R512). -/
def beginCycle (p : Nat) (d : Device) : Device :=
  let d := dropRequest p (modRecovery p (fun r => { r with state := .powerCycling, stepAt := d.now, cycled := true }) d)
  match (domain d p).dstate with
  | .on | .waking => modDomain p (fun x => { x with dstate := .goingOff, held := false, ramp := none }) d
  | .goingOff => d
  | _ => govRequest p true d

/-- A press's reservation is that of a START which has not fired (R513): its entry and its ticket. -/
def startHolds (e : BitVec 128) (p : Nat) : Bool :=
  eAction e = 1 && eIndex e = p / 8 && (eQty e).testBit (p % 8)

/-- Open tickets with a START that has not fired and whose mask holds the press. -/
def waitingOn (d : Device) (p : Nat) : List Ticket :=
  d.mkr.tickets.filter fun t => t.entries.any fun i =>
    let e := smapGet 0 d.mkr.table i
    startHolds e p && !eFired e

/-- The press goes offline (R513). -/
def goOffline (p : Nat) (d : Device) : Device :=
  let d := logPress p 0x0A07 false d
  let d := modRecovery p (fun r => { r with state := .offline, stepAt := d.now }) d
  let d := modErrata (fun e => { e with offline := e.offline ||| BitVec.ofNat 128 (2 ^ p) }) d
  let d := dropRequest p d
  let d := if (domain d p).dstate = .off then d
           else modDomain p (fun x => { x with dstate := .goingOff, held := false, ramp := none }) d
  (waitingOn d p).foldl (fun d t => abortTicket t 0x0A07 (unitPress p) d) d

/-- The frisket reopens (R510). -/
def reopen (p : Nat) (d : Device) : Device :=
  let d := modRecovery p (fun r =>
    { r with state := .inService, resets := satAdd r.resets 1, fencedLog := [], cycled := false,
             powerCycles := if r.cycled then satAdd r.powerCycles 1 else r.powerCycles }) d
  settleDomain (modPress p (fun x => { x with preempt := .none }) d) p

/-- The press's task, where it has one that has not begun to abort. -/
def runningTask (d : Device) (p : Nat) : Option Ticket :=
  ((pressTask d p).bind (ticketOf d)).filter fun t => t.abort.isNone

/-- The drain is given up, and `code` logged: a task that waited for its preemption aborts now, what is outstanding is
abandoned, and the reset step begins (R510, R515). -/
def abandonDrain (p : Nat) (code : BitVec 16) (escalation : Bool) (d : Device) : Device :=
  let d := match runningTask d p with
    | some t => faultTask t.slot 0x0A03 (unitPress p) { phase := 3 } none d
    | none => d
  beginReset p (abandonPress p (logPress p code escalation d))

/-- An error has named press `p` under recovery: it moves on one step (R515). -/
def escalatePress (d : Device) (p : Nat) : Device :=
  match (press d p).recovery.state with
  | .inService => d
  | .offline => d
  | .fenced | .draining => abandonDrain p 0x0A08 true d
  | .resetting => beginCycle p (logPress p 0x0A08 true d)
  | .powerCycling => goOffline p (logPress p 0x0A08 true d)

/-- The escalations that a command's errors have asked for. -/
def settleErrors (d : Device) : Device :=
  match d.errata.escalate with
  | [] => d
  | l => l.foldl escalatePress (modErrata (fun e => { e with escalate := [] }) d)

/-- A FEED in progress holds feed `k` (R412, R447). -/
def feedHeld (d : Device) (k : Nat) : Bool := (List.range 128).any fun p => (feedsOf p (press d p)).contains k

/-- Changed feed maps take effect where no FEED holds the feed (R412). -/
def settleFeeds (d : Device) : Device :=
  (List.range 32).foldl (fun d k =>
    match vgetN none d.fount.feedNext k with
    | none => d
    | some v =>
      if feedHeld d k then d
      else modFount (fun f => { f with feedMap := vmodN f.feedMap k fun _ => v,
                                       feedNext := vmodN f.feedNext k fun _ => none }) d) d

/-- Only the always-on domain lives: the part is in Deep (R527, R541), in device reset (R587), or tripped (R585). -/
def asleep (d : Device) : Bool :=
  (d.power.state = .deep && d.power.change.isNone) || d.trust.porLow || d.trust.railsBad || d.power.tripped

/-- What follows at once from a command's effect: aborts go on to their cancels (R506), failed accesses reach their writers (R304), errors that name a press under
recovery escalate it (R515), requests for
receive space that can now be granted are (R257, R364), and feed maps that can change do (R412). -/
def settled (d : Device) : Device := settleFeeds (settleEngines (settleGrants (settleErrors (settleFails 4096 (settleAborts d)))))

/-- The answer of a command whose effect on the device is `g`, whatever the part's state. -/
def onAlways (g : Device → Device) (s : State) : Host.Outcome State Fault Refusal :=
  .next { s with dev := settled (g s.dev) }

/-- The answer of a command whose effect on the device is `g`; a part that is asleep takes no notice of it. -/
def onDev (g : Device → Device) (s : State) : Host.Outcome State Fault Refusal :=
  onAlways (fun d => if asleep d then d else g d) s

/-! ## Requests of the host (R472, R475) -/

/-- The answer of row `c`, a request of the host with effect `g`: it waits behind a posted write that waits. -/
def onHost (c : Instr) (g : Device → Device) (s : State) : Host.Outcome State Fault Refusal := onDev (onLink (.row c) g) s

/-- The same of a row that names its writer: Foreman's writes come over no link. -/
def onSource (r : Requester) (c : Instr) (g : Device → Device) (s : State) : Host.Outcome State Fault Refusal :=
  onDev (if r = .foreman then g else onLink (.row c) g) s

/-- The number of a function. -/
def fnIndex : FnId → Nat
  | .pf0 => 0 | .pf1 => 1 | .pf2 => 2

/-- The function through which a register is written. -/
def reqFn : Requester → FnId
  | .pf1 => .pf1
  | .pf2 => .pf2
  | _ => .pf0

/-- The context detail of a logged event of no task (R503). -/
def noTask (d : Device) (unit : BitVec 32) : BitVec 256 := ctxDetail 0 { phase := 3 } false false (stepOf d unit) 0

/-- An entry of the host interface (R474, R475). -/
def logHost (code : BitVec 16) (d : Device) : Device := logPlain unitHost code (noTask d unitHost) d

/-- A poisoned TLP has come for function `fn`: it is counted, and shown in the function's AER (R464, R476). -/
def notePoison (fn : FnId) : Device → Device := modHost fun h =>
  { h with poisonIn := satAdd h.poisonIn 1, aer := vmodN h.aer (fnIndex fn) fun w => w ||| 0x1000#32 }

/-- A poisoned write is discarded (R475, R476). -/
def poisonedWrite (fn : FnId) (d : Device) : Device := logHost 0x0707 (notePoison fn d)

/-- Requests of function `fn` are served: the link is up and no reset of the function is in progress (R493, R496). -/
def fnServes (d : Device) (fn : FnId) : Bool := d.host.linkUp && !bit d.host.flr (fnIndex fn)

/-- The effect of a write to function `fn` that would do `g`. -/
def hostWrite (fn : FnId) (poisoned : Bool) (g : Device → Device) (d : Device) : Device :=
  if !poisoned then g d else if fnServes d fn then poisonedWrite fn d else d

end Sys2Proof.Machine
end

