-- ==== Sys2Proof/Machine/Imposition.lean ====
section
/-!
DEFINITION. Machine/Imposition.lean: the entries of the imposition table as they fire and end
(01_press_time.md R36 to R39, R48, R52; 05_compositor.md R177, R178; 08 R291; 14 R509), and the commands of those
events.
-/
namespace Sys2Proof.Machine

/-! ## Writing the table (R36) -/

/-- The `n` lowest table indices that hold no entry, from `i` on. -/
def freeIndices : Nat → Nat → List (Nat × BitVec 128) → Nat → List Nat
  | 0, _, _, _ => []
  | fuel + 1, i, table, n =>
    if n = 0 then []
    else match table with
      | [] => i :: freeIndices fuel (i + 1) [] (n - 1)
      | (k, v) :: r =>
        if k = i then freeIndices fuel (i + 1) r n
        else if k < i then freeIndices fuel i r n
        else i :: freeIndices fuel (i + 1) ((k, v) :: r) (n - 1)

/-- Write entries at table indices. -/
def writeEntries (l : List (Nat × BitVec 128)) (d : Device) : Device :=
  modMk (fun m => { m with table := l.foldl (fun t ie => smapSet 0 t ie.1 ie.2) m.table }) d

/-- The lowest free index of the 65,536. -/
def lowestFree (d : Device) : Option Nat :=
  (freeIndices (65536 + d.mkr.table.length) 0 d.mkr.table 1).head?.filter (· < 65536)

/-! ## The scheduled wake (R37, R532) -/

/-- The WAKE system entry of PW_WAKE_AT at point `t`. -/
def wakeAtEntry (t : Nat) : BitVec 128 :=
  place 128 127 108 (t / 4096) ||| place 128 107 96 (t % 4096) ||| place 128 95 92 6
    ||| place 128 91 80 0xFFF ||| place 128 47 44 6 ||| place 128 43 32 201 ||| 1#128

/-- Place an armed wake: at once where its point has passed, else as an entry, as soon as its sheet is within the horizon of
R37 and the table has a free index (R36); until then it waits. -/
def placeWakeAt (d : Device) : Device :=
  match d.power.wakeWait with
  | none => d
  | some t =>
    let placed := modPower (fun w => { w with wakeWait := none }) d
    if t < d.now then wakeEvent 3 none .makeready placed
    else if d.sheet + 524287 < t / 4096 then d
    else match lowestFree d with
      | none => d
      | some i => writeEntries [(i, wakeAtEntry t)] placed

/-! ## Firing (R37) -/

/-- The entry is one of a ticket's START, window or HOLD, and another ticket's reservation of its resource is in overrun, whose
span and margin had ended when this entry's reservation began: it waits, and fires late (R52). -/
def overrunBlocks (d : Device) (i : Nat) : Bool :=
  let e := getEntry d i
  let a := eAction e
  (a = 1 || a = 2 || a = 3 || a = 8) && d.mkr.table.any fun x =>
    eOverrun x.2 && eSlot x.2 ≠ eSlot e && eClass x.2 = eClass e && eIndex x.2 = eIndex e
      && entryEnd d x.2 ≤ entryTime d e

/-- The entry may fire now: valid, not fired, its point has come, and no overrun holds it back. -/
def entryDue (d : Device) (i : Nat) : Bool :=
  let e := getEntry d i
  eValid e && !eFired e && entryTime d e ≤ d.now && !overrunBlocks d i

/-- Set fired, and late where the point has passed (R36). -/
def markFired (i : Nat) (d : Device) : Device :=
  let late := entryTime d (getEntry d i) < d.now
  modEntry i (fun e => e ||| (if late then 6#128 else 2#128)) d

/-! ## The effects of firing (R38) -/

/-- The virtual forme of a physical one under a ticket's placement. -/
def virtualOf (t : Ticket) (f : Nat) : Nat :=
  match t.map.find? (·.2 = f) with
  | some m => m.1
  | none => f

/-- Presses of a mask on forme `f`. -/
def maskPresses (f : Nat) (mask : Nat) : List Nat := ((List.range 8).filter (mask.testBit ·)).map (8 * f + ·)

/-- The forme begins to load for a task (R177): its presses count stochastic roundings from 0 (R381). -/
def startForme (f slot entry vforme mask : Nat) (d : Device) : Device :=
  let d := modForme f (fun x => { x with state := .loading, task := some slot, entry := entry,
                                         pmask := BitVec.ofNat 8 mask, vforme := vforme, pend := [] }) d
  let d := (maskPresses f mask).foldl (fun d p => modPress p (fun x => { x with srCount := 0 }) d) d
  (maskPresses f mask).foldl wakeDomain d

/-- The compositor can take a START (R178). -/
def formeFree (d : Device) (f : Nat) : Bool := (forme d f).state = .idle && (forme d f).task.isNone

/-- A START fires (R177, R178, R509). -/
def fireStart (i : Nat) (d : Device) : Device :=
  let e := getEntry d i
  let f := eIndex e
  match ticketOf d (eSlot e) with
  | none => d
  | some t =>
    if !formeFree d f || t.abort.isSome || t.pause.isSome then d
    else
      let d := modTicket t.slot (fun t => { t with toStart := t.toStart - 1, started := true }) (markFired i d)
      match (maskPresses f (eQty e)).find? (fenced d) with
      | some p => faultTask t.slot 0x0A01 (unitPress p) { phase := 3 } none d
      | none =>
        startForme f t.slot i (virtualOf t f) (eQty e)
          (modTicket t.slot (fun t => { t with running := t.running + 1 }) d)

/-- The last 64 refresh commands of a slot on bus `b`, from row `row` of each bank (R291, R296). DESIGN CHOICE: a slot takes the
banks in their order, once for each command (log 34). -/
def refreshTail (b row : Nat) : List RetryCmd :=
  ((rangeFrom 32 32).map fun k => (rangeFrom (2 * b) 2).map fun pc =>
    ({ unit := 65536 * row + 1024 * k + pc, old := none, req := 6, refresh := true } : RetryCmd)).flatten

/-- A slot of refresh: `n` commands to each bank, of 2 rows each, from the row after the last (R291). They enter the retry
buffers of the buses that issue (R296). -/
def refreshSlot (s : Stack) : Stack :=
  let n := if s.hot then 8 else 4
  let last := (s.refreshRow + BitVec.ofNat 14 (2 * (n - 1))).toNat
  { s with refreshed := n, refreshRow := s.refreshRow + BitVec.ofNat 14 (2 * n),
           buses := s.buses.mapIdx fun b x => if x.active || x.training then x else { x with retry := refreshTail b last } }

/-- A REFRESH fires: 4 commands to each bank, or 8 while the stack is hot, whether or not it still fills; none while the
stack refreshes itself (R291, R531). -/
def fireRefresh (i : Nat) (d : Device) : Device :=
  let e := getEntry d i
  let d := markFired i d
  let s := (stack d (eIndex e)).state
  if s = .ready || s = .filling then modStack (eIndex e) refreshSlot d else d

/-- A domain that is On begins to go off, or its switch-off is held (R535). -/
def switchOff (n : Nat) (d : Device) : Device :=
  if (domain d n).dstate = .on then
    if domainHeld d n then modDomain n (fun x => { x with held := true }) d
    else modDomain n (fun x => { x with dstate := .goingOff }) d
  else d

/-- A POWER_STEP fires: the domain moves to the state in arg[2:0] (R38, R549). It comes On only through Waking, and Off only
through Going off. -/
def firePower (i : Nat) (d : Device) : Device :=
  let e := getEntry d i
  let n := eIndex e
  let d := markFired i d
  match eArg e % 8 with
  | 0 => switchOff n d
  | 3 => switchOff n d
  | 1 => wakeDomain d n
  | 2 => wakeDomain d n
  | 4 => if 144 ≤ n && n < 152 then restStack n .selfRefresh d else d
  | 5 => if 144 ≤ n && n < 152 then restStack n .partialRefresh d else d
  | _ => d

/-- A WAKE fires: the domain is asked of the governor, or only reserved; the system entry of PW_WAKE_AT is a wake event
(R45, R532). -/
def fireWake (i : Nat) (d : Device) : Device :=
  let e := getEntry d i
  let d := markFired i d
  if eSlot e = 0xFFF then wakeEvent 3 none .makeready d else wakeDomain d (eIndex e)

/-- A PROMISE fires: it stops being valid, and a ticket that has not completed has broken its promise (R48, R52). -/
def firePromise (i : Nat) (d : Device) : Device :=
  let t := ticketOf d (eSlot (getEntry d i))
  let d := freeEntry i (markFired i d)
  match t with
  | none => d
  | some t => if t.pause.isSome || t.abort.isSome then d else breakPromise t unitMk d

/-- Any entry fires, by its action (R38). -/
def fireEntry (i : Nat) (d : Device) : Device :=
  match eAction (getEntry d i) with
  | 1 => fireStart i d
  | 2 => markFired i d
  | 3 => markFired i d
  | 4 => fireRefresh i d
  | 5 => firePower i d
  | 6 => fireWake i d
  | 7 => firePromise i d
  | 8 => markFired i d
  | _ => d

/-- An entry of action `a` fires if it is due. -/
def fireIf (a : Nat) (i : BitVec 16) (d : Device) : Device :=
  if entryDue d i.toNat && eAction (getEntry d i.toNat) = a then fireEntry i.toNat d else d

/-- Entries whose points a forward step has skipped fire, in table index order (R34). -/
def fireSkipped (d : Device) : Device :=
  (d.mkr.table.map (·.1)).foldl (fun d i =>
    if entryDue d i && entryTime d (getEntry d i) < d.now then fireEntry i d else d) d

/-! ## The end of a reservation (R39, R48, R52) -/

/-- The unit that a broken reservation names, by its class (R52). -/
def resUnit (e : BitVec 128) : BitVec 32 :=
  match eClass e with
  | 0 => unitForme (eIndex e)
  | 1 => unitStack (eIndex e)
  | 2 => unitQuad (eIndex e)
  | 3 => unitSwitch (.die (if eIndex e = 0 then 0 else 1))
  | 4 => unitHost
  | _ => unitPower

/-- A reservation goes into overrun: it is kept, and its ticket's promise is broken (R52). -/
def overrun (i : Nat) (d : Device) : Device :=
  let e := getEntry d i
  if eOverrun e then d
  else
    let d := modEntry i (fun e => e ||| 8#128) d
    match ticketOf d (eSlot e) with
    | none => d
    | some t => if t.pause.isSome || t.abort.isSome then d else breakPromise t (resUnit e) d

/-- A ticket without a START, all of whose reservations have ended, completes (R48). -/
def noStartDone (d : Device) (t : Ticket) : Bool :=
  !t.started && t.toStart = 0 && t.pause.isNone && t.abort.isNone &&
  t.entries.all fun i =>
    let e := getEntry d i
    eAction e = 7 || entryEnd d e ≤ d.now

/-- The span and margin of entry `i` have ended (R39, R48). -/
def endReservation (i : Nat) (d : Device) : Device :=
  let e := getEntry d i
  if !eValid e || d.now < entryEnd d e then d
  else match ticketOf d (eSlot e) with
    | none =>
      if eAction e = 4 then
        if eFired e then
          modEntry i (fun e => setField (e &&& ~~~6#128) 127 108 (eSheet e + eArg e)) d
        else d
      else if eFired e then freeEntry i d else d
    | some t =>
      if noStartDone d t then completeTicket t d
      else match eAction e with
        | 1 => overrun i d
        | 8 => overrun i d
        | 7 => d
        | _ => if eFired e || overrunBlocks d i then freeEntry i d else d

/-! ## The commands -/

def execStartFire (entry : BitVec 16) (s : State) : Host.Outcome State Fault Refusal := onDev (fireIf 1 entry) s
def execXferWindowOpen (entry : BitVec 16) (s : State) : Host.Outcome State Fault Refusal := onDev (fireIf 2 entry) s
def execCollectiveWindowOpen (entry : BitVec 16) (s : State) : Host.Outcome State Fault Refusal :=
  onDev (fireIf 3 entry) s
def execRefreshFire (entry : BitVec 16) (s : State) : Host.Outcome State Fault Refusal := onDev (fireIf 4 entry) s
def execPowerStepFire (entry : BitVec 16) (s : State) : Host.Outcome State Fault Refusal := onDev (fireIf 5 entry) s
def execWakeFire (entry : BitVec 16) (s : State) : Host.Outcome State Fault Refusal := onDev (fireIf 6 entry) s
def execHoldFire (entry : BitVec 16) (s : State) : Host.Outcome State Fault Refusal := onDev (fireIf 8 entry) s
def execPromiseFire (entry : BitVec 16) (s : State) : Host.Outcome State Fault Refusal := onDev (fireIf 7 entry) s
def execReservationEnd (entry : BitVec 16) (s : State) : Host.Outcome State Fault Refusal :=
  onDev (endReservation entry.toNat) s

end Sys2Proof.Machine
end

