-- ==== Sys2Proof/Machine/Inking.lean ====
section
/-!
DEFINITION. Machine/Inking.lean: what INK and JUSTIFY compute (04_inking_and_justifying.md R145 to R156, R160 to R167;
06 R233 to R236). Pure functions of a press; Machine/Platens.lean puts them to work.
-/
namespace Sys2Proof.Machine

/-! ## The INK control register (R233 to R235) -/

/-- The specs and modes of an INK control register. -/
structure InkCtl where
  d     : Nat
  a     : Nat
  b     : Nat
  c     : Nat
  round : Nat
  ovf   : Nat
  nan   : Nat
  pred  : Nat
  smask : Nat
  deriving DecidableEq, Repr

def inkCtl (g : Word) : InkCtl :=
  ⟨fieldN g 31 27, fieldN g 26 22, fieldN g 21 17, fieldN g 16 12, fieldN g 11 9, fieldN g 8 7, fieldN g 6 5,
   fieldN g 4 2, fieldN g 1 0⟩

/-- Operations that read b, and c (R235). -/
def inkReadsB (iop : Nat) : Bool := iop ≤ 0x07 || iop = 0x0D
def inkReadsC (iop : Nat) : Bool := iop = 0x03 || iop = 0x0D

/-- The control register is well formed for the operation (R234, R235). -/
def inkCtlOk (iop : Nat) (c : InkCtl) : Bool :=
  let lane (s : Nat) : Bool := s < 8
  (iop ≤ 0x11)
  && (inkReadsB iop || c.b = 0) && (inkReadsC iop || c.c = 0)
  && (iop = 0x06 || c.pred = 0) && (iop ≠ 0x06 || c.pred ≤ 5)
  && (iop = 0x07 || c.smask = 0)
  && (match iop with
      | 0x06 => c.d ≠ 0 && c.d < 4
      | 0x0D => c.d = 0 && lane c.b && lane c.c && c.b ≠ c.c
      | _ => c.d < 8 || 16 ≤ c.d)

/-- A lane mask; k0 reads as all ones (R145). -/
def laneMask (i : InkRegs) (k : Nat) : BitVec 256 :=
  match k with
  | 0 => BitVec.allOnes 256 | 1 => i.k1 | 2 => i.k2 | _ => i.k3

/-- Write a lane mask; writes to k0 are discarded (R145). -/
def setLaneMask (i : InkRegs) (k : Nat) (v : BitVec 256) : InkRegs :=
  match k with
  | 0 => i | 1 => { i with k1 := v } | 2 => { i with k2 := v } | _ => { i with k3 := v }

/-- A galley vector: its galley offset and format (R146, R194, R234). -/
def inkVec (pm : Bool) (press : Nat) (d : BitVec 256) : Except (BitVec 16) (Nat × Fmt) :=
  let base := pressAddr pm press (dBase d)
  if dKind d ≠ 4 || !reservedZero d kind4Fields || base % 64 ≠ 0 then .error codeBadDesc
  else match fmtOfCode (dVecFmt d) with
    | none => .error codeFmtBad
    | some f =>
      match f with
      | .binary32 | .binary16 | .int32 =>
        match inGalley press base (256 * (fmtWidth f / 8)) with
        | none => .error codeBadDesc
        | some o => .ok (o, f)
      | _ => .error codeInBadFormat

/-- The modes of an INK or a converting DRAIN: the instruction's own codes, or the defaults of the press (R99). -/
def resolveModes (p : FmtRegs) (round ovf nan : Nat) : Except (BitVec 16) ConvMode :=
  match roundField p.rnd.toNat round, ovfField p.ovf.toNat ovf, nanField p.nan nan with
  | some r, some o, some n => .ok ⟨r, o, n, false⟩
  | _, _, _ => .error codeFmtBad

/-- A source of an INK, as 256 binary32 codes (R146). -/
def inkSource (mask : BitVec 32) (i : InkRegs) (vals : List Word) (r : Rd) (spec : Nat) (vec : Option (Nat × Fmt)) :
    Rd × List Word :=
  match inkSpec spec with
  | .lane l => (r, (List.range 256).map fun k => smapGet 0 i.lanes (256 * l + k))
  | .scalar s => (r, List.replicate 256 (nth 0 vals (1 + s)))
  | .vec _ =>
    match vec with
    | none => (r, List.replicate 256 0)
    | some (o, f) =>
      let w := fmtWidth f / 8
      let (r, raw) := rdBytes mask 16 r o (256 * w)
      (r, (List.range 256).map fun k =>
        let c := leAt raw (w * k) w
        if f = .binary32 then BitVec.ofNat 32 c else rne32 (decodeElem f c))

/-- The exact result of an elementwise INK on one lane (R149, R235). -/
def inkArith (iop : Nat) (rdn : Bool) (a b c : Word) : Val :=
  match iop with
  | 0x00 => valAdd rdn (v32 a) (v32 b)
  | 0x01 => valSub rdn (v32 a) (v32 b)
  | 0x02 => valMul (v32 a) (v32 b)
  | 0x03 => valFma rdn (v32 a) (v32 b) (v32 c)
  | 0x04 => v32 (fmax a b)
  | 0x05 => v32 (fmin a b)
  | 0x08 => v32 a
  | 0x09 => exp2V (v32 a)
  | 0x0A => log2V rdn (v32 a)
  | 0x0B => rcpV (v32 a)
  | _ => rsqV (v32 a)

/-- The results of an INK: lane and code in element order, counts, and a fault. -/
structure InkOut where
  vals   : List (Nat × Nat) := []
  aux    : List (Nat × Word) := []
  counts : FmtCounts := {}
  fault  : Option (BitVec 16) := none
  deriving DecidableEq, Repr

/-- Convert one lane's result; after a fault nothing more is converted. `copy` keeps a binary32 code unchanged. -/
def inkConv (f : Fmt) (md : ConvMode) (seed step : BitVec 64) (stream : BitVec 32) (o : InkOut)
    (lv : Nat × Val × Option Word) : InkOut :=
  match o.fault with
  | some _ => o
  | none =>
    let (l, v, copy) := lv
    match copy, f with
    | some w, .binary32 => { o with vals := (l, w.toNat) :: o.vals }
    | _, _ =>
      let q := if md.rnd = .sr then (quoin seed step stream (BitVec.ofNat 32 l)).toNat else 0
      let c := encodeVal f md q v
      let o := { o with counts := countConv o.counts c }
      match c.fault with
      | some e => { o with fault := some e }
      | none => { o with vals := (l, c.code) :: o.vals }

/-- The value of every active lane of an INK that writes d. -/
def inkLanes (iop : Nat) (rdn : Bool) (ink : InkRegs) (smask : Nat) (active : List Nat) (a b c : List Word) :
    List (Nat × Val × Option Word) :=
  if 0x0E ≤ iop then
    let (op, ident) := reduceOp iop
    let v := reduce op ((List.range 256).map fun k => if active.contains k then nth 0 a k else ident)
    active.map fun l => (l, v32 v, some v)
  else if iop = 0x07 then
    let m := laneMask ink smask
    active.map fun l =>
      let v := if m.getLsbD l then nth 0 a l else nth 0 b l
      (l, v32 v, some v)
  else active.map fun l => (l, inkArith iop rdn (nth 0 a l) (nth 0 b l) (nth 0 c l), none)

/-- SMSTEP over the active lanes: new sums in `vals`, new maxima in `aux` (R156). -/
def inkSmstep (md : ConvMode) (active : List Nat) (x ma ls : List Word) : InkOut :=
  active.foldl (fun (o : InkOut) l =>
    match o.fault with
    | some _ => o
    | none =>
      match smstep (md.rnd = .rdn) (nth 0 x l) (nth 0 ma l) (nth 0 ls l) with
      | none => o
      | some (mn, v) =>
        let c := encodeVal .binary32 md 0 v
        let o := { o with counts := countConv o.counts c }
        match c.fault with
        | some e => { o with fault := some e }
        | none => { o with vals := (l, c.code) :: o.vals, aux := (l, mn) :: o.aux }) {}

/-! ## JUSTIFY (R161 to R164) -/

/-- A conversion of a whole slug: leads and codes by row, counts by row, events, and a fault. -/
structure JusOut where
  leads  : List Byte := []
  rows   : List (List Nat) := []
  van    : List Nat := []
  sat    : List Nat := []
  counts : FmtCounts := {}
  fault  : Option (BitVec 16) := none
  deriving DecidableEq, Repr

/-- Convert the elements of one row under its lead. -/
def jusElems (f : Fmt) (md : ConvMode) (seed step : BitVec 64) (quoinS : BitVec 32) (slug r : Nat) (lead : Int)
    (x : List Val) : List Nat × FmtCounts × Option (BitVec 16) :=
  let o := (x.zip (List.range x.length)).foldl (fun (a : List Nat × FmtCounts × Option (BitVec 16)) vk =>
    match a.2.2 with
    | some _ => a
    | none =>
      let q := if md.rnd = .sr then
          (quoin seed step quoinS (BitVec.ofNat 32 (16384 * slug + 64 * r + vk.2))).toNat else 0
      let c := encodeVal f md q (valScale vk.1 (-lead))
      (c.code :: a.1, countConv a.2.1 c, c.fault)) ([], {}, none)
  (o.1.reverse, o.2.1, o.2.2)

/-- The lead of a row: from its largest finite magnitude (R162). -/
def jusLead (f : Fmt) (x : List Val) : Int :=
  let mx := x.foldl (fun (a : Nat × Int) v =>
    match v with
    | .fin _ m e => if magLt a.1 a.2 m e then (m, e) else a
    | _ => a) (0, 0)
  if mx.1 = 0 then 0 else (clampLead (valLog2 mx.1 mx.2 - fmtEmax f)).toInt

/-- Convert a slug to a format (R162): rows of kv exact values. -/
def jusConvert (f : Fmt) (md : ConvMode) (seed step : BitVec 64) (quoinS : BitVec 32) (slug m : Nat)
    (src : List (List Val)) : JusOut :=
  let o := (List.range 256).foldl (fun (o : JusOut) r =>
    match o.fault with
    | some _ => o
    | none =>
      if m ≤ r then
        { o with leads := 0x80 :: o.leads, rows := [] :: o.rows, van := 0 :: o.van, sat := 0 :: o.sat }
      else
        let x := nth [] src r
        let lead := jusLead f x
        let (codes, c, fl) := jusElems f md seed step quoinS slug r lead x
        let lead : Byte := if codes.all (· = 0) then 0x80 else BitVec.ofInt 8 lead
        { leads := lead :: o.leads, rows := codes :: o.rows, van := c.van :: o.van, sat := c.sat :: o.sat,
          counts := ⟨o.counts.ovf + c.ovf, o.counts.sat + c.sat, o.counts.und + c.und, o.counts.van + c.van,
            o.counts.sq + c.sq⟩,
          fault := fl }) {}
  { o with leads := o.leads.reverse, rows := o.rows.reverse, van := o.van.reverse, sat := o.sat.reverse }

/-- Some row exceeds a promotion limit (R162). -/
def jusExceeds (van sat : BitVec 8) (o : JusOut) : Bool :=
  (van ≠ 0xFF#8 && o.van.any (fun v => decide (van.toNat < 4 * v)))
    || (sat ≠ 0xFF#8 && o.sat.any (fun v => decide (sat.toNat < 4 * v)))

/-- The bytes of a slug after its header (R160). -/
def slugBody (f : Fmt) (o : JusOut) : List Byte :=
  let w := fmtWidth f
  o.leads ++ (o.rows.map fun codes =>
    leBytes (8 * w) ((codes.zip (List.range codes.length)).foldl (fun a ck => a + ck.1 * 2 ^ (w * ck.2)) 0)).flatten

def maxOf (l : List Nat) : Nat := l.foldl max 0
def sumOf (l : List Nat) : Nat := l.foldl (· + ·) 0

/-- The fallback format of a short format, from JU_FALLBACK (R172). -/
def fallbackOf (reg : BitVec 32) (f : Fmt) : Nat :=
  match f with
  | .minion8 => fieldN reg 3 0 | .brevier8 => fieldN reg 7 4 | .nonpareil6 => fieldN reg 11 8
  | .pearl4 => fieldN reg 15 12 | .diamond3 => fieldN reg 19 16 | .brilliant2 => fieldN reg 23 20
  | .int8 => fieldN reg 27 24 | .int4 => fieldN reg 31 28 | _ => 0

/-- A fallback is acceptable for its format: short, integer exactly when the format is, at least as wide (R172). -/
def fallbackOk (f : Fmt) (code : Nat) : Bool :=
  match fmtOfCode code with
  | none => false
  | some g => fmtShort g && (fmtInt g == fmtInt f) && decide (fmtWidth f ≤ fmtWidth g)

/-- Every field of a JU_FALLBACK value is acceptable (R172). -/
def fallbackRegOk (v : BitVec 32) : Bool :=
  [Fmt.minion8, .brevier8, .nonpareil6, .pearl4, .diamond3, .brilliant2, .int8, .int4].all
    fun f => fallbackOk f (fallbackOf v f)

/-- JU_FALLBACK takes a written value; one that sets some field to no fallback leaves the register unchanged (R172). -/
def fallbackWrite (v : Word) (r : InkRegs) : InkRegs := { r with fallback := if fallbackRegOk v then v else r.fallback }

end Sys2Proof.Machine
end

