-- ==== Sys2Proof/Machine/Platens.lean ====
section
/-!
DEFINITION. Machine/Platens.lean: the press's instruction queue as it dispatches, and the passes, preloads, drains and
bank saves of its platens (03_platens.md R108 to R144; 04 R157, R158, R166 to R168; 05 R195 to R197; 06 R228 to R232),
with the commands of those events and of preemption (R135).
-/
namespace Sys2Proof.Machine

/-! ## The queue head (R196, R197) -/

/-- The task of an entry goes on: it is neither aborting nor being paused (R202, R385). -/
def taskRuns (d : Device) (slot : Nat) : Bool :=
  match ticketOf d slot with
  | some t => t.abort.isNone && t.pause.isNone
  | none => false

/-- A press begins what it has dispatched: no preemption is requested, or a pause, which has every dispatched instruction
complete (R135, R385). -/
def begins (x : Press) : Bool := x.preempt = .none || x.preempt = .pausing

/-- The task of `slot` is open and not aborting: what it has dispatched goes on. -/
def taskLives (d : Device) (slot : Nat) : Bool := (ticketOf d slot).any (·.abort.isNone)

/-- The entry at the head of the queue of press `p`, where the press may dispatch it: its domain is On, no preemption is
requested (R135), its task goes on, and the word's opcode is `op`. -/
def headOf (d : Device) (p : Nat) (op : Nat → Bool) : Option QEntry :=
  match (press d p).queue with
  | [] => none
  | e :: _ =>
    if domainOn d p && decide ((press d p).preempt = .none) && taskRuns d e.slot && op (wop e.word) then some e
    else none

/-- Do `act` with the entry at the head of the queue, where there is one of those opcodes. -/
def atHead (op : Nat → Bool) (p : Nat) (act : QEntry → Device → Device) (d : Device) : Device :=
  match headOf d p op with
  | some e => act e d
  | none => d

/-- The head leaves the queue: it has been dispatched. -/
def popHead (p : Nat) (d : Device) : Device :=
  modPress p (fun x => { x with queue := x.queue.drop 1, seq := x.seq + 1 }) d

/-- A press-side access waits while the galley is on its chase side (R261 to R263). -/
def galleyWait (p : Nat) (d : Device) : Device :=
  modPress p (fun x => { x with pressWait := true,
                                stalls := { x.stalls with feedFill := satAdd x.stalls.feedFill 1 } }) d

/-- Do `act` with the galley of press `p` on its press side; on the chase side the access waits. -/
def onPressSide (p : Nat) (act : Device → Device) (d : Device) : Device :=
  if (press d p).chaseSide then galleyWait p d
  else act (modPress p (fun x => { x with pressWait := false }) d)

/-! ## The galley as a platen or the inking unit reads and writes it -/

def galleyRd (d : Device) (p : Nat) : Rd := { mem := (press d p).galley }

/-- PL_STATUS.fault of a platen (R138). -/
def markFault (p : Nat) (pl : Option PlatenId) (d : Device) : Device :=
  match pl with
  | none => d
  | some pl => modPress p (fun x => setPlaten x pl { getPlaten x pl with fault := true }) d

/-- Give the galley back after its accesses. Where they could not be delivered, the task faults (R138, R308, R311) and
the answer is false; so it is where a flush of the task's own writes failed (R304). -/
def putGalley (p phase : Nat) (e : QEntry) (pl : Option PlatenId) (r : Rd) (d : Device) : Device × Bool :=
  let own := writerEntry d p phase e pl
  let d := memEvents (.galley p) 0 none r.evs (memPut (.galley p) (memStamp (some own) r.mem) d)
  let late := r.evs.any fun v => v.bad && v.flush
  match r.blocked, firstBad r.evs with
  | some a, _ =>
    (if late then noteFail ⟨0x0513, .galley p, a, 0, 0, 0, some own, 0⟩ d
     else faultBlocked e.slot (.galley p) a 0 none (ctxOf p phase e pl) (markFault p pl d), false)
  | none, some ev =>
    (if late then noteFail ⟨0x0510, .galley p, 32 * ev.block, evFlags ev, 0, ev.syn, some own, 0⟩ d
     else faultStored e.slot (.galley p) 0 none (ctxOf p phase e pl) ev (markFault p pl d), false)
  | none, none => (d, !flushFailed e.slot r.evs)

/-- Finish a check that read the galley: the access's own fault first, else the check's code, else `act`. -/
def afterCheck {α : Type} (p phase : Nat) (e : QEntry) (pl : Option PlatenId) (r : Rd × Except (BitVec 16) α)
    (act : α → Device → Device) (d : Device) : Device :=
  match putGalley p phase e pl r.1 d with
  | (d, false) => d
  | (d, true) =>
    match r.2 with
    | .error c => faultEntry p phase e c pl d
    | .ok v => act v d

/-! ## Banks, the inking path and preloads (R129 to R133) -/

def platenOf (e : QEntry) : PlatenId := if bit e.word 15 then .B else .A
def bankOf (e : QEntry) : Bool := bit e.word 14

def modPlaten (p : Nat) (pl : PlatenId) (g : Platen → Platen) (d : Device) : Device :=
  modPress p (fun x => setPlaten x pl (g (getPlaten x pl))) d

/-- Passes of a platen that have not ended their feed cycles: those that the pass stage holds (R131). -/
def inStage (o : PassOp) : Bool := o.phase ≠ .settling

/-- A pass or a drain of bank `b` dispatched before `seq` is not complete. -/
def earlierPass (pl : Platen) (b : Bool) (seq : Nat) : Bool := pl.passes.any fun o => o.bank = b && decide (o.seq < seq)
def earlierDrain (pl : Platen) (b : Bool) (seq : Nat) : Bool :=
  match pl.drain with
  | some o => o.bank = b && decide (o.seq < seq)
  | none => false

/-- A drain in the stage still has what it needs to run when no further pass begins: every earlier pass of its bank has
begun. -/
def drainCanRun (y : Platen) : Bool :=
  match y.drain with
  | none => false
  | some o => !(y.passes.any fun q => q.bank = o.bank && decide (q.seq < o.seq) && q.phase ≠ .feeding && q.phase ≠ .settling)

/-- The requests of both platens for the inking path, by order of dispatch (R133): preloads of partials and drains.
While the frisket asks for preemption, those that will not begin make none (R135). -/
def pathSeqs (x : Press) : List Nat :=
  let of (pl : Platen) : List Nat :=
    ((pl.passes.filter fun o => o.pre = 2 && (o.phase = .loading || (o.phase = .waiting && begins x))).map (·.seq))
      ++ (match pl.drain with
          | some o => if begins x || drainCanRun pl then [o.seq] else []
          | none => [])
  of x.plA ++ of x.plB

/-- The path serves the request `seq` next: every request dispatched before it has been served. -/
def pathTurn (x : Press) (seq : Nat) : Bool := (pathSeqs x).all fun s => decide (seq ≤ s)

/-- A pass that waits may begin its preload (R130, R132). DEDUCED: R130 has a preload with keep wait on a Busy bank, and R132
has it wait for no earlier pass to settle; the model follows R132, and waits for a bank that is Loading (log 88). -/
def mayPreload (x : Press) (pl : Platen) (o : PassOp) : Bool :=
  o.phase = .waiting && !earlierDrain pl o.bank o.seq
    && (if o.pre = 1 then decide ((getBank pl o.bank).state ≠ .loading) else !earlierPass pl o.bank o.seq)
    && (o.pre ≠ 2 || pathTurn x o.seq)

/-- The bank after the preload of a pass has begun: cleared, loading or kept (R118, R119, R126, R130). -/
def preloadBank (o : PassOp) (b : Bank) : Bank :=
  match o.pre with
  | 0 => { acc := [], rows := [], cols := [], int := o.int, state := .ready }
  | 1 => if b.state = .held then { b with state := .ready } else b
  | _ => { b with state := .loading }

/-- Begin the preload of every pass of a platen that may. -/
def preloadPlaten (x : Press) (pl : Platen) : Platen :=
  pl.passes.foldl (fun pl o =>
    if mayPreload x pl o then
      let pl := modBank pl o.bank (preloadBank o)
      let ps := modWhere (fun q => decide (q.seq = o.seq))
        (fun q => { q with phase := if q.pre = 2 then .loading else .ready }) pl.passes
      { pl with passes := ps }
    else pl) pl

/-- Begin the preloads of press `p` that may begin; none does while the frisket asks for preemption (R135). -/
def preloads (p : Nat) (d : Device) : Device :=
  if begins (press d p) then
    modPress p (fun x =>
      let x := { x with plA := preloadPlaten x x.plA }
      { x with plB := preloadPlaten x x.plB }) d
  else d

/-! ## PASS_DISPATCH (R228 to R230) -/

/-- The first error of a list of checks. -/
def firstErr : List (Option (BitVec 16)) → Option (BitVec 16)
  | [] => none
  | some e :: _ => some e
  | none :: r => firstErr r

/-- The feed that serves press `p` (R128, R412). -/
def feedOf (p : Nat) : Nat := p / 8 * 2 + p % 8 / 4

/-- The region that a feed's map names, on the feed's own die (R412, R421). -/
def feedRegion (d : Device) (k : Nat) : Nat := k / 16 * 12 + fieldN (vgetN 0 d.fount.feedMap k) 3 0

/-- A FEED may name its feed (R128). -/
def feedMapped (d : Device) (k : Nat) : Bool :=
  let r := feedRegion d k
  let bound := match d.cf.load with
    | some l => l.accepted && l.bound.getLsbD r
    | none => false
  bit (vgetN 0 d.fount.feedMap k) 31 && !d.power.gateRegion.getLsbD r && d.trust.store.enRegion.getLsbD r
    && (d.cf.regions.getLsbD r || bound)

/-- The sources of a pass: A from tA, or none for a FEED, and B from tB. -/
def passSources (p : Nat) (e : QEntry) : Except (BitVec 16) (OpSrc × OpSrc) :=
  let b := takeSource e.pm (p % 8) (nth 0 e.desc 1)
  if wop e.word = 0x21 then b.map fun b => (⟨true, 0, 0, 0⟩, b)
  else match takeSource e.pm (p % 8) (nth 0 e.desc 0) with
    | .error c => .error c
    | .ok a => b.map fun b => (a, b)

/-- The address of the partials image (R195, R226, R228). -/
def passImage (p : Nat) (e : QEntry) : Except (BitVec 16) Nat :=
  if fieldN e.word 13 12 ≠ 2 then .ok 0
  else
    let a := pressAddr e.pm (p % 8) (nth 0 e.vals 1).toNat
    match inGalley (p % 8) a 33088 with
    | some o => if a % 64 = 0 then .ok o else .error codeBadDesc
    | none => .error codeBadDesc

/-- Headers of both operands: the formats of their runs (R166). -/
def passFormats (mask : BitVec 32) (p k : Nat) (feed : Bool) (s : OpSrc × OpSrc) (r : Rd) :
    Rd × Except (BitVec 16) (List Fmt × List Fmt) :=
  let (r, fa) := if feed then (r, .ok []) else checkOperand mask (p % 8) 256 k r s.1
  match fa with
  | .error c => (r, .error c)
  | .ok fa =>
    match checkOperand mask (p % 8) 32 k r s.2 with
    | (r, .error c) => (r, .error c)
    | (r, .ok fb) => (r, .ok (fa, fb))

/-- Class checks of the operand formats at hand: the fault, or G (R110 to R112). -/
def passG (k : Nat) (fmts : List Fmt) : Except (BitVec 16) Nat :=
  if fmts.any (fun f => (widthClass f).isNone) then .error codeBadOperand
  else if 8192 < feedCycles (slowest fmts) k then .error codePassTooLong
  else .ok (feedCycles (slowest fmts) k)

/-- A keep on an Invalid bank that no earlier pass will fill (R130). -/
def keepInvalid (x : Press) (e : QEntry) : Bool :=
  let pl := getPlaten x (platenOf e)
  fieldN e.word 13 12 = 1 && decide ((getBank pl (bankOf e)).state = .invalid) && !earlierPass pl (bankOf e) x.seq

/-- The pass enters the pass stage; a pass that fed till now has ended its feed cycles where the stage needs the room
(R131). -/
def enterPass (p : Nat) (o : PassOp) (d : Device) : Device :=
  let pl := platenOf o.entry
  let d := modPlaten p pl (fun y =>
    let full := 2 ≤ (y.passes.filter inStage).length
    let ps := if full then
        modWhere (fun q => q.phase = .feeding && !q.feed) (fun q => { q with phase := .settling }) y.passes
      else y.passes
    { y with passes := ps ++ [o] }) d
  preloads p (popHead p d)

/-- The pass stage has room: fewer than two passes are still to feed, a galley pass that feeds counting as none, since
its last feed cycle may have come (R131). -/
def stageRoom (pl : Platen) : Bool :=
  (pl.passes.filter fun o => inStage o && !(o.phase = .feeding && !o.feed)).length < 2

/-- Check and dispatch a PASS or FEED (R229, R230, R242). -/
def passAtHead (p : Nat) (e : QEntry) (d : Device) : Device :=
  let x := press d p
  let pl := platenOf e
  let feed := wop e.word = 0x21
  if !stageRoom (getPlaten x pl) then d
  else match shapeReg (nth 0 e.vals 0) with
    | none => faultEntry p 1 e codeIllegal (some pl) d
    | some (k, m, n) =>
      match passSources p e, passImage p e with
      | .error c, _ => faultEntry p 1 e c (some pl) d
      | _, .error c => faultEntry p 1 e c (some pl) d
      | .ok s, .ok img =>
        if feed && !feedMapped d (feedOf p) then faultEntry p 1 e codeFeedUnmapped (some pl) d
        else onPressSide p (fun d =>
          afterCheck p 1 e (some pl) (passFormats (press d p).block p k feed s (galleyRd d p)) (fun f d =>
            match passG k (f.1 ++ f.2) with
            | .error c => faultEntry p 1 e c (some pl) d
            | .ok g =>
              if keepInvalid x e then faultEntry p 1 e codeBankInvalid (some pl) d
              else enterPass p
                { entry := e, seq := x.seq, bank := bankOf e, pre := fieldN e.word 13 12, k := k, m := m, n := n,
                  a := s.1, b := s.2, feed := feed, paddr := img, int := !feed && passInt f.1 f.2, g := g,
                  fmtsA := f.1, fmtsB := f.2 } d) d) d

def doPassDispatch (p : Nat) : Device → Device := atHead (fun o => o = 0x20 || o = 0x21) p (passAtHead p)

/-! ## PRELOAD_DONE (R125, R134) -/

/-- The pass of a platen that loads an image. -/
def loadingPass (pl : Platen) : Option PassOp := pl.passes.find? (·.phase = .loading)

def doPreloadDone (p : Nat) (pl : PlatenId) (d : Device) : Device :=
  match loadingPass (getPlaten (press d p) pl) with
  | none => d
  | some o => onPressSide p (fun d =>
      let (r, img) := rdBytes (press d p).block 16 (galleyRd d p) o.paddr 33088
      afterCheck p 2 o.entry (some pl) (r, if imageKind img ≤ 1 then .ok img else .error codeBadOperand)
        (fun img d => preloads p (modPlaten p pl (fun y =>
          let y := setBank y o.bank (imageBank img .ready)
          let ps := modWhere (fun q => decide (q.seq = o.seq)) (fun q => { q with phase := .ready }) y.passes
          { y with passes := ps }) d)) d) d

/-! ## PASS_FEED_START (R113 to R119, R132) -/

/-- Leads that a bank's record will hold once the passes that have fed it settle (R118). -/
def pendingRecord (y : Platen) (o : PassOp) : List (Nat × BitVec 8) × List (Nat × BitVec 8) :=
  let b := getBank y o.bank
  (y.passes.filter fun q => q.bank = o.bank && decide (q.seq < o.seq)).foldl
    (fun rc q => (mergeLeads rc.1 q.inA, mergeLeads rc.2 q.inB)) (b.rows, b.cols)

/-- A pass of the galley feeds: every step of it, on its bank (R114). DESIGN CHOICE: a pass that faults on a lead mismatch has
fed for some cycles that the spec does not number (R138); none of them is counted under R143 (log 88). -/
def feedGalley (y : Platen) (o : PassOp) (a b : List RunData) : Except (BitVec 16) (Platen × PassOp) :=
  let (rr, rc) := pendingRecord y o
  let inA := leadsInForce o.int rr a o.m
  let inB := leadsInForce o.int rc b o.n
  if o.int && (leadMismatch inA a o.m || leadMismatch inB b o.n) then .error codeLeadMismatch
  else
    let bank := getBank y o.bank
    let (acc, wraps) := passCells o.int o.m o.n o.k a b inA inB bank.acc
    let y := setBank y o.bank { bank with acc := acc, state := .busy }
    .ok ({ y with feedCycles := satAdd y.feedCycles o.g, intWrap := satAdd y.intWrap wraps },
         { o with inA := inA, inB := inB, phase := .feeding })

/-- A FEED begins to feed: B is read, A comes beat by beat (R230, R413). -/
def feedDirect (y : Platen) (o : PassOp) (b : List RunData) : Except (BitVec 16) (Platen × PassOp) :=
  let inB := leadsInForce o.int (pendingRecord y o).2 b o.n
  if o.int && leadMismatch inB b o.n then .error codeLeadMismatch
  else
    let bank := getBank y o.bank
    .ok (setBank y o.bank { bank with state := .busy, int := if o.pre = 0 then o.int else bank.int },
         { o with inB := inB, bRuns := b, phase := .feeding })

/-- The kind of the bank suits the pass; a FEED's preload to zero takes its kind from the feed (R119). -/
def kindOk (y : Platen) (o : PassOp) : Bool := (o.feed && o.pre = 0) || (getBank y o.bank).int = o.int

/-- Replace a pass; galley passes before it have ended their feed cycles. -/
def putFed (y : Platen) (o : PassOp) : Platen :=
  { y with passes := y.passes.map fun q =>
      if q.seq = o.seq then o
      else if q.phase = .feeding && decide (q.seq < o.seq) then { q with phase := .settling } else q }

/-- The operands of a pass that begins to feed, with the pass's result. -/
def feedStart (p : Nat) (pl : PlatenId) (o : PassOp) (d : Device) : Device :=
  let y := getPlaten (press d p) pl
  if !kindOk y o then faultEntry p 2 o.entry codeBankKind (some pl) d
  else
    let mask := (press d p).block
    let r := galleyRd d p
    let (r, a) := if o.feed then (r, []) else readRuns mask (p % 8) 256 o.k o.a r o.fmtsA
    let (r, b) := readRuns mask (p % 8) 32 o.k o.b r o.fmtsB
    afterCheck p 2 o.entry (some pl) (r, if o.feed then feedDirect y o b else feedGalley y o a b)
      (fun yo d => modPlaten p pl (fun _ => putFed yo.1 yo.2) d) d

/-- The next pass of a platen to feed: the first that has not begun; none while a FEED is feeding. -/
def nextPass (y : Platen) : Option PassOp :=
  if y.passes.any (fun o => o.feed && o.phase = .feeding) then none
  else y.passes.find? fun o => o.phase ≠ .feeding && o.phase ≠ .settling

/-- An access of the inking path takes the galley's feed port: a preload of partials, a drain, an INK or a JUSTIFY (R127,
R263). -/
def pathBusy (x : Press) : Bool :=
  let of (y : Platen) : Bool := y.passes.any (·.phase = .loading) || y.drain.any (·.started)
  of x.plA || of x.plB || x.inkOp.isSome || x.jusOp.isSome

def countFeedGalley (p : Nat) (d : Device) : Device :=
  modPress p (fun x => { x with stalls := { x.stalls with feedGalley := satAdd x.stalls.feedGalley 1 } }) d

/-- The feeder has no beat to take for a press cycle (R414). -/
def countFeedWait (p : Nat) : Device → Device :=
  modFount fun f => { f with feedWait := vmodN f.feedWait (feedOf p) fun w => satAdd w 1 }

/-- A pass begins to feed, or the command counts why it waits. A FEED that feeds waits for a beat whenever the command finds
it so (log 88). -/
def doPassFeedStart (p : Nat) (pl : PlatenId) (d : Device) : Device :=
  let x := press d p
  if (getPlaten x pl).passes.any fun o => o.feed && o.phase = .feeding then countFeedWait p d
  else match nextPass (getPlaten x pl) with
  | none => d
  | some o =>
    if !domainOn d p || (o.feedFmt.isNone && (!begins x || !taskLives d o.entry.slot)) then d
    else if o.phase ≠ .ready then
      modPlaten p pl (fun y => { y with interlockWait := satAdd y.interlockWait 1 }) d
    else if o.feed && o.feedFmt.isNone then
      countFeedWait p d
    else onPressSide p (feedStart p pl o) (if pathBusy x then countFeedGalley p d else d)

/-! ## PASS_SETTLE (R118, R130, R134) -/

/-- The oldest pass of a platen that has fed. -/
def settlingPass (y : Platen) : Option PassOp :=
  match y.passes with
  | [] => none
  | o :: _ => if o.phase = .settling || (o.phase = .feeding && !o.feed) then some o else none

def settlePass (o : PassOp) (y : Platen) : Platen :=
  let rest := y.passes.drop 1
  let busy := rest.any fun q => q.bank = o.bank && (q.phase = .feeding || q.phase = .settling)
  let kept := rest.any fun q => q.bank = o.bank && q.phase = .ready
  let y := modBank y o.bank fun b =>
    { b with rows := mergeLeads b.rows o.inA, cols := mergeLeads b.cols o.inB,
             state := if busy then .busy else if kept then .ready else .held }
  { y with passes := rest, passCount := satAdd y.passCount 1 }

def doPassSettle (p : Nat) (pl : PlatenId) (d : Device) : Device :=
  match settlingPass (getPlaten (press d p) pl) with
  | none => d
  | some o => preloads p (modPlaten p pl (settlePass o) d)

/-! ## Drains (R121 to R125, R157, R158, R168, R231, R232) -/

/-- Bytes of an element of a drain. -/
def drainWidth (o : DrainOp) : Nat := fmtWidth o.fmt / 8

/-- The task's job seed and step counter (R379). -/
def taskSeed (d : Device) (slot : Nat) : BitVec 64 × BitVec 64 :=
  match ticketOf d slot with
  | some t => (t.seed, t.step)
  | none => (0, 0)

/-- The Quoin stream of an SR drain or INK of press `p` (R381). -/
def srOf (d : Device) (p : Nat) (e : QEntry) : BitVec 32 := srStream e.vforme (p % 8) (press d p).srCount

/-- The DRAIN of an entry from its captured control register and descriptor; neither the open list nor a memory is touched
(R231, R232, R157, R158). DESIGN CHOICE: where several checks fail, the first in this order gives the code (log 102). -/
def drainCheck (d : Device) (p : Nat) (e : QEntry) : Except (BitVec 16) DrainOp :=
  let g := nth 0 e.vals 0
  let t := nth 0 e.desc 0
  let x := press d p
  let save := bit e.word 13
  if save then
    let a := pressAddr e.pm (p % 8) g.toNat
    match inGalley (p % 8) a 33088 with
    | none => .error codeBadDesc
    | some o =>
      if a % 64 ≠ 0 then .error codeBadDesc
      else .ok { entry := e, seq := x.seq, bank := bankOf e, save := true, close := false, addr := o, stride := 0,
                 col0 := 0, bias := 0, fmt := .binary32, mode := rneMode, stream := 0, fuse := 0, m := 256, n := 32 }
  else if fieldN g 18 13 ≠ 0 then .error codeIllegal
  else
    let m := fieldN g 7 0 + 1
    let n := fieldN g 12 8 + 1
    let fuse := fieldN g 20 19
    let base := pressAddr e.pm (p % 8) (dBase t)
    let bias := pressAddr e.pm (p % 8) (dBias t)
    if dKind t ≠ 2 || !reservedZero t kind2Fields || base % 64 ≠ 0 then .error codeBadDesc
    else match fmtOfCode (fieldN g 31 28), resolveModes x.fmt (fieldN g 27 25) (fieldN g 24 23) (fieldN g 22 21) with
      | none, _ => .error codeFmtBad
      | _, .error c => .error c
      | some f, .ok md =>
        if f ≠ .binary32 && f ≠ .binary16 && f ≠ .int32 then .error codeInBadFormat
        else if md.rnd = .sr && f = .binary32 then .error codeFmtBad
        else
          let biasAt := if fuse % 2 = 0 then some 0
            else if bias % 64 = 0 then inGalley (p % 8) (bias + 4 * dCol0 t) (4 * n) else none
          match inGalley (p % 8) base (64 + dStride t * (m - 1) + fmtWidth f / 8 * (dCol0 t + n)), biasAt with
          | none, _ => .error codeBadDesc
          | _, none => .error codeBadDesc
          | some o, some b =>
            .ok { entry := e, seq := x.seq, bank := bankOf e, save := false, close := bit e.word 12, addr := o,
                       stride := dStride t, col0 := dCol0 t, bias := b, fmt := f, mode := md,
                       stream := srOf d p e, fuse := fuse, m := m, n := n }

/-- A DRAIN names an Invalid bank that no earlier pass will fill (R130). -/
def drainInvalid (x : Press) (o : DrainOp) : Bool :=
  let y := getPlaten x (platenOf o.entry)
  decide ((getBank y o.bank).state = .invalid) && !earlierPass y o.bank o.seq

/-- The open slug at an address, and the open tile at one: a press holds the two apart (R168). -/
def sameSlug (inCase : Bool) (addr : Nat) (o : OpenDest) : Bool := !o.tile && (o.inCase == inCase) && o.addr = addr
def sameTile (addr : Nat) (o : OpenDest) : Bool := o.tile && o.addr = addr

/-- Do `g` with the first element that `q` picks. -/
def modFirst {α : Type} (q : α → Bool) (g : α → α) : List α → List α
  | [] => []
  | a :: r => if q a then g a :: r else a :: modFirst q g r

/-- Reserve the place of a drain's tile in the list, where no open tile will take the drain (R168, R232); none where the list is
full. A tile that an earlier DRAIN will have closed takes no more. DESIGN CHOICE: the limit is judged at dispatch, and counts
tiles that a DRAIN in flight has yet to close; a tile's header keeps the format and the stride of the DRAIN that opened it
(log 102). -/
def openTile (d : Device) (p : Nat) (o : DrainOp) : Option (List OpenDest) :=
  let l := (press d p).opens
  let live (q : OpenDest) : Bool := sameTile o.addr q && !q.closing
  let mine (q : OpenDest) : OpenDest := { q with closing := o.close }
  if l.any live then some (modFirst live mine l)
  else if 32 ≤ (l.filter fun q => !sameTile o.addr q).length then none
  else some (l ++ [{ inCase := false, addr := o.addr, tile := true, slot := o.entry.slot, fmt := fmtCode o.fmt,
                     rows := 0, cols := 0, stride := o.stride, writer := unitPress p,
                     step := (taskSeed d o.entry.slot).2, sr := false, quoin := 0, slug := 0, van := 0, sat := 0,
                     closing := o.close }])

/-- What a drain adds to its open tile: the largest row count and column, rounding under SR and its stream, and its counts
(R232). -/
def mergeTile (o : DrainOp) (c : FmtCounts) (q : OpenDest) : OpenDest :=
  let sr := decide (o.mode.rnd = .sr)
  { q with begun := true, rows := max q.rows o.m, cols := max q.cols (o.col0 + o.n), sr := q.sr || sr,
           quoin := if sr then o.stream else q.quoin, van := min 0xFFFF (q.van + c.van),
           sat := min 0xFFFF (q.sat + c.sat) }

/-- The drain enters the drain stage; a converting one under SR counts (R131, R381). -/
def enterDrain (p : Nat) (o : DrainOp) (opens : List OpenDest) (d : Device) : Device :=
  let d := modPress p (fun x =>
    { x with opens := opens, srCount := if o.mode.rnd = .sr then x.srCount + 1 else x.srCount }) d
  popHead p (modPlaten p (platenOf o.entry) (fun y => { y with drain := some o }) d)

/-- Check and dispatch a DRAIN or bank save. -/
def drainAtHead (p : Nat) (e : QEntry) (d : Device) : Device :=
  let x := press d p
  let pl := some (platenOf e)
  if (getPlaten x (platenOf e)).drain.isSome then d
  else match drainCheck d p e with
    | .error c => faultEntry p 1 e c pl d
    | .ok o =>
      if drainInvalid x o then faultEntry p 1 e codeBankInvalid pl d
      else if o.save then enterDrain p o x.opens d
      else match openTile d p o with
        | none => faultEntry p 1 e codeOpenLimit pl d
        | some l => enterDrain p o l d

def doDrainDispatch (p : Nat) : Device → Device := atHead (fun o => o = 0x22) p (drainAtHead p)

/-- The inking unit is free of INK and JUSTIFY. -/
def unitFree (x : Press) : Bool := x.inkOp.isNone && x.jusOp.isNone

/-- The elements that a drain writes, in element order, into a reader (R158), and how many it has come to. -/
def drainWrite (mask : BitVec 32) (o : DrainOp) (cells : List (Nat × Nat × Nat)) (r : Rd) : Rd × Nat :=
  cells.foldl (fun rn c =>
    if rdFailed rn.1 then rn
    else (rdWrite mask 16 rn.1 (o.addr + 64 + o.stride * c.2.1 + drainWidth o * (o.col0 + c.1)) (leBytes (drainWidth o) c.2.2),
      rn.2 + 1)) (r, 0)

/-- The bias vector of a drain, one entry for each drained column. -/
def drainBias (mask : BitVec 32) (o : DrainOp) (r : Rd) : Rd × List Word :=
  if o.fuse % 2 = 0 then (r, [])
  else
    let (r, v) := rdBytes mask 16 r o.bias (4 * o.n)
    (r, (List.range o.n).map fun j => BitVec.ofNat 32 (leAt v (4 * j) 4))

/-- The open tile's header with valid 0 and the opening drain's own values, which that drain writes first (R168, R232). -/
def drainHeader (mask : BitVec 32) (x : Press) (o : DrainOp) (c : FmtCounts) (r : Rd) : Rd :=
  match x.opens.find? (sameTile o.addr) with
  | none => r
  | some q => if q.begun then r else rdWrite mask 16 r o.addr (destHeader (mergeTile o c q) false false)

/-- The drain holds the path: its bank is Draining and it has begun. -/
def drainBegun (p : Nat) (pl : PlatenId) (o : DrainOp) (d : Device) : Device :=
  modPlaten p pl (fun y =>
    let y := modBank y o.bank fun b => { b with state := .draining }
    { y with drain := some { o with started := true } }) d

/-- The drain's tile is open once its header has been written (R168). -/
def drainOpens (p : Nat) (o : DrainOp) (c : FmtCounts) (r : Rd) (d : Device) : Device :=
  if rdFailed r then d else modPress p (fun x => { x with opens := modFirst (sameTile o.addr) (mergeTile o c) x.opens }) d

/-- Counts of a drain go to the press's counters (R104). -/
def drainCounts (p : Nat) (c : FmtCounts) (d : Device) : Device := modPress p (fun x => { x with fmt := addCounts x.fmt c }) d

/-- The counts of a drain: every conversion, or where a write could not be delivered those up to that element (R100). -/
def drainCounted (b : Bank) (o : DrainOp) (seed step : BitVec 64) (bias : List Word) (out : DrainOut) (rn : Rd × Nat) : FmtCounts :=
  if rdFailed rn.1 then (drainElems b o seed step bias ((drainOrder o).take rn.2)).counts else out.counts

/-- A converting drain reads its bank, converts and writes (R122, R157). Where an element faults, how many of the
columns before it had left the inking unit is open (R138): a free value. -/
def drainRun (p : Nat) (pl : PlatenId) (o : DrainOp) (d : Device) : Device :=
  let x := press d p
  let mask := x.block
  let bank := getBank (getPlaten x pl) o.bank
  let (seed, step) := taskSeed d o.entry.slot
  let (r, bias) := drainBias mask o (galleyRd d p)
  let out := drainConvert bank o seed step bias
  let r := drainHeader mask x o out.counts r
  let d := drainOpens p o out.counts r d
  match out.fault with
  | none =>
    let rn := drainWrite mask o out.cells r
    afterCheck p 2 o.entry (some pl) (rn.1, .ok ()) (fun _ d => drainBegun p pl o d)
      (drainCounts p (drainCounted bank o seed step bias out rn) d)
  | some (j, code) =>
    let (v, d) := takeFree 32 d
    let gone := v.toNat % (j + 1)
    let rn := drainWrite mask o (out.cells.filter fun c => decide (c.1 < gone)) r
    afterCheck p 2 o.entry (some pl) (rn.1, .ok ()) (fun _ d => faultEntry p 2 o.entry code (some pl) d)
      (drainCounts p (drainCounted bank o seed step bias out rn) d)

/-- A bank save writes its image (R124, R125). -/
def drainSave (p : Nat) (pl : PlatenId) (o : DrainOp) (d : Device) : Device :=
  let x := press d p
  let bank := getBank (getPlaten x pl) o.bank
  let r := rdWrite x.block 16 (galleyRd d p) o.addr (imageBytes bank (b2n bank.int))
  afterCheck p 2 o.entry (some pl) (r, .ok ()) (fun _ d => drainBegun p pl o d) d

def doDrainStart (p : Nat) (pl : PlatenId) (d : Device) : Device :=
  let x := press d p
  let y := getPlaten x pl
  match y.drain with
  | none => d
  | some o =>
    if o.started || earlierPass y o.bank o.seq || !pathTurn x o.seq || !domainOn d p then d
    else if !o.save && !unitFree x then
      modPress p (fun x => { x with stalls := { x.stalls with drainInk := satAdd x.stalls.drainInk 1 } }) d
    else onPressSide p (if o.save then drainSave p pl o else drainRun p pl o) d

/-- What a DRAIN leaves when it is done: its bank Held, its stage empty, its operation counted. -/
def drainLeave (p : Nat) (pl : PlatenId) (o : DrainOp) (d : Device) : Device :=
  let d := modPlaten p pl (fun y =>
    let y := modBank y o.bank fun b => { b with state := .held }
    { y with drain := none }) d
  let d := if o.save then d else modPress p (fun x => { x with ink := { x.ink with ops := satAdd x.ink.ops 1 } }) d
  preloads p d

/-- DRAIN_DONE: the flush of the merge buffer and then the last write, which closes the tile (R168, R232, R304). -/
def doDrainDone (p : Nat) (pl : PlatenId) (d : Device) : Device :=
  let x := press d p
  match (getPlaten x pl).drain with
  | none => d
  | some o =>
    if !o.started then d
    else onPressSide p (fun d =>
      let q := if o.close then x.opens.find? (sameTile o.addr) else none
      let close (d : Device) : Device :=
        match q with
        | none => drainLeave p pl o d
        | some q =>
          afterCheck p 2 o.entry (some pl)
            (rdWrite x.block 16 (galleyRd d p) o.addr (destHeader q false true), .ok ()) (fun _ d =>
              drainLeave p pl o (modPress p (fun x => { x with opens := x.opens.eraseP (sameTile o.addr) }) d)) d
      afterCheck p 2 o.entry (some pl) (rdFlush (galleyRd d p), .ok ()) (fun _ d => close d) d) d

/-! ## Preemption (R135, R139) -/

/-- A platen is at a pass boundary: no bank is Busy or Loading and no drain of it holds the inking path. -/
def atBoundary (y : Platen) : Bool :=
  let free (b : Bank) : Bool := b.state ≠ .busy && b.state ≠ .loading
  free y.bank0 && free y.bank1 && !(match y.drain with | some o => o.started | none => false)

/-- The platen has nothing more to complete before it is preempted; a FEED that has taken its first lead beat is in
progress (R413). -/
def preemptReady (y : Platen) : Bool :=
  atBoundary y && !drainCanRun y && !y.passes.any fun o => o.feedFmt.isSome && o.phase = .ready

/-- The press has completed what its preemption asks for: under a pause every dispatched pass and drain, else what R135 names. -/
def preempts (x : Press) : Bool :=
  match x.preempt with
  | .pausing => platenIdle x.plA && platenIdle x.plB
  | .requested => preemptReady x.plA && preemptReady x.plB
  | _ => false

/-- The preemption that is asked of a press: a pause's where its ticket pauses. -/
def preemptKind (d : Device) (p : Nat) : Preempt :=
  if ((pressTask d p).bind (ticketOf d)).any (·.pause.isSome) then .pausing else .requested

def doPreemptRequest (p : Nat) (d : Device) : Device :=
  if (press d p).preempt = .none then modPress p (fun x => { x with preempt := preemptKind d p }) d else d

/-- The task of press `p` is aborted by the reset request that had it preempted (R508). -/
def preemptAbort (p : Nat) (d : Device) : Device :=
  match (pressTask d p).bind (ticketOf d) with
  | none => d
  | some t =>
    match (taskPresses d t.slot).find? fun q => fenced d q && (press d q).recovery.lastCause = 1 with
    | none => d
    | some q =>
      if (taskPresses d t.slot).all fun r => (press d r).preempt = .preempted then
        faultTask t.slot 0x0A03 (unitPress q) { phase := 3 } none d
      else d

def countPreempt (p : Nat) (d : Device) : Device :=
  modPress p (fun x => { x with stalls := { x.stalls with preempt := satAdd x.stalls.preempt 1 } }) d

/-- The press is preempted, or waits to be; each command that finds it so counts one cycle of PREEMPT (R135, R263). -/
def doPreempted (p : Nat) (d : Device) : Device :=
  let x := press d p
  if preempts x then preemptAbort p (modPress p (fun x => { x with preempt := .preempted }) d)
  else if x.preempt = .none then d
  else countPreempt p d

/-! ## The commands -/

def execPassDispatch (p : PressId) (s : State) : Host.Outcome State Fault Refusal := onDev (doPassDispatch p.1) s
def execPreloadDone (p : PressId) (pl : PlatenId) (s : State) : Host.Outcome State Fault Refusal :=
  onDev (doPreloadDone p.1 pl) s
def execPassFeedStart (p : PressId) (pl : PlatenId) (s : State) : Host.Outcome State Fault Refusal :=
  onDev (doPassFeedStart p.1 pl) s
def execPassSettle (p : PressId) (pl : PlatenId) (s : State) : Host.Outcome State Fault Refusal :=
  onDev (doPassSettle p.1 pl) s
def execDrainDispatch (p : PressId) (s : State) : Host.Outcome State Fault Refusal := onDev (doDrainDispatch p.1) s
def execDrainStart (p : PressId) (pl : PlatenId) (s : State) : Host.Outcome State Fault Refusal :=
  onDev (doDrainStart p.1 pl) s
def execDrainDone (p : PressId) (pl : PlatenId) (s : State) : Host.Outcome State Fault Refusal :=
  onDev (doDrainDone p.1 pl) s
def execPreemptRequest (p : PressId) (s : State) : Host.Outcome State Fault Refusal := onDev (doPreemptRequest p.1) s
def execPreempted (p : PressId) (s : State) : Host.Outcome State Fault Refusal := onDev (doPreempted p.1) s

end Sys2Proof.Machine
end

