-- ==== Sys2Proof/Machine/InkExec.lean ====
section
/-!
DEFINITION. Machine/InkExec.lean: INK and JUSTIFY from dispatch to completion (04_inking_and_justifying.md R145 to R169;
06 R233 to R236), with their commands.
-/
namespace Sys2Proof.Machine

/-- The inking unit can take an INK or a JUSTIFY: nothing holds it, and every converting drain dispatched before has been
served (R159). -/
def unitTakes (x : Press) : Bool :=
  let conv (y : Platen) : Bool := match y.drain with | some o => !o.save | none => false
  unitFree x && !conv x.plA && !conv x.plB

/-! ## INK_DISPATCH (R146 to R156, R233 to R235) -/

/-- What an INK's captured control register and descriptors give, checked (R195, R233, R234). -/
structure InkPlan where
  iop   : Nat
  wmask : Nat
  ctl   : InkCtl
  mode  : ConvMode
  vecD  : Option (Nat × Fmt)
  vecA  : Option (Nat × Fmt)
  vecB  : Option (Nat × Fmt)
  vecC  : Option (Nat × Fmt)
  deriving DecidableEq, Repr

/-- The galley vector of one spec, where the spec is one. -/
def inkVecOf (p : Nat) (e : QEntry) (i spec : Nat) : Except (BitVec 16) (Option (Nat × Fmt)) :=
  match inkSpec spec with
  | .vec _ => (inkVec e.pm (p % 8) (nth 0 e.desc i)).map some
  | _ => .ok none

/-- The format of the destination (R146). -/
def inkDestFmt (v : Option (Nat × Fmt)) : Fmt := (v.map (·.2)).getD .binary32

/-- The checks of an INK at dispatch (R242). DESIGN CHOICE: where several fail, the first in this order gives the code (log 102). -/
def inkPlan (d : Device) (p : Nat) (e : QEntry) : Except (BitVec 16) InkPlan :=
  let c := inkCtl (nth 0 e.vals 0)
  let iop := fieldN e.word 15 11
  if !inkCtlOk iop c then .error codeIllegal
  else match inkVecOf p e 0 (if iop = 6 then 0 else c.d), inkVecOf p e 1 c.a, inkVecOf p e 2 c.b, inkVecOf p e 3 c.c with
    | .error k, _, _, _ => .error k
    | _, .error k, _, _ => .error k
    | _, _, .error k, _ => .error k
    | _, _, _, .error k => .error k
    | .ok vd, .ok va, .ok vb, .ok vc =>
      match resolveModes (press d p).fmt c.round c.ovf c.nan with
      | .error k => .error k
      | .ok md =>
        if iop ≠ 6 && md.rnd = .sr && inkDestFmt vd = .binary32 then .error codeFmtBad
        else .ok ⟨iop, fieldN e.word 10 9, c, md, vd, va, vb, vc⟩

/-- The INK touches the galley. -/
def inkGalley (k : InkPlan) : Bool := k.vecD.isSome || k.vecA.isSome || k.vecB.isSome || k.vecC.isSome

/-- Lanes that a mask makes active, ascending (R148). -/
def activeLanes (x : InkRegs) (k : Nat) : List Nat := (List.range 256).filter (laneMask x k).getLsbD

/-- A comparison's new mask: lanes outside the write mask keep their bits (R149, R235). -/
def inkCompare (x : InkRegs) (k : InkPlan) (a b : List Word) : BitVec 256 :=
  let bits := (activeLanes x k.wmask).foldl (fun (v : BitVec 256) l =>
    if fpred k.ctl.pred (nth 0 a l) (nth 0 b l) then v ||| (1#256 <<< l) else v) 0
  (laneMask x k.ctl.d &&& ~~~(laneMask x k.wmask)) ||| bits

/-- What an INK that writes values will write when it completes. -/
def inkWrites (e : QEntry) (k : InkPlan) (o : InkOut) : InkOp :=
  if k.iop = 0x0D then
    { entry := e, lanes := o.vals.reverse.map (fun v => (k.ctl.c, v.1, BitVec.ofNat 32 v.2))
        ++ o.aux.reverse.map (fun v => (k.ctl.b, v.1, v.2)), mask := none, mem := [] }
  else match k.vecD with
    | none => { entry := e, lanes := o.vals.reverse.map (fun v => (k.ctl.d, v.1, BitVec.ofNat 32 v.2)), mask := none,
                mem := [] }
    | some (a, f) =>
      let w := fmtWidth f / 8
      { entry := e, lanes := [], mask := none, mem := o.vals.reverse.map (fun v => (a + w * v.1, leBytes w v.2)) }

/-- The results of an INK over its sources (R147 to R156). -/
def inkCompute (d : Device) (p : Nat) (e : QEntry) (k : InkPlan) (a b c : List Word) : InkOut :=
  let x := (press d p).ink
  let active := activeLanes x k.wmask
  let (seed, step) := taskSeed d e.slot
  if k.iop = 0x0D then inkSmstep k.mode active a b c
  else (inkLanes k.iop (k.mode.rnd = .rdn) x k.ctl.smask active a b c).foldl
    (inkConv (inkDestFmt k.vecD) k.mode seed step (srOf d p e)) {}

/-- The INK takes the unit. -/
def takeUnit (p : Nat) (o : InkOp) (sr : Bool) (d : Device) : Device :=
  popHead p (modPress p (fun x =>
    { x with inkOp := some o, srCount := if sr then x.srCount + 1 else x.srCount }) d)

/-- Read the sources of an INK and compute it. -/
def inkRun (p : Nat) (e : QEntry) (k : InkPlan) (d : Device) : Device :=
  let x := press d p
  let (r, a) := inkSource x.block x.ink e.vals (galleyRd d p) k.ctl.a k.vecA
  let (r, b) := inkSource x.block x.ink e.vals r k.ctl.b k.vecB
  let (r, c) := inkSource x.block x.ink e.vals r k.ctl.c k.vecC
  afterCheck p 2 e none (r, .ok ()) (fun _ d =>
    if k.iop = 6 then takeUnit p ⟨e, [], some (k.ctl.d, inkCompare x.ink k a b), []⟩ false d
    else
      let o := inkCompute d p e k a b c
      let d := modPress p (fun x => { x with fmt := addCounts x.fmt o.counts }) d
      match o.fault with
      | some code => faultEntry p 2 e code none d
      | none => takeUnit p (inkWrites e k o) (decide (k.mode.rnd = .sr)) d) d

def inkAtHead (p : Nat) (e : QEntry) (d : Device) : Device :=
  if !unitTakes (press d p) then d
  else match inkPlan d p e with
    | .error c => faultEntry p 1 e c none d
    | .ok k => if inkGalley k then onPressSide p (inkRun p e k) d else inkRun p e k d

def doInkDispatch (p : Nat) : Device → Device := atHead (fun o => o = 0x23) p (inkAtHead p)

/-! ## INK_DONE (R235) -/

/-- The registers of the inking unit after an INK. -/
def inkApply (o : InkOp) (x : InkRegs) : InkRegs :=
  let x := { x with lanes := o.lanes.foldl (fun l v => smapSet 0 l (256 * v.1 + v.2.1) v.2.2) x.lanes,
                    ops := satAdd x.ops 1 }
  match o.mask with
  | none => x
  | some (k, v) => setLaneMask x k v

def inkFinish (p : Nat) (o : InkOp) (d : Device) : Device :=
  modPress p (fun x => { x with ink := inkApply o x.ink, inkOp := none }) d

def doInkDone (p : Nat) (d : Device) : Device :=
  match (press d p).inkOp with
  | none => d
  | some o =>
    if o.mem = [] then inkFinish p o d
    else onPressSide p (fun d =>
      let mask := (press d p).block
      let r := o.mem.foldl (fun r w => rdWrite mask 16 r w.1 w.2) (galleyRd d p)
      afterCheck p 2 o.entry none (rdFlush r, .ok ()) (fun _ d => inkFinish p o d) d) d

/-! ## JUSTIFY_DISPATCH (R161, R168, R236) -/

/-- The slot of a slug: whether it lies in the case, and its offset there (R192, R194, R195). -/
def slugSlot (p a bytes : Nat) : Except (BitVec 16) (Bool × Nat) :=
  if a % 64 ≠ 0 then .error codeBadDesc
  else match inGalley (p % 8) a bytes, inCase a bytes with
    | some o, _ => .ok (false, o)
    | none, some o => .ok (true, o)
    | none, none => .error codeBadDesc

/-- The wider of two formats' slugs. -/
def widerSlug (f g : Fmt) : Nat := max (slugBytes f) (slugBytes g)

/-- The checks of a JUSTIFY that need no memory. The source format is not known yet. DESIGN CHOICE: where several checks fail,
the first in this order gives the code (log 102). -/
def jusCheck (d : Device) (p : Nat) (e : QEntry) : Except (BitVec 16) JusOp :=
  let g := nth 0 e.vals 0
  let x := press d p
  let tD := nth 0 e.desc 1
  let base := pressAddr e.pm (p % 8) (dBase tD)
  if fieldN g 24 14 ≠ 0 then .error codeIllegal
  else match takeSource e.pm (p % 8) (nth 0 e.desc 0) with
    | .error c => .error c
    | .ok src =>
      if !src.tile || dKind tD ≠ 3 || !reservedZero tD kind3Fields || base % 64 ≠ 0 then .error codeBadDesc
      else match fmtOfCode (fieldN g 31 28), nanField x.fmt.nan (fieldN g 26 25) with
        | none, _ => .error codeFmtBad
        | _, none => .error codeFmtBad
        | some f, some sq =>
          if !fmtShort f then .error codeInBadFormat
          else
            let fb := (fmtOfCode (fallbackOf x.ink.fallback f)).getD f
            let a := base + dStride tD * dSlug tD
            if dStride tD < widerSlug f fb then .error codeSlotSmall
            else match slugSlot p a (widerSlug f fb) with
              | .error c => .error c
              | .ok (ic, o) =>
                .ok { entry := e, src := src, srcFmt := .binary32, fmt := f, fb := fb, sr := bit g 27, squash := sq,
                      kv := fieldN g 13 8 + 1, m := fieldN g 7 0 + 1, inCase := ic, addr := o, slug := dSlug tD,
                      quoin := dQuoin tD, van := x.ink.vanLimit, sat := x.ink.satLimit }

/-- The header of the source tile (R161, R166). -/
def jusHeader (mask : BitVec 32) (p : Nat) (o : JusOp) (r : Rd) : Rd × Except (BitVec 16) JusOp :=
  let (r, h) := rdBytes mask 16 r (o.src.base - 0x200000 * (p % 8)) 64
  if rdFailed r then (r, .error 0)
  else if !hdrValid h then (r, .error codeSlugInvalid)
  else match hdrFmt h with
    | none => (r, .error codeFmtBad)
    | some f =>
      if f ≠ .binary32 && f ≠ .binary16 then (r, .error codeInBadFormat)
      else match inGalley (p % 8) o.src.base
          (64 + o.src.stride * (o.m - 1) + fmtWidth f / 8 * (o.src.first + o.kv)) with
        | none => (r, .error codeBadDesc)
        | some _ => (r, .ok { o with srcFmt := f })

/-- Open the slug of a JUSTIFY (R168); none where the list is full. -/
def openSlug (d : Device) (p : Nat) (o : JusOp) : Option (List OpenDest) :=
  let l := (press d p).opens
  if l.any (sameSlug o.inCase o.addr) then some l
  else if 32 ≤ l.length then none
  else some (l ++ [{ inCase := o.inCase, addr := o.addr, tile := false, slot := o.entry.slot, fmt := fmtCode o.fmt,
                     rows := o.m, cols := o.kv, stride := 0, writer := unitPress p,
                     step := (taskSeed d o.entry.slot).2, sr := o.sr, quoin := o.quoin, slug := o.slug, van := 0,
                     sat := 0 }])

/-- Write a slug, or its header, into the case (R192): its blocked banks and its errors are the case's. -/
def slugToCase (p : Nat) (o : JusOp) (v : List Byte) (act : Device → Device) (d : Device) : Device :=
  let id := MemId.case (p / 8)
  let ctx := ctxOf p 2 o.entry none
  if memBlocked d id o.addr v.length then faultBlocked o.entry.slot id o.addr 0 none ctx d
  else
    match flushMem id 0 o.entry.slot (writeMem id o.addr v 0 none (some (writerEntry d p 2 o.entry none)) d) with
    | (d, true) => d
    | (d, false) => act d

/-- The JUSTIFY has begun: its slug's header is written with valid 0, before any element (R168). DESIGN CHOICE: the other
fields of that header are the JUSTIFY's own, with the format requested as the format used, and counts and tally of zero
(log 102). -/
def jusBegin (p : Nat) (o : JusOp) (d : Device) : Device :=
  match (press d p).opens.find? (sameSlug o.inCase o.addr) with
  | none => d
  | some q =>
    let hdr := destHeader q false false
    let begun (d : Device) : Device :=
      modPress p (fun x => { x with opens := modWhere (sameSlug o.inCase o.addr) (fun q => { q with begun := true }) x.opens }) d
    if o.inCase then slugToCase p o hdr begun d
    else afterCheck p 2 o.entry none (rdWrite (press d p).block 16 (galleyRd d p) o.addr hdr, .ok ()) (fun _ d => begun d) d

/-! ### The trial and the conversion (R162 to R167) -/

/-- The source rows as exact values (R162). -/
def jusSource (mask : BitVec 32) (p : Nat) (o : JusOp) (r : Rd) : Rd × List (List Val) :=
  let w := fmtWidth o.srcFmt / 8
  let x := (List.range o.m).foldl (fun (a : Rd × List (List Val)) i =>
    let (r, v) := rdBytes mask 16 a.1
      (o.src.base - 0x200000 * (p % 8) + 64 + o.src.stride * i + w * o.src.first) (w * o.kv)
    (r, (List.range o.kv).map (fun k => decodeElem o.srcFmt (leAt v (w * k) w)) :: a.2)) (r, [])
  (x.1, x.2.reverse)

/-- The slug's bytes, header first, with valid 1 (R160, R162, R167). DESIGN CHOICE: a slug converted under RNE uses no Quoin
stream, and its header's quoin_stream holds the descriptor's (log 88). -/
def slugImage (p : Nat) (o : JusOp) (step : BitVec 64) (trial out : JusOut) (f : Fmt) (promoted : Bool) : List Byte :=
  let body := slugBody f out
  headerBytes { fmtReq := fmtCode o.fmt, fmtUsed := fmtCode f, flags := hdrFlags false o.sr false promoted true,
                rows := o.m, cols := o.kv, stride := 0, step := step, quoin := o.quoin, slug := o.slug,
                maxVan := maxOf trial.van, maxSat := maxOf trial.sat, van := min 0xFFFF (sumOf out.van),
                sat := min 0xFFFF (sumOf out.sat), tally := tally body, writer := unitPress p } ++ body

/-- The trial, the fallback where a limit is exceeded, and the slug that will be written; a NaN that the trial meets under FAULT
faults before any write (R162, R163). -/
def jusSlug (p : Nat) (o : JusOp) (seed step : BitVec 64) (src : List (List Val)) : Except (BitVec 16) JusOp :=
  let md : ConvMode := ⟨if o.sr then .sr else .rne, .sat, o.squash, true⟩
  let trial := jusConvert o.fmt md seed step o.quoin o.slug o.m src
  match trial.fault with
  | some c => .error c
  | none =>
    let promoted := jusExceeds o.van o.sat trial && decide (o.fb ≠ o.fmt)
    let f := if promoted then o.fb else o.fmt
    let out := if promoted then jusConvert o.fb md seed step o.quoin o.slug o.m src else trial
    match out.fault with
    | some c => .error c
    | none =>
      .ok { o with image := slugImage p o step trial out f promoted, promoted := promoted,
                   noughts := ((out.leads.take o.m).filter (· = 0x80#8)).length, counts := out.counts }

/-- A checked JUSTIFY reads its source, converts it, and takes the unit with its slug open. -/
def jusStart (p : Nat) (e : QEntry) (o : JusOp) (l : List OpenDest) (d : Device) : Device :=
  let (seed, step) := taskSeed d e.slot
  let (r, src) := jusSource (press d p).block p o (galleyRd d p)
  afterCheck p 2 e none (r, jusSlug p o seed step src)
    (fun o d => jusBegin p o (popHead p (modPress p (fun x => { x with jusOp := some o, opens := l }) d))) d

def jusAtHead (p : Nat) (e : QEntry) (d : Device) : Device :=
  if !unitTakes (press d p) then d
  else match jusCheck d p e with
    | .error c => faultEntry p 1 e c none d
    | .ok o => onPressSide p (fun d =>
        afterCheck p 1 e none (jusHeader (press d p).block p o (galleyRd d p)) (fun o d =>
          match openSlug d p o with
          | none => faultEntry p 1 e codeOpenLimit none d
          | some l => jusStart p e o l d) d) d

def doJustifyDispatch (p : Nat) : Device → Device := atHead (fun o => o = 0x24) p (jusAtHead p)

/-! ## JUSTIFY_DONE (R162, R168) -/

/-- The counters of a slug that has been written (R100, R163, R173). -/
def jusCounts (o : JusOp) (x : Press) : Press :=
  { x with fmt := addCounts x.fmt o.counts,
           ink := { x.ink with slugs := satAdd x.ink.slugs 1, promoted := satAdd x.ink.promoted (b2n o.promoted),
                               zeroRows := satAdd x.ink.zeroRows o.noughts },
           jusOp := none, opens := x.opens.filter fun q => !sameSlug o.inCase o.addr q }

/-- The leads and codes are written, and the header with valid 1 last. -/
def doJustifyDone (p : Nat) (d : Device) : Device :=
  match (press d p).jusOp with
  | none => d
  | some o =>
    if o.inCase then slugToCase p o o.image (modPress p (jusCounts o)) d
    else onPressSide p (fun d =>
      afterCheck p 2 o.entry none (rdFlush (rdWrite (press d p).block 16 (galleyRd d p) o.addr o.image), .ok ())
        (fun _ d => modPress p (jusCounts o) d) d) d

/-! ## The commands -/

def execInkDispatch (p : PressId) (s : State) : Host.Outcome State Fault Refusal := onDev (doInkDispatch p.1) s
def execInkDone (p : PressId) (s : State) : Host.Outcome State Fault Refusal := onDev (doInkDone p.1) s
def execJustifyDispatch (p : PressId) (s : State) : Host.Outcome State Fault Refusal := onDev (doJustifyDispatch p.1) s
def execJustifyDone (p : PressId) (s : State) : Host.Outcome State Fault Refusal := onDev (doJustifyDone p.1) s

end Sys2Proof.Machine
end

