-- ==== Sys2Proof/Machine/Makeready.lean ====
section
/-!
DEFINITION. Machine/Makeready.lean: impositions and admission (01_press_time.md R36 to R48, R53, R65), the service of
rings and the four kinds of ticket (13_host_interface.md R477 to R485, R488 to R490; 14 R513, R514).
-/
namespace Sys2Proof.Machine

/-! ## Tickets (R477, R478, R480) -/

def tkBytes (t : BitVec 512) : List Byte := leBytes 64 t.toNat
def tkId (t : BitVec 512) : BitVec 64 := field t 63 0
def tkImp (t : BitVec 512) : Nat := fieldN t 127 64
def tkStart (t : BitVec 512) : Nat := fieldN t 159 128
def tkDeadline (t : BitVec 512) : Nat := fieldN t 191 160
def tkSeed (t : BitVec 512) : BitVec 64 := field t 255 192
def tkStep (t : BitVec 512) : BitVec 64 := field t 319 256
def tkProgram (t : BitVec 512) : Nat := fieldN t 383 320
def tkTally (t : BitVec 512) : BitVec 64 := field t 447 384
def tkOp (t : BitVec 512) : Nat := fieldN t 449 448
def tkClass (t : BitVec 512) : Nat := fieldN t 457 456
def tkBreak (t : BitVec 512) : Bool := bit t 464

/-- A ticket keeps R477: non-zero identifier, zero where the op says zero, aligned addresses. -/
def ticketOk (t : BitVec 512) : Bool :=
  let zero (hi lo : Nat) : Bool := fieldN t hi lo = 0
  tkId t ≠ 0 && zero 455 450 && zero 463 458 && zero 471 465 && zero 511 472 &&
  match tkOp t with
  | 0 => tkImp t % 64 = 0 && tkProgram t % 64 = 0
  | 1 => tkImp t % 64 = 0 && tkProgram t % 4096 = 0 && zero 319 192 && zero 447 384
  | 2 => zero 319 64 && zero 447 384 && zero 457 456 && zero 464 464 && tkProgram t % 4096 = 0
  | _ => zero 319 64 && zero 447 384 && zero 457 456 && zero 464 464 && tkProgram t = 0

/-- The sheet that a 32-bit sheet field names (R478). -/
def fullSheet (now field : Nat) : Nat :=
  let rel := (field + 2 ^ 32 - now % 2 ^ 32) % 2 ^ 32
  if rel < 2 ^ 31 then now + rel else now + rel - 2 ^ 32

/-! ## Answers (R46, R490) -/

/-- REFUSED (R490). `first` is the first candidate sheet, `done` the completion that ended the search. -/
def refuseRec (code : BitVec 16) (id : BitVec 64) (ring index op first done : Nat) (d : Device) : Rec :=
  { type := 2, severity := 1, unit := unitMk, time := d.time.count, ticket := id, code := code,
    detail := dput 32 first <| dput 40 done <| dput 48 ring <| dput 49 op <| dput 50 index 0 }

def refuse (code : BitVec 16) (id : BitVec 64) (ring index pq op first done : Nat) (d : Device) : Device :=
  let d := modMk (fun m => { m with refused := satAdd m.refused 1 }) d
  postRec pq (refuseRec code id ring index op first done d) d

/-- A ring whose ticket in progress has been answered stops, if it was asked to (R482). -/
def ringSettle (r : Nat) (d : Device) : Device :=
  if (vgetN {} d.host.rings r).closing then
    modHost (fun h => { h with doorbells := h.doorbells.filter (·.ring ≠ r) })
      (modRing r (fun x => { x with enable := false, closing := false }) d)
  else d

/-- A ticket read has ended: the head advances, and an entry whose tickets are all read leaves the queue (R483). -/
def readEnd (r : Nat) (d : Device) : Device :=
  let x := vgetN {} d.host.rings r
  let head := if x.size.toNat = 0 then 0 else (x.head.toNat + 1) % x.size.toNat
  let d := modRing r (fun x => { x with head := BitVec.ofNat 12 head }) d
  let left : List Doorbell :=
    match d.host.doorbells with
    | [] => []
    | e :: l => if e.ring = r && e.begun && e.tail = head then l else e :: l
  modHost (fun h => { h with reading := none, doorbells := left }) d

/-! ## Doorbells (R482 to R485) -/

/-- An unbegun entry for the ring is in the doorbell queue. -/
def queuedEntry (r : Nat) (e : Doorbell) : Bool := decide (e.ring = r) && !e.begun

/-- DOORBELL (R483, R532). -/
def doDoorbell (ring : RingId) (tail : BitVec 12) (d : Device) : Device :=
  let r := ring.1
  let x := vgetN {} d.host.rings r
  if !fnServes d .pf1 then d
  else if !x.enable || x.size.toNat ≤ tail.toNat then logHost 0x0705 d
  else if tail = x.tail then d
  else
    let d := modRing r (fun x => { x with tail := tail }) d
    let bells :=
      if d.host.doorbells.any (queuedEntry r) then
        modWhere (queuedEntry r) (fun e => { e with tail := tail.toNat }) d.host.doorbells
      else d.host.doorbells ++ [⟨r, tail.toNat, false⟩]
    let d := modHost (fun h => { h with doorbells := bells }) d
    wakeEvent 2 none .host d

/-- Makeready takes no ticket (R484, R531; it waits for Foreman, R588). -/
def ticketsHeld (d : Device) (q : Nat) : Bool :=
  !d.host.busMaster || (d.hbmStacks.toList.any (·.state = .filling)) || !(pqueue d q).enable
    || 128 < (pqueue d q).holding.length || d.power.change.isSome || d.power.state = .stand
    || d.trust.running.isNone || !d.host.linkUp || 256 ≤ hostReads d

/-- DOORBELL_SERVICE (R43, R483, R484). -/
def doDoorbellService (d : Device) : Device :=
  match d.host.doorbells with
  | [] => d
  | e :: l =>
    let x := vgetN {} d.host.rings e.ring
    let q := x.pq.toNat
    if d.host.reading.isSome || d.mkr.admission.isSome || !x.enable || x.closing || ticketsHeld d q then d
    else if e.tail = x.head.toNat then modHost (fun h => { h with doorbells := l }) d
    else
      let head := x.head.toNat
      let d := modHost (fun h => { h with doorbells := { e with begun := true } :: l,
                                          reading := some (e.ring, head, q) }) d
      emit (.hostRead (x.base.toNat + 64 * head) 64) d

/-- TICKET_READ_FAILED (R475, R476, R485). -/
def doTicketReadFailed (poisoned : Bool) (d : Device) : Device :=
  match d.host.reading with
  | none => d
  | some (r, i, q) =>
    let d := if poisoned then notePoison .pf1 d else d
    ringSettle r (refuse 0x0702 0 r i q 0 0 0 (readEnd r d))

/-! ## The opening checks (R44) -/

/-- The refusal that the time state gives; none while Locked. -/
def stateRefusal : TimeState → Option (BitVec 16)
  | .unsynced => some 0x0101
  | .acquiring => some 0x0101
  | .locked => none
  | .holdover => some 0x0102
  | .lost => some 0x0103

/-- The opening checks: the code of the first that fails. -/
def openingCheck (d : Device) (t : BitVec 512) : Option (BitVec 16) :=
  if !ticketOk t then some 0x0701
  else if !d.mkr.admitting then some 0x0117
  else match stateRefusal d.time.state with
    | some c => some c
    | none => if (ticketById d (tkId t)).isSome then some 0x0116 else none

/-- A submit or resume ticket arrives, and Makeready begins to read its imposition (R44, R480). -/
def takeTicket (op : Nat) (t : BitVec 512) (d : Device) : Device :=
  match d.host.reading with
  | none => d
  | some (r, i, q) =>
    if tkOp t ≠ op || noImage d then d
    else
      let d := readEnd r d
      match openingCheck d t with
      | some c => ringSettle r (refuse c (tkId t) r i q op 0 0 d)
      | none => noteRead (tkImp t) 64 4 none (modMk (fun m => { m with admission := some ⟨r, i, q, t, false⟩ }) d)

/-! ## Pause and abort (R481) -/

/-- The target of a pause or an abort: open and not aborting (R481, R516). -/
def openTarget (d : Device) (id : BitVec 64) : Option Ticket := (ticketById d id).filter fun t => t.abort.isNone

/-- PROMISE_WITHDRAWN (R55, R490). -/
def withdraw (t : Ticket) (d : Device) : Device := ticketRec t 6 0 unitMk 0x0114 (dput 32 t.promise 0) d

/-- PAUSED (R490). -/
def pausedRec (t : Ticket) (addr elapsed : Nat) (image : Bool) (d : Device) : Device :=
  ticketRec t 7 0 unitMk 0 (dput 32 addr (dput 40 elapsed (dput 44 (b2n image) 0))) d

/-- A pause asks for preemption at a press (R135, R385); where the frisket has asked already, its reset goes before. -/
def requestPreempt (d : Device) (p : Nat) : Device :=
  modPress p (fun x => { x with preempt := if x.recovery.state = .inService then .pausing else x.preempt }) d

/-- A pause takes its turn (R385, R386, R481). -/
def pauseTicket (t : Ticket) (addr : Nat) (d : Device) : Device :=
  if t.pause.isSome then d
  else if t.started then
    let d := modTicket t.slot (fun t => { t with pause := some ⟨addr, d.time.count⟩ }) (withdraw t d)
    (taskPresses d t.slot).foldl requestPreempt d
  else dropTicket t.slot (pausedRec t addr 0 false (releaseEntries t (withdraw t d)))

/-- A pause or abort ticket arrives. DEDUCED: MK_CTRL.admit and the time state do not refuse it, since R481 places it
under none of R44's checks; R62's 'every ticket' is read as every ticket that asks for admission. -/
def takeControl (op : Nat) (t : BitVec 512) (act : Ticket → Device → Device) (d : Device) : Device :=
  match d.host.reading with
  | none => d
  | some (r, i, q) =>
    if tkOp t ≠ op then d
    else
      let d := readEnd r d
      ringSettle r
        (if !ticketOk t then refuse 0x0701 (tkId t) r i q op 0 0 d
         else match openTarget d (tkId t) with
          | none => refuse 0x0703 (tkId t) r i q op 0 0 d
          | some x => act x d)

def doPause (t : BitVec 512) (d : Device) : Device := takeControl 2 t (fun x => pauseTicket x (tkProgram t)) d
def doAbort (t : BitVec 512) (d : Device) : Device :=
  takeControl 3 t (fun x => abortTicket x 0x0704 unitMk) d

/-! ## Impositions (R40, R41) -/

structure Imp where
  span    : Nat
  reloc   : Bool
  entries : List (BitVec 128)
  deriving DecidableEq, Repr

/-- An index lies in its class's range, and names a present unit (R3, R39). -/
def targetOk (part : Part) (c i : Nat) : Bool :=
  match c with
  | 0 => decide (i < 16)
  | 1 => stackPresent part i
  | 2 => quadPresent part i
  | 3 => decide (i < 2)
  | 4 => decide (i = 0)
  | 5 => decide (i = 0)
  | _ => false

/-- The class suits the action (R41). -/
def classOk (a c : Nat) : Bool :=
  match a with
  | 1 => decide (c = 0)
  | 2 => decide (c = 1 ∨ c = 2 ∨ c = 4)
  | 3 => decide (c = 3)
  | 8 => decide (c ≤ 5)
  | _ => false

/-- The margin class suits the action (R47). -/
def marginOk (e : BitVec 128) : Bool :=
  match eMclass e with
  | 0 => eMargin e = 0
  | 1 => (eAction e = 2 && eClass e = 2) || eAction e = 3
  | 2 => eAction e = 2 && eClass e = 1
  | 3 => eAction e = 1 || eAction e = 8
  | _ => false

/-- An entry of an imposition is well formed (R41). -/
def impEntryOk (part : Part) (span : Nat) (e : BitVec 128) : Bool :=
  classOk (eAction e) (eClass e) && eSlot e = 0 && fieldN e 4 1 = 0 && eValid e && targetOk part (eClass e) (eIndex e)
    && marginOk e && decide (eSheet e < span)
    && decide (4096 * eSheet e + ePoint e + eSpan e + eMargin e ≤ 4096 * span)

/-- Read an imposition's header and entries from HBM and check them (R40, R41); none where they are not well formed. -/
def parseImp (part : Part) (header body : List Byte) : Option Imp :=
  let n := leAt header 2 2
  let span := leAt header 4 2
  let entries := (List.range n).map fun i => BitVec.ofNat 128 (leAt body (16 * i) 16)
  let flags := leAt header 8 1
  if leAt header 0 2 = 1 ∧ 1 ≤ n ∧ n ≤ 4096 ∧ 1 ≤ span ∧ span ≤ 4096 ∧ leAt header 6 2 = 0x9480 ∧ flags / 2 = 0
      ∧ leAt header 9 15 = 0 ∧ leAt header 32 32 = 0
      ∧ leAt header 24 8 = (tally (header.take 24 ++ body)).toNat
      ∧ entries.all (impEntryOk part span) = true then
    some ⟨span, flags % 2 = 1, entries⟩
  else none

/-- The errata record of an uncorrectable or retired read that faults no task (R308, R310). -/
def logRetired (a req : Nat) (d : Device) : Device :=
  let (st, l) := hbmMap d.part a
  logPlain (unitStack st) 0x0512 (sdDetail d (.hbm st) l 0 req 0 0 1 none) d

/-- Read a range of HBM for a reader that takes no bus error: none, with the record written, where it cannot be
delivered (R286, R308, R310). -/
def readPlain (a n req : Nat) (d : Device) : Device × Option (List Byte) :=
  if hbmBytes d.part < a + n then (d, none)
  else if hbmRetired d a n then (logRetired (retiredAt d a n) req d, none)
  else
    let (d, v, bad) := readHbm a n req none (noteRead a n req none d)
    match bad with
    | some (id, e) => (logStored id req none e d, none)
    | none => (d, some v)

/-- The imposition of a ticket. -/
def readImp (a : Nat) (d : Device) : Device × Option Imp :=
  match readPlain a 64 4 d with
  | (d, none) => (d, none)
  | (d, some h) =>
    let n := leAt h 2 2
    if n < 1 ∨ 4096 < n then (d, none)
    else match readPlain (a + 64) (16 * n) 4 d with
      | (d, none) => (d, none)
      | (d, some b) => (d, parseImp d.part h b)

/-! ## Demands and capacities (R39, R42, R44, R53) -/

/-- A reservation as admission sees it: its resource, how much, from where to where, the priority class of its ticket
(4 for none), and whether it is in overrun. -/
structure Demand where
  cls   : Nat
  idx   : Nat
  qty   : Nat
  start : Nat
  stop  : Nat
  tcls  : Nat
  late  : Bool
  deriving DecidableEq, Repr

/-- The starts of a REFRESH entry's recurrences whose reservations reach into [a, b); `fuel` bounds their number. -/
def recurrences : Nat → Nat → Nat → Nat → Nat → Nat → List Nat
  | 0, _, _, _, _, _ => []
  | fuel + 1, t, period, len, a, b =>
    if b ≤ t then []
    else if period = 0 then [t]
    else if t + len ≤ a then recurrences fuel (t + max 1 ((a - t - len) / period) * period) period len a b
    else t :: recurrences fuel (t + period) period len a b

/-- The reservations of one table entry that reach into [a, b). -/
def entryDemands (d : Device) (a b : Nat) (e : BitVec 128) : List Demand :=
  let t := entryTime d e
  let len := eSpan e + eMargin e
  let tcls := match ticketOf d (eSlot e) with | some t => t.cls | none => 4
  if !eValid e || eAction e = 7 || eClass e = 6 then []
  else if eAction e = 4 then
    (recurrences 8192 t (4096 * eArg e) len a b).map fun t => ⟨eClass e, eIndex e, eQty e, t, t + len, tcls, false⟩
  else [⟨eClass e, eIndex e, eQty e, t, if eOverrun e then max b (t + len) else t + len, tcls, eOverrun e⟩]

def tableDemands (d : Device) (a b : Nat) : List Demand :=
  (d.mkr.table.map fun ie => entryDemands d a b ie.2).flatten

/-- Every reservation that the tickets of class `c` hold, however far away. -/
def classDemands (d : Device) (c a b : Nat) : List Demand :=
  ((d.mkr.table.filter fun ie => eAction ie.2 ≠ 4).map fun ie => entryDemands d a b ie.2).flatten.filter (·.tcls = c)

/-- An imposition's entries placed at sheet `s` for a ticket of class `c`. -/
def planDemands (c s : Nat) (es : List (BitVec 128)) : List Demand :=
  es.map fun e =>
    let t := 4096 * (s + eSheet e) + ePoint e
    ⟨eClass e, eIndex e, eQty e, t, t + eSpan e + eMargin e, c, false⟩

def active (p : Nat) (x : Demand) : Bool := decide (x.start ≤ p) && decide (p < x.stop)
def sameRes (x y : Demand) : Bool := decide (x.cls = y.cls) && decide (x.idx = y.idx)

/-- How much of its resource a demand takes. -/
def amount (x : Demand) : Nat := if x.cls = 1 ∨ x.cls = 4 ∨ x.cls = 5 then x.qty else 1

/-- The capacity of a resource other than power (R39). -/
def capacityOf (cls : Nat) : Nat := if cls = 1 ∨ cls = 4 then 16 else 1

def sumAt (p : Nat) (l : List Demand) (k : Demand → Bool) : Nat :=
  (l.filter fun x => active p x && k x).foldl (fun a x => a + amount x) 0

/-- The formes that tickets of class `c` hold at a point. -/
def formesAt (p c : Nat) (l : List Demand) : Nat :=
  ((l.filter fun x => active p x && x.cls = 0 && x.tcls = c).map (·.idx)).eraseDups.length

/-- The limits of a plan: the part's budget at each point, and what its class may hold (R53, R64). -/
structure Limits where
  budget : Nat → Nat
  power  : Nat
  formes : Nat

/-- One demand of the plan fits at one point where it is active. Where the table alone exceeds a lowered budget, a plan that
adds no power fits (R53). -/
def demandFits (lim : Limits) (all : List Demand) (p : Nat) (x : Demand) : Bool :=
  if x.cls = 5 then x.qty = 0 || decide (sumAt p all (·.cls = 5) ≤ lim.budget p)
  else decide (sumAt p all (sameRes x) ≤ capacityOf x.cls)

/-- A class stays within its power and its formes at every point (R44): its use rises only where one of its reservations
starts. -/
def classFits (lim : Limits) (c : Nat) (all : List Demand) : Bool :=
  all.all fun x => x.tcls ≠ c ||
    (decide (sumAt x.start all (fun y => y.cls = 5 && y.tcls = c) ≤ lim.power)
      && decide (formesAt x.start c all ≤ lim.formes))

/-- A plan fits beside a table's reservations (R44). Use rises only where a reservation starts and the budget falls only
at the sheets of `cuts`, so those points decide. -/
def planFits (lim : Limits) (cuts : List Nat) (plan table : List Demand) : Bool :=
  let all := plan ++ table
  let points := (all.map (·.start)) ++ cuts
  plan.all fun x =>
    !(table.any fun y => sameRes x y && y.late)
      && points.all fun p => !active p x || demandFits lim all p x

/-- The domain of a resource, where it has one. -/
def resDomain (cls idx : Nat) : Option Nat :=
  match cls with
  | 0 => some (128 + idx) | 1 => some (144 + idx) | 2 => some (152 + idx) | 3 => some (202 + idx) | 4 => some 200
  | _ => none

/-- A resource has capacity: its unit is neither gated, disabled nor failed (R526, R534, R564). -/
def hasCapacity (d : Device) (x : Demand) : Bool :=
  match resDomain x.cls x.idx with
  | none => true
  | some n => !domainGated d n

/-- Makeready places no START on the press: offline, or fenced not 12,804 points ago (R513, R514). -/
def pressBarred (d : Device) (p : Nat) : Bool :=
  let r := (press d p).recovery
  r.state = .offline || (r.state ≠ .inService && decide (d.now < r.closedAt + 12804))

/-- The START masks of an imposition's forme `v`. -/
def masksOf (es : List (BitVec 128)) (v : Nat) : List Nat :=
  (es.filter fun e => eAction e = 1 && eIndex e = v).map eQty

def maskBarred (d : Device) (f : Nat) (masks : List Nat) : Bool :=
  masks.any fun m => (maskPresses f m).any (pressBarred d)

/-- The class-0 demands of forme `v`. -/
def formeDemands (plan : List Demand) (v : Nat) : List Demand := plan.filter fun x => x.cls = 0 && x.idx = v

/-- Forme `f` is free over every interval of the demands. -/
def formeOpen (table : List Demand) (f : Nat) (xs : List Demand) : Bool :=
  !(table.any fun y => decide (y.cls = 0) && decide (y.idx = f) &&
    (y.late || xs.any fun x => decide (x.start < y.stop) && decide (y.start < x.stop)))

/-- Virtual formes of an imposition, ascending. -/
def virtualFormes (es : List (BitVec 128)) : List Nat :=
  (List.range 16).filter fun v => es.any fun e => eClass e = 0 && eIndex e = v

/-- Map each virtual forme to the lowest free physical forme of its die (R42, R513). -/
def mapFormes (d : Device) (es : List (BitVec 128)) (plan table : List Demand) : Option (List (Nat × Nat)) :=
  (virtualFormes es).foldl (fun (acc : Option (List (Nat × Nat))) v =>
    match acc with
    | none => none
    | some m =>
      let ok (f : Nat) : Bool :=
        !(m.any (·.2 = f)) && !domainGated d (128 + f) && formeOpen table f (formeDemands plan v)
          && !maskBarred d f (masksOf es v)
      match (rangeFrom (8 * (v / 8)) 8).find? ok with
      | none => none
      | some f => some (m ++ [(v, f)])) (some [])

/-- The identity placement of an imposition that is not relocated. -/
def mapSelf (d : Device) (es : List (BitVec 128)) : Option (List (Nat × Nat)) :=
  if (virtualFormes es).any fun f => maskBarred d f (masksOf es f) then none
  else some ((virtualFormes es).map fun f => (f, f))

/-- Entries with their forme indices placed. -/
def placeEntry (m : List (Nat × Nat)) (e : BitVec 128) : BitVec 128 :=
  if eClass e = 0 then
    setField e 43 32 (match m.find? (·.1 = eIndex e) with | some x => x.2 | none => eIndex e)
  else e

/-! ## WAKE entries (R45, R539) -/

/-- The domains that an entry needs. -/
def entryNeeds (e : BitVec 128) : List Nat :=
  (match resDomain (eClass e) (eIndex e) with | some n => [n] | none => [])
    ++ (if eClass e = 0 then maskPresses (eIndex e) (eQty e) else [])

/-- The domains of a plan that are not On, each with the first point at which the plan needs it. -/
def wakeNeeds (d : Device) (s : Nat) (es : List (BitVec 128)) : List (Nat × Nat) :=
  let all := (es.map fun e => (entryNeeds e).map fun n => (n, 4096 * (s + eSheet e) + ePoint e)).flatten
  let ns := ((all.map (·.1)).eraseDups).filter fun n => (domain d n).dstate ≠ .on || domainQueued d n
  ns.map fun n => (n, (all.filter (·.1 = n)).foldl (fun a x => min a x.2) (4096 * (s + 4097)))

/-- The first sheet to which a start or a WAKE may be brought forward (R45, R62). -/
def leadSheet (d : Device) : Nat := d.sheet + max 1 d.mkr.lead.toNat

/-- A WAKE entry of a domain at an absolute point, without its slot (R45). -/
def wakeEntry (gap n at_ : Nat) : BitVec 128 :=
  place 128 127 108 (at_ / 4096) ||| place 128 107 96 (at_ % 4096) ||| place 128 95 92 6
    ||| place 128 79 60 (domFigure gap n) ||| place 128 59 48 256 ||| place 128 47 44 6 ||| place 128 43 32 n
    ||| place 128 31 24 (domCost n) ||| place 128 7 5 4 ||| 1#128

/-- The WAKE entries of a plan; none where one would come too early (R45). -/
def wakeEntries (d : Device) (s : Nat) (es : List (BitVec 128)) : Option (List (BitVec 128)) :=
  let gap := d.cf.gap.toNat
  (wakeNeeds d s es).foldl (fun (acc : Option (List (BitVec 128))) nt =>
    match acc with
    | none => none
    | some l =>
      if nt.2 < 4096 * leadSheet d + domFigure gap nt.1 then none
      else some (l ++ [wakeEntry gap nt.1 (nt.2 - domFigure gap nt.1)])) (some [])

/-! ## The search (R44) -/

/-- A placement: the sheet, the map, the entries placed, and the WAKE entries. -/
structure Placement where
  sheet : Nat
  map   : List (Nat × Nat)
  es    : List (BitVec 128)
  wakes : List (BitVec 128)
  deriving DecidableEq, Repr

inductive SearchOut where
  | placed (p : Placement)
  | deadline (done : Nat)
  | noRoom
  deriving DecidableEq, Repr

/-- The class limits of a ticket. -/
def limitsOf (d : Device) (c : Nat) (budget : Nat → Nat) : Limits :=
  ⟨budget, (vgetN 0 d.mkr.classPower c).toNat, (vgetN 0 d.mkr.classFormes c).toNat⟩

/-- Free table entries (R63). -/
def freeEntries (d : Device) : Nat := 65536 - d.mkr.table.length

/-- One candidate sheet: a map exists, the plan fits, its WAKE entries are in time, and the table has room. -/
def candidate (d : Device) (imp : Imp) (c s : Nat) : Option Placement :=
  let a := 4096 * s
  let b := 4096 * (s + imp.span)
  let table := tableDemands d a b
  let virt := planDemands c s imp.entries
  match if imp.reloc then mapFormes d imp.entries virt table else mapSelf d imp.entries with
  | none => none
  | some m =>
    let es := imp.entries.map (placeEntry m)
    let plan := planDemands c s es
    let cuts := d.mkr.throttles.map fun r => 4096 * r.sheet
    let lim := limitsOf d c (budgetAt d.mkr d.now)
    if plan.all (hasCapacity d) && planFits lim cuts plan table && classFits lim c (plan ++ classDemands d c a b) then
      match wakeEntries d s es with
      | none => none
      | some w => if es.length + w.length + 1 ≤ freeEntries d then some ⟨s, m, es, w⟩ else none
    else none

/-- Search candidate sheets from `s` (R44). -/
def searchFrom (d : Device) (imp : Imp) (c deadline : Nat) : Nat → Nat → SearchOut
  | 0, _ => .noRoom
  | fuel + 1, s =>
    let done := s + imp.span - 1
    if deadline < done then .deadline done
    else if d.sheet + 524287 < done then .noRoom
    else match candidate d imp c s with
      | some p => .placed p
      | none => searchFrom d imp c deadline fuel (s + 1)

/-- The plan alone keeps the part's capacity and the class budget (R44). DESIGN CHOICE: R44 gives effective(p) for a point,
and this check has no sheet yet; it takes the budget in force when it is made. -/
def fitsEmpty (d : Device) (imp : Imp) (c : Nat) : Bool :=
  let lim := limitsOf d c (fun _ => effectiveNow d)
  let plan := planDemands c 0 imp.entries
  planFits lim [] plan [] && classFits lim c plan

/-- Some reservation of the resource is in overrun. -/
def inOverrun (d : Device) (cls idx : Nat) : Bool :=
  d.mkr.table.any fun ie => eOverrun ie.2 && eClass ie.2 = cls && eIndex ie.2 = idx

/-- Formes of die `die` that no overrun holds. -/
def steadyFormes (d : Device) (die : Nat) : Nat := ((rangeFrom (8 * die) 8).filter fun f => !inOverrun d 0 f).length

/-- The imposition needs a resource that is in overrun: one that it names, or under relocation more formes of a die than are
left (R52). -/
def needsOverrun (d : Device) (imp : Imp) : Bool :=
  (imp.entries.any fun e => (!imp.reloc || eClass e ≠ 0) && inOverrun d (eClass e) (eIndex e))
    || (imp.reloc && (List.range 2).any fun k =>
        decide (steadyFormes d k < ((virtualFormes imp.entries).filter (· / 8 = k)).length))

/-! ## Acceptance -/

/-- The lowest slot that no open ticket has (R36). -/
def freeSlot (d : Device) : Option Nat := (List.range 4095).find? fun s => (ticketOf d s).isNone

/-- A PROMISE entry (R38, R49). -/
def promiseEntry (done : Nat) : BitVec 128 :=
  place 128 127 108 done ||| place 128 107 96 4095 ||| place 128 95 92 7 ||| 1#128

/-- The nibbles of the ACCEPTED detail (R490). -/
def mapDetail (m : List (Nat × Nat)) : Nat := m.foldl (fun a vf => a + vf.2 * 16 ^ vf.1) 0
def mapMask (m : List (Nat × Nat)) : Nat := m.foldl (fun a vf => a + 2 ^ vf.1) 0

/-- Open a ticket at a placement (R44, R46). -/
def acceptTicket (a : Admission) (imp : Imp) (p : Placement) (slot : Nat) (d : Device) : Device :=
  let t := a.ticket
  let done := p.sheet + imp.span - 1
  let own := p.es.map fun e => setField (setField e 127 108 (p.sheet + eSheet e)) 91 80 slot
  let all := (own ++ p.wakes.map fun e => setField e 91 80 slot) ++ [setField (promiseEntry done) 91 80 slot]
  let idx := freeIndices (65536 + d.mkr.table.length) 0 d.mkr.table all.length
  let d := writeEntries (idx.zip all) d
  let tk : Ticket :=
    { slot := slot, id := tkId t, ring := a.ring, ringIndex := a.index, pq := a.pq, cls := tkClass t,
      abortOnBreak := tkBreak t, resume := tkOp t = 1, seed := tkSeed t, step := tkStep t, program := tkProgram t,
      entryTally := tkTally t, start := p.sheet, promise := done, map := if imp.reloc then p.map else [],
      relocated := imp.reloc, formes := p.map,
      entries := idx, toStart := (p.es.filter (eAction · = 1)).length, running := 0, started := false, broken := false,
      brokenUnit := 0, abort := none, pause := none, elapsed := 0 }
  let d := modMk (fun m => { m with tickets := m.tickets ++ [tk], accepted := satAdd m.accepted 1 }) d
  postRec a.pq
    { type := 1, severity := 0, unit := unitMk, time := d.time.count, ticket := tkId t, code := 0,
      detail := dput 32 p.sheet <| dput 40 done <| dput 48 a.ring <| dput 49 (tkClass t) <| dput 50 a.index <|
        dput 52 all.length <| dput 54 (mapMask p.map) <| dput 56 (mapDetail p.map) 0 } d

/-- A non-relocatable START mask holds an offline press (R513). -/
def needsOffline (d : Device) (imp : Imp) : Bool :=
  !imp.reloc && imp.entries.any fun e =>
    eAction e = 1 && (maskPresses (eIndex e) (eQty e)).any (bit d.errata.offline ·)

/-- ADMIT (R44 to R46): the imposition has arrived; the ticket is placed or refused. -/
def doAdmit (d : Device) : Device :=
  match d.mkr.admission with
  | none => d
  | some a =>
    if !busesIssue d || noImage d then d else
    let t := a.ticket
    let d := modMk (fun m => { m with admission := none }) d
    let no (code : BitVec 16) (first done : Nat) (d : Device) : Device :=
      refuse code (tkId t) a.ring a.index a.pq (tkOp t) first done d
    ringSettle a.ring <|
    match stateRefusal d.time.state with
    | some c => no c 0 0 d
    | none =>
      match if a.lost then (d, none) else readImp (tkImp t) d with
      | (d, none) => no 0x0115 0 0 d
      | (d, some imp) =>
        if needsOffline d imp then no 0x0A07 0 0 d
        else if !fitsEmpty d imp (tkClass t) then no 0x0112 0 0 d
        else
          let s0 := max (fullSheet d.sheet (tkStart t)) (leadSheet d)
          let n := max 1 (min 4096 d.mkr.search.toNat)
          if needsOverrun d imp then no 0x0110 s0 0 d
          else
          match searchFrom d imp (tkClass t) (fullSheet d.sheet (tkDeadline t)) n s0, freeSlot d with
          | .placed p, some slot => acceptTicket a imp p slot d
          | .placed _, none => no 0x0110 s0 0 d
          | .deadline done, _ => no 0x0111 s0 done d
          | .noRoom, _ => no 0x0110 s0 0 d

/-! ## The commands -/

def execDoorbell (ring : RingId) (tail : BitVec 12) (s : State) (poisoned : Bool := false) :
    Host.Outcome State Fault Refusal :=
  onHost (.doorbell ring tail poisoned) (hostWrite .pf1 poisoned (doDoorbell ring tail)) s
def execDoorbellService (s : State) : Host.Outcome State Fault Refusal := onDev doDoorbellService s
def execTicketReadFailed (s : State) (poisoned : Bool := false) : Host.Outcome State Fault Refusal :=
  onDev (doTicketReadFailed poisoned) s
def execSubmit (ticket : BitVec 512) (s : State) : Host.Outcome State Fault Refusal := onDev (takeTicket 0 ticket) s
def execResume (ticket : BitVec 512) (s : State) : Host.Outcome State Fault Refusal := onDev (takeTicket 1 ticket) s
def execPause (ticket : BitVec 512) (s : State) : Host.Outcome State Fault Refusal := onDev (doPause ticket) s
def execAbort (ticket : BitVec 512) (s : State) : Host.Outcome State Fault Refusal := onDev (doAbort ticket) s
def execAdmitTicket (s : State) : Host.Outcome State Fault Refusal := onDev doAdmit s

end Sys2Proof.Machine
end

