-- ==== Sys2Proof/Machine/Flags.lean ====
section
/-!
DEFINITION. Machine/Flags.lean: results and status bits of the scalar datapath: the ALU group and its flags (R212,
R213), the multiplier, accumulators and convergent rounding (R185, R186), EXPX, NORM and FEXP (R187), and the branch
conditions (R220).
-/
namespace Sys2Proof.Machine

/-- An ALU result with its N, Z, C, V (R213). -/
structure AluOut where
  res : Word
  n   : Bool
  z   : Bool
  c   : Bool
  v   : Bool
  deriving DecidableEq, Repr

def aluPlain (res : Word) (c v : Bool) : AluOut := ⟨res, res.msb, res = 0, c, v⟩

/-- Addition with carry out of bit 31 and signed overflow. -/
def aluAdd (a b : Word) : AluOut :=
  let r := a + b
  aluPlain r (a.toNat + b.toNat ≥ 2 ^ 32) (a.msb = b.msb && r.msb ≠ a.msb)

/-- Subtraction: C means no borrow. -/
def aluSub (a b : Word) : AluOut :=
  let r := a - b
  aluPlain r (b.toNat ≤ a.toNat) (a.msb ≠ b.msb && r.msb ≠ a.msb)

/-- Leading zero bits of a word, 0 to 32. -/
def clz (a : Word) : Nat := if a = 0 then 32 else 31 - Nat.log2 a.toNat

/-- FEXP: floor(log2 |x|) of a binary32 code (R187). -/
def fexp (a : Word) : Int :=
  match decodeElem .binary32 a.toNat with
  | .fin _ m e => if m = 0 then -256 else valLog2 m e
  | _ => 256

/-- The ALU group by func (R212); none where the func is reserved. -/
def alu (func : Nat) (a b : Word) : Option AluOut :=
  let s := b.toNat % 32
  match func with
  | 0 => some (aluAdd a b)
  | 1 => some (aluSub a b)
  | 2 => some (aluPlain (a &&& b) false false)
  | 3 => some (aluPlain (a ||| b) false false)
  | 4 => some (aluPlain (a ^^^ b) false false)
  | 5 => some (aluPlain (a <<< s) false false)
  | 6 => some (aluPlain (a >>> s) false false)
  | 7 => some (aluPlain (a.sshiftRight s) false false)
  | 8 => some (aluPlain (if a.toInt ≤ b.toInt then a else b) false false)
  | 9 => some (aluPlain (if a.toInt ≤ b.toInt then b else a) false false)
  | 10 => some (aluPlain (if a.toNat ≤ b.toNat then a else b) false false)
  | 11 => some (aluPlain (if a.toNat ≤ b.toNat then b else a) false false)
  | 12 => some (aluPlain (a * b) false false)
  | 13 => some (aluPlain (BitVec.ofInt 32 (fexp a)) false false)
  | 14 => some (aluPlain (BitVec.ofNat 32 (clz a)) false false)
  | _ => none

/-- sr with N, Z, C, V replaced (R179 places). -/
def setNzcv (sr : Word) (o : AluOut) : Word :=
  setField sr 3 0 (b2n o.n + 2 * b2n o.z + 4 * b2n o.c + 8 * b2n o.v)

/-- sr with the sticky saturation bit S set where `s` (R186). -/
def stickS (sr : Word) (s : Bool) : Word := if s then setField sr 8 8 1 else sr

/-- sr with the sticky accumulator wrap bit A set where `a` (R185). -/
def stickA (sr : Word) (a : Bool) : Word := if a then setField sr 9 9 1 else sr

/-- Convergent rounding of an accumulator to 16 bits, and whether it saturated (R186). -/
def rnd16 (acc : BitVec 40) : Half × Bool :=
  let v := acc.toInt
  if v > 0x7FFFFFFF then (0x7FFF#16, true)
  else if v < -0x80000000 then (0x8000#16, true)
  else
    let q := v / 65536
    let r := v % 65536
    let q' := if r > 0x8000 ∨ (r = 0x8000 ∧ q % 2 ≠ 0) then q + 1 else q
    if q' > 0x7FFF then (0x7FFF#16, true) else (BitVec.ofInt 16 q', false)

/-- acc saturated to the int32 range (R186). -/
def sat32 (acc : BitVec 40) : Word × Bool :=
  let v := acc.toInt
  if v > 0x7FFFFFFF then (0x7FFFFFFF#32, true)
  else if v < -0x80000000 then (0x80000000#32, true)
  else (BitVec.ofInt 32 v, false)

/-- Leading bits of acc equal to its bit 39, counted from bit 39. -/
def leadRun (acc : BitVec 40) : Nat → Nat
  | 0 => 0
  | k + 1 => if acc.getLsbD k = acc.msb then 1 + leadRun acc k else 0

/-- EXPX: n = c - 8 with c one less than the run of leading bits (R187). -/
def expx (acc : BitVec 40) : Int := (leadRun acc 40 : Int) - 1 - 8

/-- NORM by a signed count from -40 to +40 (R187). -/
def norm (acc : BitVec 40) (k : Int) : Option (BitVec 40) :=
  if k < -40 ∨ k > 40 then none
  else if k ≥ 0 then some (acc <<< k.toNat) else some (acc.sshiftRight k.natAbs)

/-- One multiplier operand: signed unless `u` (R218). -/
def mulOperand (h : Half) (u : Bool) : Int := if u then h.toNat else h.toInt

/-- The exact product, doubled in fractional mode (R185). -/
def mulProduct (a b : Int) (frac : Bool) : Int := if frac then 2 * (a * b) else a * b

/-- The branch condition of BCC on sr; none for a reserved code (R220). -/
def condHolds (cond : Nat) (sr : Word) : Option Bool :=
  let n := bit sr 0; let z := bit sr 1; let c := bit sr 2; let v := bit sr 3
  match cond with
  | 0 => some z | 1 => some (!z)
  | 2 => some (n != v) | 3 => some (n == v)
  | 4 => some (z || n != v) | 5 => some (!z && n == v)
  | 6 => some (!c) | 7 => some c
  | 8 => some n | 9 => some (!n)
  | 10 => some v | 11 => some (!v)
  | 12 => some (bit sr 8) | 13 => some (bit sr 9)
  | _ => none

end Sys2Proof.Machine
end

