-- ==== Sys2Proof/Machine/Tequen.lean ====
section
/-!
DEFINITION. Machine/Tequen.lean: the scalar instructions of 06_tequen_instructions.md (R211 to R222) on the registers and
data memories of one compositor. Each takes the word and the forme with its pc already advanced, and answers the forme
after the instruction or the code that it faults with at issue.
-/
namespace Sys2Proof.Machine

/-- What a scalar instruction does: a forme, with the events that its memory accesses report (by memory code of R316: 3 X,
4 Y), or a fault. -/
inductive CoOut where
  | ok (f : Forme) (evs : List (Nat × MemEv))
  | fault (code : BitVec 16)
  deriving DecidableEq, Repr

/-- New registers and nothing else. -/
def coRegs (f : Forme) (r : CoRegs) : CoOut := .ok { f with regs := r } []

/-- NOP (R222). -/
def coNop (w : Word) (f : Forme) : CoOut := if fieldN w 21 0 = 0 then .ok f [] else .fault codeIllegal

/-- HALT: fetch stops and the compositor is Finishing (R178, R222). -/
def coHalt (w : Word) (f : Forme) : CoOut :=
  if fieldN w 21 0 = 0 then .ok { f with state := .finishing } [] else .fault codeIllegal

/-- The ALU group (R212, R213). -/
def coAlu (w : Word) (f : Forme) : CoOut :=
  let r := f.regs
  let func := fieldN w 3 0
  let unary := func = 13 || func = 14
  let b : Word := if bit w 6 then BitVec.ofNat 32 (fieldN w 11 7) else rg r (fieldN w 11 7)
  if fieldN w 5 4 ≠ 0 || (unary && (bit w 6 || fieldN w 11 7 ≠ 0)) then .fault codeIllegal
  else match alu func (rg r (fieldN w 16 12)) b with
    | none => .fault codeIllegal
    | some o => coRegs f { wg r (fieldN w 21 17) o.res with sr := setNzcv r.sr o }

/-- ADDI (R213, R214). -/
def coAddi (w : Word) (f : Forme) : CoOut :=
  let r := f.regs
  let imm : Word := BitVec.ofInt 32 (sextN 12 (fieldN w 11 0))
  let o := aluAdd (rg r (fieldN w 16 12)) imm
  coRegs f { wg r (fieldN w 21 17) o.res with sr := setNzcv r.sr o }

/-- MOVI (R214). -/
def coMovi (w : Word) (f : Forme) : CoOut :=
  let r := f.regs
  let rd := fieldN w 21 17
  let imm := fieldN w 15 0
  coRegs f (wg r rd (if bit w 16 then setField (rg r rd) 31 16 imm else BitVec.ofInt 32 (sextN 16 imm)))

/-- An address register of X (mem false) or Y, and its modifier. -/
def areg (r : CoRegs) (mem : Bool) (i : Nat) : Half := if mem then vgetN 0 r.y i else vgetN 0 r.x i
def amod (r : CoRegs) (mem : Bool) (i : Nat) : Word := if mem then vgetN 0 r.my i else vgetN 0 r.mx i
def setAreg (r : CoRegs) (mem : Bool) (i : Nat) (v : Half) : CoRegs :=
  if mem then { r with y := vmodN r.y i (fun _ => v) } else { r with x := vmodN r.x i (fun _ => v) }
def setAmod (r : CoRegs) (mem : Bool) (i : Nat) (v : Word) : CoRegs :=
  if mem then { r with my := vmodN r.my i (fun _ => v) } else { r with mx := vmodN r.mx i (fun _ => v) }

/-- The address register after an access by form: 0 (a), 1 (a)+, 2 (a)-, 3 (a + imm) (R184, R215). DESIGN CHOICE: a step larger
than L faults an access that post-modifies; one that does not uses no step, and runs (log 88). -/
def formPost (r : CoRegs) (mem : Bool) (i form : Nat) : Except (BitVec 16) Half :=
  match form with
  | 1 => postMod (areg r mem i) (amod r mem i) false
  | 2 => postMod (areg r mem i) (amod r mem i) true
  | _ => .ok (areg r mem i)

/-- X or Y memory of a forme. -/
def dmem (f : Forme) (mem : Bool) : Mem := if mem then f.ymem else f.xmem
def setDmem (f : Forme) (mem : Bool) (m : Mem) : Forme := if mem then { f with ymem := m } else { f with xmem := m }
def dmemCode (mem : Bool) : Nat := if mem then 4 else 3

/-- Read `n` bytes of a data memory. -/
def dmemLoad (f : Forme) (mem : Bool) (a n : Nat) : Forme × Nat × List (Nat × MemEv) :=
  let (m, v, evs) := memRead (dmem f mem) a n
  (setDmem f mem m, leNat v, evs.map fun e => (dmemCode mem, e))

/-- The effective address of LD and ST (R215). -/
def effAddr (w : Word) (r : CoRegs) : Half :=
  let a := areg r (bit w 16) (fieldN w 15 14)
  if fieldN w 13 12 = 3 then BitVec.ofInt 16 (a.toNat + sextN 10 (fieldN w 9 0)) else a

/-- imm10 is zero unless the form uses it (R215). -/
def immOk (w : Word) : Bool := fieldN w 13 12 = 3 || fieldN w 9 0 = 0

/-- LD (R181, R184, R215). -/
def coLd (w : Word) (f : Forme) : CoOut :=
  let r := f.regs
  let mem := bit w 16
  let size := fieldN w 11 10
  let i := fieldN w 15 14
  let bytes := if size = 0 then 4 else 2
  let ea := (effAddr w r).toNat
  if size = 3 || !immOk w then .fault codeIllegal
  else if ea % bytes ≠ 0 then .fault codeMisaligned
  else match formPost r mem i (fieldN w 13 12) with
    | .error c => .fault c
    | .ok a' =>
      let (f, v, evs) := dmemLoad f mem ea bytes
      let res : Word := if size = 1 then BitVec.ofInt 32 (sextN 16 v) else BitVec.ofNat 32 v
      .ok { f with regs := wg (setAreg r mem i a') (fieldN w 21 17) res } evs

/-- ST (R181, R184, R215, R303). -/
def coSt (w : Word) (f : Forme) : CoOut :=
  let r := f.regs
  let mem := bit w 16
  let size := fieldN w 11 10
  let i := fieldN w 15 14
  let bytes := if size = 0 then 4 else 2
  let ea := (effAddr w r).toNat
  if 2 ≤ size || !immOk w then .fault codeIllegal
  else if ea % bytes ≠ 0 then .fault codeMisaligned
  else match formPost r mem i (fieldN w 13 12) with
    | .error c => .fault c
    | .ok a' =>
      let (m, evs) := memWrite (dmem f mem) ea (leBytes bytes (rg r (fieldN w 21 17)).toNat)
      let f := setDmem f mem m
      .ok { f with regs := setAreg r mem i a' } (evs.map fun e => (dmemCode mem, e))

/-- AMOV (R216). -/
def coAmov (w : Word) (f : Forme) : CoOut :=
  let r := f.regs
  let g := fieldN w 21 17
  let sel := fieldN w 16 13
  let isMod := 8 ≤ sel
  let mem := sel / 4 % 2 = 1
  let i := sel % 4
  if fieldN w 11 0 ≠ 0 then .fault codeIllegal
  else if bit w 12 then
    coRegs f (wg r g (if isMod then amod r mem i else (areg r mem i).setWidth 32))
  else
    let v := rg r g
    if isMod then
      if modifierOk v then coRegs f (setAmod r mem i v) else .fault codeIllegal
    else coRegs f (setAreg r mem i (v.setWidth 16))

/-- SMOV (R216). -/
def coSmov (w : Word) (f : Forme) : CoOut :=
  let r := f.regs
  let g := fieldN w 21 17
  let sel := fieldN w 16 13
  if fieldN w 11 0 ≠ 0 || 7 ≤ sel then .fault codeIllegal
  else if bit w 12 then
    let v : Word := match sel with
      | 0 => r.trip.setWidth 32 | 1 => r.iter.setWidth 32 | 2 => r.depth.setWidth 32
      | 3 => r.rbase.setWidth 32 | 4 => r.cr | 5 => r.sr | _ => r.rstep.setWidth 32
    coRegs f (wg r g v)
  else
    let v := rg r g
    match sel with
    | 0 => coRegs f { r with trip := v.setWidth 16 }
    | 1 => coRegs f { r with iter := v.setWidth 17 }
    | 2 => if fieldN v 3 0 = 0 || 8 < fieldN v 3 0 then .fault codeIllegal
           else coRegs f { r with depth := v.setWidth 4 }
    | 3 => coRegs f { r with rbase := v.setWidth 4 }
    | 4 => if v &&& ~~~1#32 = 0 then coRegs f { r with cr := v } else .fault codeIllegal
    | 5 => coRegs f { r with sr := v &&& 0x30F#32 }
    | _ => coRegs f { r with rstep := v.setWidth 2 }

/-- LDT (R217). -/
def coLdt (w : Word) (f : Forme) : CoOut :=
  let r := f.regs
  let blk := fieldN w 17 16
  if fieldN w 15 0 ≠ 0 || blk = 0 then .fault codeIllegal
  else
    let v := (List.range 8).foldl (fun a k => a + (rg r (8 * blk + k)).toNat * 2 ^ (32 * k)) 0
    coRegs f { r with t := vmodN r.t (fieldN w 21 18) (fun _ => BitVec.ofNat 256 v) }

/-- MTT (R217). -/
def coMtt (w : Word) (f : Forme) : CoOut :=
  let r := f.regs
  let k := fieldN w 17 15
  if fieldN w 9 0 ≠ 0 then .fault codeIllegal
  else
    let put (d : BitVec 256) : BitVec 256 := setField d (32 * k + 31) (32 * k) (rg r (fieldN w 14 10)).toNat
    coRegs f { r with t := vmodN r.t (fieldN w 21 18) put }

/-- MFT (R217). -/
def coMft (w : Word) (f : Forme) : CoOut :=
  let r := f.regs
  let k := fieldN w 17 15
  if fieldN w 9 0 ≠ 0 then .fault codeIllegal
  else coRegs f (wg r (fieldN w 14 10)
        (BitVec.ofNat 32 (fieldN (vgetN 0 r.t (fieldN w 21 18)) (32 * k + 31) (32 * k))))

/-- The operands of a multiplier instruction: the forme after any fetch, and the two halfwords (R218). -/
def mulFetch (w : Word) (f : Forme) : Except (BitVec 16) (Forme × Half × Half × List (Nat × MemEv)) :=
  let r := f.regs
  if bit w 15 then
    let xi := fieldN w 14 13; let xf := fieldN w 12 11; let yi := fieldN w 10 9; let yf := fieldN w 8 7
    if xf = 3 || yf = 3 || fieldN w 4 0 ≠ 0 then .error codeIllegal
    else if (areg r false xi).toNat % 2 ≠ 0 || (areg r true yi).toNat % 2 ≠ 0 then .error codeMisaligned
    else match formPost r false xi xf, formPost r true yi yf with
      | .ok xa, .ok ya =>
        let (f, a, e1) := dmemLoad f false (areg r false xi).toNat 2
        let (f, b, e2) := dmemLoad f true (areg r true yi).toNat 2
        .ok ({ f with regs := setAreg (setAreg r false xi xa) true yi ya },
          BitVec.ofNat 16 a, BitVec.ofNat 16 b, e1 ++ e2)
      | .error c, _ => .error c
      | _, .error c => .error c
  else if bit w 0 then .error codeIllegal
  else
    let half (g : Word) (h : Bool) : Half := if h then g.extractLsb' 16 16 else g.extractLsb' 0 16
    .ok (f, half (rg r (fieldN w 14 10)) (bit w 9), half (rg r (fieldN w 7 3)) (bit w 2), [])

/-- Signedness of the operands (R218). -/
def mulUa (w : Word) : Bool := if bit w 15 then bit w 6 else bit w 8
def mulUb (w : Word) : Bool := if bit w 15 then bit w 5 else bit w 1

/-- The multiplier: `kind` 0 MPY, 1 MAC, 2 MSU; `round` for MPYR and MACR (R185, R186, R218). -/
def coMul (kind : Nat) (round : Bool) (w : Word) (f : Forme) : CoOut :=
  let rd := fieldN w 20 16
  if !round && rd ≠ 0 then .fault codeIllegal
  else match mulFetch w f with
    | .error c => .fault c
    | .ok (f, a, b, evs) =>
      let r := f.regs
      let i := b2n (bit w 21)
      let p := mulProduct (mulOperand a (mulUa w)) (mulOperand b (mulUb w)) (bit r.cr 0)
      let old := (vgetN 0 r.acc i).toInt
      let exact := match kind with | 0 => p | 1 => old + p | _ => old - p
      let acc := BitVec.ofInt 40 exact
      let r := { r with acc := vmodN r.acc i (fun _ => acc), sr := stickA r.sr (acc.toInt ≠ exact) }
      if round then
        let (h, s) := rnd16 acc
        let r := { r with sr := stickS r.sr s }
        .ok { f with regs := wg r rd (h.signExtend 32) } evs
      else .ok { f with regs := r } evs

/-- The accumulator group (R187, R219). -/
def coAcc (w : Word) (f : Forme) : CoOut :=
  let r := f.regs
  let i := b2n (bit w 21)
  let g := fieldN w 20 16
  let acc := vgetN 0 r.acc i
  let setAcc (v : BitVec 40) : CoOut := coRegs f { r with acc := vmodN r.acc i (fun _ => v) }
  if fieldN w 11 0 ≠ 0 then .fault codeIllegal
  else match fieldN w 15 12 with
    | 0 => let (h, s) := rnd16 acc
           coRegs f (wg { r with sr := stickS r.sr s } g (h.signExtend 32))
    | 1 => let (v, s) := sat32 acc
           coRegs f (wg { r with sr := stickS r.sr s } g v)
    | 2 => coRegs f (wg r g (BitVec.ofInt 32 (expx acc)))
    | 3 => match norm acc (rg r g).toInt with
           | some v => setAcc v
           | none => .fault codeIllegal
    | 4 => coRegs f (wg r g (acc.extractLsb' 0 32))
    | 5 => coRegs f (wg r g ((acc.extractLsb' 32 8).signExtend 32))
    | 6 => setAcc ((rg r g).signExtend 40)
    | 7 => if g = 0 then setAcc 0 else .fault codeIllegal
    | _ => .fault codeIllegal

/-- Branch to an instruction index. -/
def jumpTo (r : CoRegs) (t : Nat) : CoRegs := { r with pc := BitVec.ofNat 15 t }

/-- J (R220). -/
def coJ (w : Word) (f : Forme) : CoOut :=
  if fieldN w 21 15 ≠ 0 then .fault codeIllegal else coRegs f (jumpTo f.regs (fieldN w 14 0))

/-- JR (R220). -/
def coJr (w : Word) (f : Forme) : CoOut :=
  let v := rg f.regs (fieldN w 21 17)
  if fieldN w 16 0 ≠ 0 || 2 ^ 15 ≤ v.toNat then .fault codeIllegal else coRegs f (jumpTo f.regs v.toNat)

/-- CALL: g15 takes the index of the CALL plus 1, as a 32-bit number (R220). -/
def coCall (w : Word) (f : Forme) : CoOut :=
  if fieldN w 21 15 ≠ 0 then .fault codeIllegal
  else coRegs f (jumpTo (wg f.regs 15 (f.issuedPc.setWidth 32 + 1)) (fieldN w 14 0))

/-- BCC (R220). -/
def coBcc (w : Word) (f : Forme) : CoOut :=
  if fieldN w 17 15 ≠ 0 then .fault codeIllegal
  else match condHolds (fieldN w 21 18) f.regs.sr with
    | none => .fault codeIllegal
    | some true => coRegs f (jumpTo f.regs (fieldN w 14 0))
    | some false => .ok f []

/-- DBNZ (R221). DESIGN CHOICE: the branch tests the value computed, also where it names g0, which discards it (log 102). -/
def coDbnz (w : Word) (f : Forme) : CoOut :=
  if fieldN w 16 15 ≠ 0 then .fault codeIllegal
  else
    let g := fieldN w 21 17
    let v := rg f.regs g - 1
    let r := wg f.regs g v
    coRegs f (if v = 0 then r else jumpTo r (fieldN w 14 0))

/-- BRC: the ring advances and the loop closes (R180, R190). -/
def coBrc (w : Word) (f : Forme) : CoOut :=
  if fieldN w 21 15 ≠ 0 then .fault codeIllegal
  else
    let r := f.regs
    let iter := r.iter + 1
    let r' := { r with iter := iter, rbase := BitVec.ofNat 4 (r.rbase.toNat + stride r) }
    coRegs f (if (iter.toNat : Int) < r.trip.toNat + r.depth.toNat - 1 then jumpTo r' (fieldN w 14 0) else r')

/-- LPSET (R221). -/
def coLpset (w : Word) (f : Forme) : CoOut :=
  let r := f.regs
  if bit w 18 && fieldN w 10 0 ≠ 0 then .fault codeIllegal
  else
    let trip : BitVec 16 := if bit w 18 then (rg r (fieldN w 15 11)).setWidth 16 else BitVec.ofNat 16 (fieldN w 15 0)
    coRegs f { r with trip := trip, depth := BitVec.ofNat 4 (fieldN w 21 19 + 1), iter := 0, rbase := 0,
                      rstep := BitVec.ofNat 2 (fieldN w 17 16) }

end Sys2Proof.Machine
end

