-- ==== Sys2Proof/Machine/Compositor.lean ====
section
/-!
DEFINITION. Machine/Compositor.lean: the compositor of a forme: loading a program and its end (05_compositor.md R176 to
R178, 13 R479), fetching and issuing one instruction (R188 to R191, R196, R199 to R201; 06 R206 to R242), with one
command for each instruction of Tequen.
-/
namespace Sys2Proof.Machine

/-! ## Faults at issue (R201, R242) -/

/-- The context of an instruction at issue (R503). -/
def issueCtx (f : Nat) (x : Forme) (w : Word) (mask : Nat) : Ctx :=
  { phase := 0, pc := some x.regs.pc, word := w, issuer := unitForme f, vforme := x.vforme,
    pmask := BitVec.ofNat 8 mask }

def faultIssue (f : Nat) (w : Word) (mask : Nat) (code : BitVec 16) (d : Device) : Device :=
  let x := forme d f
  faultTask (x.task.getD 0xFFF) code (unitForme f) (issueCtx f x w mask) none d

/-- An uncorrectable error in a memory of the compositor is a load exception (R201, R308). -/
def faultLoad (f : Nat) (w : Word) (id : MemId) (e : MemEv) (d : Device) : Device :=
  let x := forme d f
  faultStored (x.task.getD 0xFFF) id 1 none (issueCtx f x w 0) e d

/-! ## Fetch (R206 to R208) -/

/-- The word at the pc, and what reading it reports. -/
def fetchWord (d : Device) (f : Nat) : Word × List MemEv :=
  let x := forme d f
  let (_, v, evs) := memRead x.imem (4 * x.regs.pc.toNat) 4
  (BitVec.ofNat 32 (leNat v), evs)

/-- The pc moves on, and the instruction is the last one issued and is counted (R204). DESIGN CHOICE: R177 sets a zero
word above every image shorter than 131,072 bytes, and the spec names no instruction after index 32,767; the 15-bit pc
goes on at index 0 (log 88). -/
def advance (x : Forme) : Forme :=
  { x with regs := { x.regs with pc := x.regs.pc + 1 }, issuedPc := x.regs.pc, instrs := satAdd x.instrs 1 }

/-- The compositor may issue: it runs, and its task is not being paused (R385). -/
def mayIssue (d : Device) (f : Nat) : Bool :=
  let x := forme d f
  x.state = .running &&
  match x.task.bind (ticketOf d) with
  | some t => t.pause.isNone && t.abort.isNone
  | none => false

/-- The instruction reads a g register that a PRD has yet to write (R189). DESIGN CHOICE: R189 holds only an
instruction that reads the register, so one that only writes it issues, and the PRD's value is written over it when the
PRD executes (log 88). -/
def interlocked (x : Forme) (w : Word) : Bool :=
  (readsG w x.regs).any fun n => n ≠ 0 && x.pend.any (·.1 = gphys x.regs n)

/-- Fetch the next instruction of forme `f`; where it is of opcode `op`, do `act` with it: it is valid, its iteration
exists and nothing it reads is pending. A word that is no instruction faults under every command. -/
def issueAs (op f : Nat) (act : Word → Device → Device) (d : Device) : Device :=
  if !mayIssue d f then d
  else
    let (w, evs) := fetchWord d f
    match firstBad evs with
    | some e => faultLoad f 0 (.imem f) e (memEvents (.imem f) 1 none evs d)
    | none =>
      if !wordValid w then faultIssue f w 0 codeIllegal (memEvents (.imem f) 1 none evs d)
      else if wop w ≠ op then d
      else
        let d := memEvents (.imem f) 1 none evs d
        let x := forme d f
        if !qualOn w x.regs then modForme f advance d
        else if interlocked x w then modForme f (fun x => { x with interlock := satAdd x.interlock 1 }) d
        else act w d

/-! ## Scalar instructions -/

/-- The memory of an event that a scalar instruction reports. -/
def dataMem (f code : Nat) : MemId := if code = 4 then .ymem f else .xmem f

/-- Account for the events of X and Y memory. -/
def dataEvents (f : Nat) (evs : List (Nat × MemEv)) (d : Device) : Device :=
  evs.foldl (fun d ce => memEvent (dataMem f ce.1) 1 none d ce.2) d

/-- What a store has put into the merge buffers of the data memories is the instruction's (R304). -/
def storeOwn (f : Nat) (w : Word) (d : Device) (x : Forme) : Forme :=
  let own := some (writerOf d ((forme d f).task.getD 0xFFF) 1 none (issueCtx f (forme d f) w 0))
  { x with xmem := memStamp own x.xmem, ymem := memStamp own x.ymem }

/-- Run a scalar instruction (R206 to R222): its effect whole, or its fault and none of it but what the read itself did to the
memories (R304). DESIGN CHOICE: one that faults at issue has not issued: neither FM_CO_INSTRS nor FM_CO_STATUS.pc shows it
(R204, log 102). -/
def runScalar (op : Nat) (co : Word → Forme → CoOut) (f : Nat) (d : Device) : Device :=
  issueAs op f (fun w d =>
    match co w (advance (forme d f)) with
    | .fault code => faultIssue f w 0 code d
    | .ok x evs =>
      let x := if op = 0x09 then storeOwn f w d x else x
      match evs.find? fun ce => ce.2.bad && !ce.2.flush with
      | some ce =>
        faultLoad f w (dataMem f ce.1) ce.2
          (dataEvents f evs (modForme f (fun y => { y with xmem := x.xmem, ymem := x.ymem }) d))
      | none => dataEvents f evs (modForme f (fun _ => x) d)) d

/-! ## Tensor instructions at issue (R196, R224, R225) -/

/-- The g register that a PRD writes, as it stands at issue (R225, R241). -/
def prdDest (w : Word) (r : CoRegs) : Fin 32 := Fin.ofNat 32 (gphys r (fieldN w 15 11))

/-- The queue entry that an issue captures. -/
def captureEntry (w : Word) (x : Forme) (mask : Nat) : QEntry :=
  { word := w, pc := x.regs.pc, slot := x.task.getD 0xFFF, pm := tgtPm w, pmask := BitVec.ofNat 8 mask,
    vforme := x.vforme, desc := captureDesc w x.regs, vals := captureVals w x.regs, dest := prdDest w x.regs }

/-- A named press cannot take an entry now: it is not On, or its queue is full (R178, R196). -/
def pressWaits (d : Device) (p : Nat) : Bool := !domainOn d p || 256 ≤ (press d p).queue.length

/-- Issue an instruction to the queues of its presses (R196, R509). -/
def issueQueue (f : Nat) (w : Word) (d : Device) : Device :=
  let x := forme d f
  let mask := issueMask w x.regs
  let ps := maskPresses f mask
  if ps.any (fun p => !bit x.pmask (p % 8)) then faultIssue f w mask codePressNotHeld d
  else match ps.find? (fenced d) with
    | some p => faultTask (x.task.getD 0xFFF) 0x0A01 (unitPress p) (issueCtx f x w mask) none d
    | none =>
      if ps.any (pressWaits d) then modForme f (fun x => { x with issueStall := satAdd x.issueStall 1 }) d
      else
        let e := captureEntry w x mask
        let d := ps.foldl (fun d p => modPress p (fun y => { y with queue := y.queue ++ [e] }) d) d
        modForme f (fun x =>
          let y := advance x
          { y with pend := if wop w = 0x2D && fieldN w 15 11 ≠ 0 then y.pend ++ [e.dest] else y.pend }) d

/-- The first point of a task's time (R238, R391). -/
def taskOrigin (t : Ticket) : Int := 4096 * ((t.start : Int) - t.elapsed)

/-- Press Time has reached a point of the task (R197, R238). -/
def pointReached (d : Device) (slot : Nat) (point : Nat) : Bool :=
  match ticketOf d slot with
  | none => true
  | some t => decide (taskOrigin t + point ≤ d.now)

/-- Every instruction that the core has issued has completed (R178, R240). -/
def formeQuiet (d : Device) (f : Nat) : Bool :=
  (List.range 8).all fun p => (press d (8 * f + p)).queue = [] && pressIdle (press d (8 * f + p)) && engineIdle d (8 * f + p)

/-- WAITPT, SIGNAL, WAIT and FENCE that the core performs itself; one that must wait leaves everything as it is
(R199, R238 to R240). -/
def issueCore (f : Nat) (w : Word) (d : Device) : Device :=
  let x := forme d f
  match wop w with
  | 0x28 =>
    if pointReached d (x.task.getD 0xFFF) (rg x.regs (fieldN w 3 0)).toNat then modForme f advance d else d
  | 0x29 =>
    match tokenAdd x (fieldN w 15 10) (fieldN w 7 0) with
    | some y => modForme f (fun _ => advance y) d
    | none => faultIssue f w 0 codeTokenOverflow d
  | 0x2A =>
    match tokenTake x (fieldN w 15 10) (fieldN w 7 0) with
    | some y => modForme f (fun _ => advance y) d
    | none => d
  | 0x2B => if formeQuiet d f then modForme f advance d else d
  | _ => d

/-- Run a tensor instruction as far as its issue. -/
def runTensor (op f : Nat) (d : Device) : Device :=
  issueAs op f (fun w d =>
    let r := (forme d f).regs
    if !tensorWordOk w || !maskOk w r then faultIssue f w (if tgtPm w then 0 else issueMask w r) codeIllegal d
    else if !tgtPm w && tgtCore w then issueCore f w d
    else issueQueue f w d) d

/-! ## Loading (R176, R177, R479) -/

/-- A fault of a forme that no instruction raises. -/
def faultForme (f : Nat) (code : BitVec 16) (d : Device) : Device :=
  let x := forme d f
  faultTask (x.task.getD 0xFFF) code (unitForme f) { phase := 3, issuer := unitForme f, vforme := x.vforme } none d

/-- The context of a fault of the loader of forme `f`. -/
def loadCtx (d : Device) (f : Nat) : Ctx := { phase := 3, issuer := unitForme f, vforme := (forme d f).vforme }

/-- The loader's read of a range enters the queues of its stacks (R287). -/
def noteLoad (f a n : Nat) (d : Device) : Device :=
  noteRead a n 1 (some (writerOf d ((forme d f).task.getD 0xFFF) 1 none (loadCtx d f))) d

/-- Read HBM for the loader: none where the range faults the task, with the fault raised (R177, R308, R310). -/
def readLoad (f a n : Nat) (d : Device) : Device × Option (List Byte) :=
  let slot := (forme d f).task.getD 0xFFF
  let ctx := loadCtx d f
  if hbmBytes d.part < a + n then (faultForme f codeBadImage d, none)
  else if hbmRetired d a n then
    let (st, l) := hbmMap d.part (retiredAt d a n)
    (faultTask slot 0x0512 (unitStack st) ctx (some (sdDetail d (.hbm st) l 0 1 0 0 1 none)) d, none)
  else
    let (d, v, bad) := readHbm a n 1 none (noteLoad f a n d)
    match bad with
    | some (id, e) => (faultStored slot id 1 none ctx e d, none)
    | none => (d, some v)

/-- A header of a program image keeps R176. -/
def imageHeaderOk (h : List Byte) : Bool :=
  let im := leAt h 4 4; let xb := leAt h 8 4; let yb := leAt h 12 4
  leAt h 0 2 = 1 && leAt h 2 2 = 0x9480 && im % 64 = 0 && decide (64 ≤ im) && decide (im ≤ 131072)
    && xb % 64 = 0 && decide (xb ≤ 65536) && yb % 64 = 0 && decide (yb ≤ 65536)
    && decide (leAt h 16 4 < im / 4) && leAt h 20 4 = 0 && leAt h 32 32 = 0

/-- A memory that holds `v` from address 0 and zeros above, with right check words. -/
def memOf (v : List Byte) : Mem := { bytes := rawPut [] 0 v }

/-- The forme begins its program: memories written, registers and tokens zero (R177). -/
def beginProgram (f : Nat) (h b : List Byte) (d : Device) : Device :=
  let im := leAt h 4 4; let xb := leAt h 8 4; let yb := leAt h 12 4
  modForme f (fun x =>
    { x with imem := memOf (b.take im), xmem := memOf ((b.drop im).take xb), ymem := memOf ((b.drop (im + xb)).take yb),
             regs := { pc := BitVec.ofNat 15 (leAt h 16 4) }, tokens := Vector.replicate 64 0, pend := [],
             state := .running }) d

/-- The image at HBM address `a` is loaded into forme `f`. -/
def loadImage (f a : Nat) (d : Device) : Device :=
  match readLoad f a 64 d with
  | (d, none) => d
  | (d, some h) =>
    if !imageHeaderOk h then faultForme f codeBadImage d
    else match readLoad f (a + 64) (leAt h 4 4 + leAt h 8 4 + leAt h 12 4) d with
      | (d, none) => d
      | (d, some b) =>
        if (tally (h.take 24 ++ b)).toNat = leAt h 24 8 then beginProgram f h b d
        else faultForme f codeBadImage d

/-- PROGRAM_LOADED (R177, R479). -/
def doProgramLoaded (f : Nat) (d : Device) : Device :=
  let x := forme d f
  match x.task.bind (ticketOf d) with
  | none => d
  | some t =>
    if x.state ≠ .loading || t.resume || !busesIssue d then d
    else match readLoad f t.program 128 d with
      | (d, none) => d
      | (d, some tab) =>
        let a := leAt tab (8 * (eArg (getEntry d x.entry) % 16)) 8
        if tally tab ≠ t.entryTally ∨ a = 0 ∨ a % 64 ≠ 0 then faultForme f codeBadImage d
        else loadImage f a d

/-! ## The end of a program (R178, R48) -/

/-- A START or a HOLD of the forme has ended with its program: its entry is released, and the ticket completes with its
last program. -/
def endProgram (f : Nat) (t : Ticket) (d : Device) : Device :=
  let i := (forme d f).entry
  let d := freeEntry i (freeForme d f)
  let d := modTicket t.slot (fun t => { t with running := t.running - 1 }) d
  match ticketOf d t.slot with
  | some t => if t.running = 0 && t.toStart = 0 then completeTicket t d else d
  | none => d

/-- COMPOSITOR_IDLE (R178). -/
def doCompositorIdle (f : Nat) (d : Device) : Device :=
  let x := forme d f
  match x.task.bind (ticketOf d) with
  | none => d
  | some t =>
    if x.state = .finishing && formeQuiet d f && t.pause.isNone && t.abort.isNone then endProgram f t d else d

/-- FM_CO_CLEAR_COUNTS (R204). -/
def doFmCoClearCounts (f : Nat) (d : Device) : Device :=
  modForme f (fun x => { x with instrs := 0, issueStall := 0, interlock := 0 }) d

/-! ## The commands -/

def execProgramLoaded (f : FormeId) (s : State) : Host.Outcome State Fault Refusal := onDev (doProgramLoaded f.1) s
def execCompositorIdle (f : FormeId) (s : State) : Host.Outcome State Fault Refusal := onDev (doCompositorIdle f.1) s
def execFmCoClearCounts (f : FormeId) (s : State) : Host.Outcome State Fault Refusal :=
  onHost (.fmCoClearCounts f) (doFmCoClearCounts f.1) s
def execNop (f : FormeId) (s : State) : Host.Outcome State Fault Refusal := onDev (runScalar 0x01 coNop f.1) s
def execHalt (f : FormeId) (s : State) : Host.Outcome State Fault Refusal := onDev (runScalar 0x02 coHalt f.1) s
def execAluGroup (f : FormeId) (s : State) : Host.Outcome State Fault Refusal := onDev (runScalar 0x04 coAlu f.1) s
def execAddi (f : FormeId) (s : State) : Host.Outcome State Fault Refusal := onDev (runScalar 0x05 coAddi f.1) s
def execMovi (f : FormeId) (s : State) : Host.Outcome State Fault Refusal := onDev (runScalar 0x06 coMovi f.1) s
def execLd (f : FormeId) (s : State) : Host.Outcome State Fault Refusal := onDev (runScalar 0x08 coLd f.1) s
def execSt (f : FormeId) (s : State) : Host.Outcome State Fault Refusal := onDev (runScalar 0x09 coSt f.1) s
def execAmov (f : FormeId) (s : State) : Host.Outcome State Fault Refusal := onDev (runScalar 0x0A coAmov f.1) s
def execSmov (f : FormeId) (s : State) : Host.Outcome State Fault Refusal := onDev (runScalar 0x0B coSmov f.1) s
def execLdt (f : FormeId) (s : State) : Host.Outcome State Fault Refusal := onDev (runScalar 0x0C coLdt f.1) s
def execMtt (f : FormeId) (s : State) : Host.Outcome State Fault Refusal := onDev (runScalar 0x0D coMtt f.1) s
def execMft (f : FormeId) (s : State) : Host.Outcome State Fault Refusal := onDev (runScalar 0x0E coMft f.1) s
def execMpy (f : FormeId) (s : State) : Host.Outcome State Fault Refusal := onDev (runScalar 0x10 (coMul 0 false) f.1) s
def execMac (f : FormeId) (s : State) : Host.Outcome State Fault Refusal := onDev (runScalar 0x11 (coMul 1 false) f.1) s
def execMsu (f : FormeId) (s : State) : Host.Outcome State Fault Refusal := onDev (runScalar 0x12 (coMul 2 false) f.1) s
def execMpyr (f : FormeId) (s : State) : Host.Outcome State Fault Refusal := onDev (runScalar 0x13 (coMul 0 true) f.1) s
def execMacr (f : FormeId) (s : State) : Host.Outcome State Fault Refusal := onDev (runScalar 0x14 (coMul 1 true) f.1) s
def execAccGroup (f : FormeId) (s : State) : Host.Outcome State Fault Refusal := onDev (runScalar 0x15 coAcc f.1) s
def execJ (f : FormeId) (s : State) : Host.Outcome State Fault Refusal := onDev (runScalar 0x18 coJ f.1) s
def execJr (f : FormeId) (s : State) : Host.Outcome State Fault Refusal := onDev (runScalar 0x19 coJr f.1) s
def execCall (f : FormeId) (s : State) : Host.Outcome State Fault Refusal := onDev (runScalar 0x1A coCall f.1) s
def execBcc (f : FormeId) (s : State) : Host.Outcome State Fault Refusal := onDev (runScalar 0x1B coBcc f.1) s
def execDbnz (f : FormeId) (s : State) : Host.Outcome State Fault Refusal := onDev (runScalar 0x1C coDbnz f.1) s
def execBrc (f : FormeId) (s : State) : Host.Outcome State Fault Refusal := onDev (runScalar 0x1D coBrc f.1) s
def execLpset (f : FormeId) (s : State) : Host.Outcome State Fault Refusal := onDev (runScalar 0x1E coLpset f.1) s
def execPass (f : FormeId) (s : State) : Host.Outcome State Fault Refusal := onDev (runTensor 0x20 f.1) s
def execFeed (f : FormeId) (s : State) : Host.Outcome State Fault Refusal := onDev (runTensor 0x21 f.1) s
def execDrain (f : FormeId) (s : State) : Host.Outcome State Fault Refusal := onDev (runTensor 0x22 f.1) s
def execInk (f : FormeId) (s : State) : Host.Outcome State Fault Refusal := onDev (runTensor 0x23 f.1) s
def execJustify (f : FormeId) (s : State) : Host.Outcome State Fault Refusal := onDev (runTensor 0x24 f.1) s
def execXfer (f : FormeId) (s : State) : Host.Outcome State Fault Refusal := onDev (runTensor 0x25 f.1) s
def execLink (f : FormeId) (s : State) : Host.Outcome State Fault Refusal := onDev (runTensor 0x26 f.1) s
def execWaitpt (f : FormeId) (s : State) : Host.Outcome State Fault Refusal := onDev (runTensor 0x28 f.1) s
def execSignal (f : FormeId) (s : State) : Host.Outcome State Fault Refusal := onDev (runTensor 0x29 f.1) s
def execWait (f : FormeId) (s : State) : Host.Outcome State Fault Refusal := onDev (runTensor 0x2A f.1) s
def execFence (f : FormeId) (s : State) : Host.Outcome State Fault Refusal := onDev (runTensor 0x2B f.1) s
def execPwr (f : FormeId) (s : State) : Host.Outcome State Fault Refusal := onDev (runTensor 0x2C f.1) s
def execPrd (f : FormeId) (s : State) : Host.Outcome State Fault Refusal := onDev (runTensor 0x2D f.1) s

end Sys2Proof.Machine
end

