-- ==== Sys2Proof/Machine/Queue.lean ====
section
/-!
DEFINITION. Machine/Queue.lean: WAITPT, WAIT, SIGNAL and FENCE in a press queue, and token signals of a press
(05_compositor.md R197, R199, R200; 06 R237 to R240), with their commands.
-/
namespace Sys2Proof.Machine

/-- Add `n` to token counter `tok` of the forme of press `p` for an entry; a counter that would pass 65,535 faults the
task (R199). -/
def signalToken (p phase : Nat) (e : QEntry) (tok n : Nat) (d : Device) : Device :=
  match tokenAdd (forme d (p / 8)) tok n with
  | some f => modForme (p / 8) (fun _ => f) d
  | none => faultEntry p phase e codeTokenOverflow none d

/-- Every earlier instruction of the queue of press `p` has completed (R197). -/
def queueDrained (d : Device) (p : Nat) : Bool := pressIdle (press d p) && engineIdle d p

/-- The head waits for time or for tokens (R263). -/
def scheduleWait (p : Nat) (d : Device) : Device :=
  modPress p (fun x => { x with stalls := { x.stalls with scheduleWait := satAdd x.stalls.scheduleWait 1 } }) d

/-- WAITPT_DISPATCH (R197, R238). -/
def doWaitpt (p : Nat) : Device → Device :=
  atHead (fun o => o = 0x28) p fun e d =>
    if pointReached d e.slot (nth 0 e.vals 0).toNat then popHead p d else scheduleWait p d

/-- WAIT_DISPATCH (R199, R200, R239). -/
def doWait (p : Nat) : Device → Device :=
  atHead (fun o => o = 0x2A) p fun e d =>
    match tokenTake (forme d (p / 8)) (fieldN e.word 15 10) (fieldN e.word 7 0) with
    | some f => popHead p (modForme (p / 8) (fun _ => f) d)
    | none => scheduleWait p d

/-- SIGNAL_DISPATCH (R197, R199, R239). -/
def doSignal (p : Nat) : Device → Device :=
  atHead (fun o => o = 0x29) p fun e d =>
    if queueDrained d p then signalToken p 1 e (fieldN e.word 15 10) (fieldN e.word 7 0) (popHead p d) else d

/-- FENCE_DISPATCH (R197, R240). -/
def doFence (p : Nat) : Device → Device :=
  atHead (fun o => o = 0x2B) p fun _ d => if queueDrained d p then popHead p d else d

def execWaitptDispatch (p : PressId) (s : State) : Host.Outcome State Fault Refusal := onDev (doWaitpt p.1) s
def execWaitDispatch (p : PressId) (s : State) : Host.Outcome State Fault Refusal := onDev (doWait p.1) s
def execSignalDispatch (p : PressId) (s : State) : Host.Outcome State Fault Refusal := onDev (doSignal p.1) s
def execFenceDispatch (p : PressId) (s : State) : Host.Outcome State Fault Refusal := onDev (doFence p.1) s

end Sys2Proof.Machine
end

