-- ==== Sys2Proof/Machine/Chase.lean ====
section
/-!
DEFINITION. Machine/Chase.lean: transfers, chunks and the messages of the chase, the sides of a galley, and deadlines
(07_galleys_and_chase.md R246 to R283, R596), with their commands.
-/
namespace Sys2Proof.Machine

/-! ## Record detail and faults (R279, R280) -/

/-- The fields of R279. -/
structure ChDetail where
  stream  : Nat := 0xFFFF
  holder  : Nat := 0xFFFF
  init    : Nat := 0xFFFF
  holderI : Nat := 0xFFFF
  peer    : Nat := 0
  pool    : Nat := 0xFF
  state   : Nat := 0xFF
  chunk   : Nat := 0
  missing : Nat := 0
  deriving DecidableEq, Repr

def chDetail (x : ChDetail) : BitVec 256 :=
  dput 32 x.stream <| dput 34 x.holder <| dput 36 x.init <| dput 38 x.holderI <| dput 40 x.peer <|
  dput 42 x.pool <| dput 43 x.state <| dput 44 x.chunk <| dput 48 x.missing 0

/-- A fault of the transfer of an entry of press `p`: the context of its XFER, its stream, and the detail of area 06h. -/
def faultStream (p phase : Nat) (e : QEntry) (stream : BitVec 12) (code : BitVec 16) (unit : BitVec 32) (x : ChDetail)
    (d : Device) : Device :=
  faultTask e.slot code unit { ctxOf p phase e none with stream := some stream }
    (some (chDetail { x with stream := stream.toNat, init := p })) d

/-! ## Descriptors of kind 8h (R248 to R250, R596) -/

/-- A stream descriptor's fields. -/
structure StreamDesc where
  mcast  : Bool
  tmode  : Nat
  pool   : Bool
  src    : Nat
  dst    : Nat
  window : Nat
  stream : BitVec 12
  dline  : Nat
  len    : Nat
  saddr  : Nat
  daddr  : Nat
  tally  : BitVec 64
  pmask  : Nat
  fmask  : Nat
  deriving DecidableEq, Repr

/-- Under pm = 1 a galley endpoint of the press's own forme becomes the press's own galley (R250). -/
def ownGalley (pm : Bool) (p ep : Nat) : Nat := if pm && ep < 0x80 && ep / 8 = p / 8 then p else ep

def streamDesc (pm : Bool) (p : Nat) (b : BitVec 256) : StreamDesc :=
  { mcast := bit b 251, tmode := fieldN b 250 249, pool := bit b 248, src := ownGalley pm p (fieldN b 247 238),
    dst := if bit b 251 then fieldN b 237 228 else ownGalley pm p (fieldN b 237 228), window := fieldN b 227 224,
    stream := field b 223 212, dline := fieldN b 211 188, len := fieldN b 187 168, saddr := fieldN b 167 128,
    daddr := fieldN b 127 88, tally := field b 87 24, pmask := fieldN b 23 16, fmask := fieldN b 15 0 }

/-- Check 1 of R596: reserved values and fields that must be zero (R248, R249). -/
def streamWf (x : StreamDesc) : Bool :=
  x.tmode < 2 && x.len ≠ 0 && (!x.mcast || x.dst = 0) && (x.tmode = 1 || x.tally = 0)
    && (x.mcast || (x.pmask = 0 && x.fmask = 0)) && (!x.pool || x.daddr < 16)

/-- The receivers of a multicast push (R273). -/
def mcastSet (x : StreamDesc) : List Nat :=
  let fs := (List.range 16).filter x.fmask.testBit
  if x.pmask ≠ 0 then (fs.map fun f => ((List.range 8).filter x.pmask.testBit).map (8 * f + ·)).flatten
  else fs.map (0x80 + ·)

/-- The endpoint concerned of a multicast: its first receiver that is not among `had` (R279). -/
def mcastPeer (rcvrs had : List Nat) : Nat := nth 0 (rcvrs.filter (fun r => !had.contains r) ++ rcvrs) 0

/-- Check 2 of R596 (R246). -/
def epAllowed (d : Device) (n : Nat) : Bool :=
  let e := epOf n
  epNameable e && epPresent d e && (match e with | .quad q => (quad d q).mode = 2 | _ => true)

/-- The endpoint's forme, where it has one, is held. -/
def epHeld (d : Device) (slot n : Nat) : Bool :=
  match epForme (epOf n) with
  | some f => formeHeld d slot f
  | none => true

/-- Check 3: the code for an endpoint that is not held. -/
def notHeldCode (n : Nat) : BitVec 16 := match epOf n with | .comp _ => 0x0603 | _ => 0x0604

/-- An address range lies in its endpoint's memory, aligned (R249, R474). -/
def rangeOk (d : Device) (n addr bytes : Nat) : Bool :=
  addr % 64 = 0 && addr + bytes ≤ epBytes d (epOf n) &&
  match epOf n with
  | .host =>
    let a := vgetN {} d.host.aperture (addr / 2 ^ 34)
    a.valid && addr % 2 ^ 34 + bytes ≤ 4096 * a.pages.toNat
  | _ => true

/-- The non-local endpoint of a transfer of press `p`. -/
def farEnd (p : Nat) (x : StreamDesc) : Nat := if epLocal p (epOf x.src) then x.dst else x.src

/-- An endpoint that only windows reach (R259). -/
def needsWindow (n : Nat) : Bool := match epOf n with | .hbmAddr | .quad _ | .host => true | _ => false

/-- The point of a deadline field of a task (R248). -/
def deadlineOf (d : Device) (p slot field : Nat) : Nat :=
  if field = 0 then entryEnd d (getEntry d (forme d (p / 8)).entry)
  else (((ticketOf d slot).map taskOrigin).getD 0 + (field : Int)).toNat

/-- A failed check: its code and the endpoint it concerns. -/
abbrev Checked := Option (BitVec 16 × Nat)

/-- The first check that fails. -/
def firstOf (l : List Checked) : Checked :=
  match l with
  | [] => none
  | some c :: _ => some c
  | none :: r => firstOf r

def failIf (b : Bool) (code : BitVec 16) (ep : Nat) : Checked := if b then some (code, ep) else none

/-- The checks of R596 after the first, in their order. -/
def streamChecks (d : Device) (p slot : Nat) (x : StreamDesc) : Checked :=
  let ends := if x.mcast then [x.src] else [x.src, x.dst]
  let bytes := 64 * x.len
  let set := mcastSet x
  firstOf (
    (ends.map fun n => failIf (!epAllowed d n) 0x0603 n)
    ++ (ends.map fun n => failIf (!epHeld d slot n) (notHeldCode n) n)
    ++ [ failIf (if x.mcast then !epLocal p (epOf x.src) || set = [] || x.pool || set.any (fun n => !epHeld d slot n)
                 else !epLocal p (epOf x.src) && !epLocal p (epOf x.dst)) 0x0603 (if x.mcast then x.src else x.dst),
         failIf (!rangeOk d x.src x.saddr bytes) 0x0605 x.src ]
    ++ (if x.mcast then set.map fun n => failIf (!rangeOk d n x.daddr bytes) 0x0605 n
        else [failIf (!x.pool && !rangeOk d x.dst x.daddr bytes) 0x0605 x.dst])
    ++ [ failIf (!x.mcast && x.window = 0 && needsWindow (farEnd p x)) 0x0607 (farEnd p x),
         failIf (x.pool && epPools (epOf x.dst) ≤ x.daddr) 0x0606 x.dst,
         failIf (deadlineOf d p slot x.dline < d.now) 0x0601 (if x.mcast then mcastPeer set [] else x.dst) ])

/-- The host address of an aperture offset (R474). -/
def hostAddr (d : Device) (off : Nat) : Nat := (vgetN {} d.host.aperture (off / 2 ^ 34)).base.toNat + off % 2 ^ 34

/-- The transfer that a checked descriptor starts. -/
def makeTransfer (d : Device) (p : Nat) (e : QEntry) (x : StreamDesc) : Transfer :=
  { entry := e, mcast := x.mcast, tmode := x.tmode, pool := if x.pool then some x.daddr else none, src := x.src,
    dst := x.dst, window := x.window, stream := x.stream, deadline := deadlineOf d p e.slot x.dline,
    len := 64 * x.len, saddr := x.saddr, daddr := if x.pool then 0 else x.daddr, tally := x.tally,
    rcvrs := if x.mcast then mcastSet x else [], push := epLocal p (epOf x.src), sig := bit e.word 11,
    tok := fieldN e.word 10 5,
    host := hostAddr d (if (epOf x.src) = .host then x.saddr else x.daddr) }

/-- Transfers in progress at a press (R260, R352). -/
def controllerLoad (x : Press) : Nat := x.transfers.length + x.ftransfers.length

/-- A transfer waits at the head of the queue: the controller is full, or an instruction before it in the queue may still touch
the press's galley (R260). -/
def xferWaits (d : Device) (p : Nat) (x : StreamDesc) : Bool :=
  decide (8 ≤ controllerLoad (press d p))
    || (((x.src = p || x.dst = p) && !x.mcast || x.mcast && (x.src = p || (mcastSet x).contains p)) && !queueDrained d p)

/-- Check and dispatch an XFER whose descriptor is not of kind 9h (R237, R260, R596). -/
def xferAtHead (p : Nat) (e : QEntry) (d : Device) : Device :=
  let b := nth 0 e.desc 0
  if dKind b = 9 then d
  else if dKind b ≠ 8 then faultEntry p 1 e codeBadDesc none d
  else
    let x := streamDesc e.pm p b
    if xferWaits d p x then d
    else if !streamWf x then faultEntry p 1 e codeBadDesc none d
    else match streamChecks d p e.slot x with
      | some (code, ep) =>
        faultStream p 1 e x.stream code (unitPress p) { peer := ep, pool := if x.pool then x.daddr % 256 else 0xFF } d
      | none => popHead p (modPress p (fun y => { y with transfers := y.transfers ++ [makeTransfer d p e x] }) d)

def doXferDispatch (p : Nat) : Device → Device := atHead (fun o => o = 0x25) p (xferAtHead p)

/-! ## Pools (R253, R254) -/

def kind9Fields : List (Nat × Nat) :=
  [(255, 252), (251, 250), (249, 240), (239, 236), (235, 212), (211, 188), (187, 187), (186, 181), (180, 157)]

/-- A pool operation faults with STREAM_POOL. -/
def faultPool (p : Nat) (e : QEntry) (ep pool : Nat) (d : Device) : Device :=
  faultTask e.slot 0x0606 (unitPress p) (ctxOf p 1 e none) (some (chDetail { init := p, peer := ep, pool := pool })) d

/-- The operation is done: it leaves the queue, and signals (R237, R253). -/
def poolDone (p : Nat) (e : QEntry) (d : Device) : Device :=
  let d := popHead p d
  if bit e.word 11 then signalToken p 1 e (fieldN e.word 10 5) 1 d else d

/-- The endpoint and pool of a kind 9h descriptor, where R253 allows them. -/
def poolTarget (p : Nat) (pm : Bool) (b : BitVec 256) : Option (Nat × Nat) :=
  let ep := ownGalley pm p (fieldN b 249 240)
  let k := fieldN b 239 236
  if (ep = p || ep = 0x80 + p / 8) && k < epPools (epOf ep) then some (ep, k) else none

/-- OPEN (R254). -/
def openPool (ep k : Nat) (b : BitVec 256) (d : Device) : Option Device :=
  let base := fieldN b 235 212
  let size := fieldN b 211 188
  let q := getPool d (epOf ep) k
  if base % 4096 ≠ 0 || size % 4096 ≠ 0 || size < 0x1000 || 0x800000 < size || epBytes d (epOf ep) < base + size
      || (q.isOpen && q.free ≠ q.size) then none
  else some (modPool (epOf ep) k (fun _ =>
    { isOpen := true, head := base, tail := base, free := size, base := base, size := size, lsig := bit b 187,
      ltok := fieldN b 186 181 }) d)

/-- RELEASE (R254). -/
def releasePool (ep k : Nat) (b : BitVec 256) (d : Device) : Option Device :=
  let n := fieldN b 180 157
  let q := getPool d (epOf ep) k
  if n % 64 ≠ 0 || q.committed < n then none
  else some (modPool (epOf ep) k (fun q =>
    { q with head := poolNext q q.head n, free := q.free + n, committed := q.committed - n }) d)

/-- A kind 9h XFER at the head of the queue: OPEN and the reserved operations, or RELEASE. -/
def poolAtHead (p : Nat) (release : Bool) (e : QEntry) (d : Device) : Device :=
  let b := nth 0 e.desc 0
  let op := fieldN b 251 250
  if dKind b ≠ 9 || (op = 1) ≠ release then d
  else if !reservedZero b kind9Fields then faultEntry p 1 e codeBadDesc none d
  else match poolTarget p e.pm b with
    | none => faultPool p e (ownGalley e.pm p (fieldN b 249 240)) (fieldN b 239 236) d
    | some (ep, k) =>
      let r := match op with
        | 0 => openPool ep k b d
        | 1 => releasePool ep k b d
        | _ => none
      match r with
      | none => faultPool p e ep k d
      | some d => poolDone p e d

def doPoolOpen (p : Nat) : Device → Device := atHead (fun o => o = 0x25) p (poolAtHead p false)
def doPoolRelease (p : Nat) : Device → Device := atHead (fun o => o = 0x25) p (poolAtHead p true)

/-! ## CHUNK_REQUEST (R251, R256, R259) -/

/-- The far side of a transfer: its endpoint and the address of byte `off`. -/
def farSide (t : Transfer) (off : Nat) : Nat × Nat := if t.push then (t.dst, t.daddr + off) else (t.src, t.saddr + off)

/-- The window that a chunk needs is open. -/
def chunkWindow (d : Device) (t : Transfer) (off : Nat) : Bool :=
  if t.mcast then true
  else
    let (n, a) := farSide t off
    match epOf n with
    | .hbmAddr => openWindow d t.entry.slot 2 1 (hbmMap d.part a).1 t.window
    | .quad q => openWindow d t.entry.slot 2 2 q t.window
    | .host => openWindow d t.entry.slot 2 4 0 t.window
    | _ => true

/-- The address whose 4 KiB boundaries cut a transfer (R251). -/
def cutAddr (t : Transfer) (off : Nat) : Nat :=
  if epOf t.src = .hbmAddr then t.saddr + off
  else if epOf t.dst = .hbmAddr && !t.mcast then t.daddr + off
  else match t.pool with
    | some _ => off
    | none => t.daddr + off

/-- The length of the chunk that begins at byte `off`. -/
def chunkLen (t : Transfer) (off : Nat) : Nat := min (4096 - cutAddr t off % 4096) (t.len - off)

/-- HBM bytes that a chunk reads or writes. -/
def chunkHbm (t : Transfer) (off : Nat) : Option Nat :=
  if epOf t.src = .hbmAddr then some (t.saddr + off)
  else if epOf t.dst = .hbmAddr && !t.mcast then some (t.daddr + off)
  else none

def chunkRetired (d : Device) (t : Transfer) (off n : Nat) : Bool :=
  match chunkHbm t off with
  | some a => hbmRetired d a n
  | none => false

/-- Every way of the chunk's messages has a route (R267). -/
def chunkRoutes (d : Device) (p : Nat) (t : Transfer) (c : TxChunk) : Bool :=
  if t.push then (chunkRcvrs d t c).all fun r => routeValid d p r && routeValid d r p
  else
    let s := epUnit d t.src (t.saddr + c.off)
    routeValid d p s && routeValid d s t.dst

/-- The pool that a chunk names cannot take it (R254). -/
def poolBad (d : Device) (t : Transfer) (n : Nat) : Bool :=
  match t.pool with
  | some k => let q := getPool d (epOf t.dst) k; !q.isOpen || q.size < n
  | none => false

def modTransfer (p i : Nat) (g : Transfer → Transfer) (d : Device) : Device :=
  modPress p (fun x => { x with transfers := x.transfers.mapIdx fun j t => if j = i then g t else t }) d

def transferAt (d : Device) (p i : Nat) : Option Transfer := (press d p).transfers[i]?

/-- RESERVE to every receiver of a chunk of a push, or the reservation that an initiator takes at itself (R256). -/
def askChunk (p : Nat) (t : Transfer) (c : TxChunk) (d : Device) : Device :=
  if t.push then
    (chunkRcvrs d t c).foldl (fun d r =>
      chaseSend { type := 0, dst := r, src := p, tag := c.tag, len := c.len, addr := t.daddr + c.off, pool := t.pool,
                  stream := t.stream, slot := t.entry.slot, init := p } d) d
  else
    let s := epUnit d t.src (t.saddr + c.off)
    modChase (fun x => { x with rx := x.rx ++
      [{ dst := t.dst, src := s, tag := c.tag, len := c.len, addr := t.daddr + c.off, pool := t.pool,
         stream := t.stream, slot := t.entry.slot, init := p, pull := some (s, t.saddr + c.off) }] }) d

/-- A chunk waits for a grant, or for space at the initiator. -/
def chunkWaits (d : Device) (p : Nat) (t : Transfer) (c : TxChunk) : Bool :=
  if t.push then !(chunkRcvrs d t c).all c.grants.contains
  else d.chase.rx.any fun k => k.init = p && k.tag = c.tag && k.pull.isSome && !k.granted

def countReserveWait (p : Nat) (d : Device) : Device :=
  modPress p (fun x => { x with stalls := { x.stalls with reserveWait := satAdd x.stalls.reserveWait 1 } }) d

/-- Request the next chunk of a transfer, or fault it (R254, R256, R267, R310). -/
def requestNext (p i : Nat) (t : Transfer) (d : Device) : Device :=
  let n := chunkLen t t.asked
  let tag := freshTag (press d p)
  let c : TxChunk := { num := t.nextNum, tag := tag, off := t.asked, len := n, asked := d.chase.asks,
                       grantBy := d.now + max 1 d.chase.grantDeadline.toNat }
  let x : ChDetail := { peer := if t.push then t.dst else t.src, pool := (t.pool).getD 0xFF, chunk := t.nextNum }
  if poolBad d t n then faultStream p 2 t.entry t.stream 0x0606 (unitPress p) { x with peer := t.dst } d
  else if chunkRetired d t t.asked n then
    let a := retiredAt d ((chunkHbm t t.asked).getD 0) n
    let (s, l) := hbmMap d.part a
    faultTask t.entry.slot 0x0512 (unitStack s) { ctxOf p 2 t.entry none with stream := some t.stream }
      (some (sdDetail d (.hbm s) l 0 2 0 0 1 (some t.stream))) d
  else if !chunkRoutes d p t c then
    faultStream p 2 t.entry t.stream 0x0614 (unitPress p)
      (if t.mcast then { x with peer := mcastPeer t.rcvrs (t.rcvrs.filter fun r => routeValid d p r && routeValid d r p) }
       else x) d
  else
    let d := modPress p (fun y => { y with tagNext := tag + 1 }) (modChase (fun x => { x with asks := x.asks + 1 }) d)
    let d := modTransfer p i (fun t =>
      { t with asked := t.asked + n, nextNum := t.nextNum + 1, chunks := t.chunks ++ [c] }) d
    askChunk p t c d

def doChunkRequest (p i : Nat) (d : Device) : Device :=
  match transferAt d p i with
  | none => d
  | some t =>
    let d := if t.chunks.any (chunkWaits d p t) then countReserveWait p d else d
    if t.len ≤ t.asked || 4 ≤ t.chunks.length then d
    else if !chunkWindow d t t.asked then scheduleWait p d
    else requestNext p i t d

/-! ## Taking messages (R257, R268, R269) -/

/-- A request to the galley of a fenced press is discarded at the press's network interface, whether or not the press has
power (R509, R513). -/
def fencedOff (d : Device) (m : ChaseMsg) : Bool :=
  (m.type = 0 || m.type = 2) && match epOf m.dst with
    | .galley p => fenced d p
    | _ => false

/-- The message of index `n`, of type `ty`, that may be taken now: its receiver has power or is fenced, and no earlier message of the
same chunk, or earlier request of the same source, is still on its way to the same receiver. -/
def msgAt (d : Device) (n ty : Nat) : Option ChaseMsg :=
  match d.chase.flight[n]? with
  | none => none
  | some m =>
    if m.type = ty && (epAwake d (epOf m.dst) || fencedOff d m)
        && !((d.chase.flight.take n).any fun k =>
              k.src = m.src && k.dst = m.dst && ((k.tag = m.tag && k.init = m.init) || (k.type = 0 && m.type = 0)))
    then some m else none

def takeFlight (n : Nat) (d : Device) : Device := modChase (fun c => { c with flight := removeAt c.flight n }) d

/-- The transfer that a tag of initiator `p` names: its place, itself and its chunk. -/
def findTx (d : Device) (p : Nat) (tag : BitVec 12) : Option (Nat × Transfer × TxChunk) :=
  if 128 ≤ p then none
  else
    (((press d p).transfers.mapIdx fun i t => (i, t)).findSome? fun it =>
      (it.2.chunks.find? (·.tag = tag)).map fun c => (it.1, it.2, c))

/-- The fields of R279 for a message. -/
def msgDetail (d : Device) (m : ChaseMsg) : ChDetail :=
  { stream := m.stream.toNat, init := m.init, peer := m.dst, pool := m.pool.getD 0xFF,
    chunk := match findTx d m.init m.tag with | some (_, _, c) => c.num | none => 0 }

/-- An event of R269 that faults no task: its Errata entry. -/
def logChase (unit : BitVec 32) (code : BitVec 16) (m : ChaseMsg) (d : Device) : Device :=
  logError 1 unit (taskId d m.slot) code (chDetail (msgDetail d m)) none (some m.stream) d

/-- Return the space of an uncommitted chunk and forget it (R269, R278). DESIGN CHOICE: the tail of a pool moves back only where
the chunk was the last one granted in it; else its bytes stay a hole before the tail, and count as free (log 103). -/
def freeRx (c : RxChunk) (d : Device) : Device :=
  let d := match c.pool with
    | some k =>
      if c.granted && !c.committed && !c.closed then
        modPool (epOf c.dst) k (fun q =>
          { q with free := q.free + c.len, tail := if poolNext q c.addr c.len = q.tail then c.addr else q.tail }) d
      else d
    | none => d
  dropRx c d

def rxOf (d : Device) (m : ChaseMsg) : Option RxChunk := d.chase.rx.find? (rxIs m.dst m.src m.tag m.init)

/-- A fault of a transfer that its initiator or another unit meets after dispatch; where no press of this part began it,
an Errata entry. -/
def faultMsg (m : ChaseMsg) (code : BitVec 16) (unit : BitVec 32) (d : Device) : Device :=
  match findTx d m.init m.tag with
  | some (_, t, _) => faultStream m.init 2 t.entry t.stream code unit (msgDetail d m) d
  | none => logChase unit code m d

/-- Take message `n` of type `ty` out of flight, and do `act` where it fared well on its way (R269). -/
def onMsg (ty n : Nat) (cond : HopCondition) (act : ChaseMsg → Device → Device) (d : Device) : Device :=
  match msgAt d n ty with
  | none => d
  | some m =>
    match cond with
    | .ok => act m (takeFlight n d)
    | .parity => logChase (epUnitAddr (epOf m.dst)) 0x0612 m (takeFlight n d)
    | .misrouted r => logChase (epUnitAddr (epOf r.1)) 0x0613 m (takeFlight n d)
    | .uncorrectable s =>
      let d := takeFlight n d
      let d := match rxOf d m with
        | some c => freeRx c d
        | none => d
      faultMsg m 0x0611 (unitSwitch s) d

/-- CH_UNKNOWN_TAG (R269). -/
def unknownTag (m : ChaseMsg) (d : Device) : Device := logChase (epUnitAddr (epOf m.dst)) 0x0615 m d

/-- A message of the first chunk of a transfer, of a press of this part or through a port. -/
def firstChunk (d : Device) (m : ChaseMsg) : Bool :=
  match findTx d m.init m.tag with
  | some (_, _, c) => c.num = 0
  | none => (frxOfTag d (m.src - 0xB0) m.tag).any fun x => decide (0xB0 ≤ m.src) && x.chunk = 0

/-- The frisket of the galley's press discards a request: PS_FENCED, once for each transfer (R509). A first chunk begins a new
transfer of its stream. -/
def fencedRequest (p : Nat) (m : ChaseMsg) (d : Device) : Device :=
  let key := (m.init, m.stream.toNat)
  if (press d p).recovery.fencedLog.contains key && !firstChunk d m then d
  else logPress p 0x0A01 false (modRecovery p (fun r => { r with fencedLog := r.fencedLog ++ [key] }) d)

/-- `act`, or the frisket where it closes the galley that the message names. -/
def pastFrisket (m : ChaseMsg) (act : Device → Device) (d : Device) : Device :=
  match epOf m.dst with
  | .galley p => if fenced d p then fencedRequest p m d else act d
  | _ => act d

/-! ## RESERVE and GRANT (R255 to R257, R274) -/

def reserveChunk (m : ChaseMsg) (d : Device) : Device :=
  modChase (fun x => { x with rx := x.rx ++
    [{ dst := m.dst, src := m.src, tag := m.tag, len := m.len, addr := m.addr, pool := m.pool, stream := m.stream,
       slot := m.slot, init := m.init, forron := 0xB0 ≤ m.init }] }) d

def doReserve (n : Nat) (cond : HopCondition) : Device → Device :=
  onMsg 0 n cond fun m d => pastFrisket m (reserveChunk m) d

/-- A source can be read now: a galley only on its chase side (R261), a stack that is Ready and whose buses issue (R296). -/
def sourceReady (d : Device) (ep addr n : Nat) : Bool :=
  match epOf ep with
  | .galley p => (press d p).chaseSide
  | .hbm s => (stack d s).state = .ready && !hbmWaits d addr n
  | _ => true

/-- Read `n` bytes of one memory for sending: the bytes, or the fault of what stopped it: a blocked bank, or an error that
the code cannot mend (R271, R308, R311). `p` is the initiator, `e` its instruction, and `req` the requester of R316. -/
def readPiece (req p : Nat) (e : QEntry) (stream : BitVec 12) (ep addr n : Nat) (d : Device) : Device × Option (List Byte) :=
  let ctx := { ctxOf p 2 e none with stream := some stream }
  match epMem d (epOf ep) addr with
  | none => (d, none)
  | some (id, a) =>
    if memBlocked d id a n then (faultBlocked e.slot id a req (some stream) ctx d, none)
    else match readMem id a n req (some stream) (noteHbm id a n false req (some (writerOf d e.slot req (some stream) ctx)) d) with
      | (d, v, none) => (d, some v)
      | (d, _, some ev) => (faultStored e.slot id req (some stream) ctx ev d, none)

/-- Read `n` bytes of an endpoint for sending. -/
def readForSend (req p : Nat) (e : QEntry) (stream : BitVec 12) (ep addr n : Nat) (d : Device) : Device × Option (List Byte) :=
  (epSplit (epOf ep) addr n).foldl (fun (a : Device × Option (List Byte)) an =>
    match a with
    | (d, none) => (d, none)
    | (d, some v) => match readPiece req p e stream ep an.1 an.2 d with
      | (d, none) => (d, none)
      | (d, some w) => (d, some (v ++ w))) (d, some [])

/-- Cut bytes into flits of 64, with their indexes. -/
def flitsOf (v : List Byte) : List (Nat × List Byte) :=
  (List.range (v.length / 64)).map fun i => (i, (v.drop (64 * i)).take 64)

/-- DATA flits and END toward each receiver (R256, R272). -/
def sendFlits (src : Nat) (dsts : List Nat) (tag : BitVec 12) (stream : BitVec 12) (slot init : Nat) (v : List Byte)
    (d : Device) : Device :=
  dsts.foldl (fun d r =>
    let d := (flitsOf v).foldl (fun d f =>
      chaseSend { type := 3, dst := r, src := src, tag := tag, flit := f.1, len := v.length, stream := stream,
                  data := f.2, slot := slot, init := init } d) d
    chaseSend { type := 4, dst := r, src := src, tag := tag, len := v.length, stream := stream, tally := tally v,
                slot := slot, init := init } d) d

def modChunk (p i : Nat) (tag : BitVec 12) (g : TxChunk → TxChunk) (d : Device) : Device :=
  modTransfer p i (fun t => { t with chunks := modWhere (·.tag = tag) g t.chunks }) d

/-- A chunk of a push whose grants are all held and whose source can be read is sent. -/
def sendChunk (p i : Nat) (d : Device) (c : TxChunk) : Device :=
  match transferAt d p i with
  | none => d
  | some t =>
    if t.push && !c.sent && !chunkWaits d p t c && sourceReady d t.src (t.saddr + c.off) c.len then
      match readForSend 2 p t.entry t.stream t.src (t.saddr + c.off) c.len d with
      | (d, none) => d
      | (d, some v) =>
        let d := modChunk p i c.tag (fun c => { c with sent := true, tally := tally v }) d
        sendFlits p (chunkRcvrs d t c) c.tag t.stream t.entry.slot p v d
    else d

/-- Send every chunk of the transfers of press `p` that can be sent. -/
def sendReady (p : Nat) (d : Device) : Device :=
  ((press d p).transfers.mapIdx fun i t => (i, t)).foldl (fun d it => it.2.chunks.foldl (sendChunk p it.1) d) d

/-- A controller's chunk takes its GRANT. -/
def grantController (m : ChaseMsg) (d : Device) : Device :=
  match frxOfTag d (m.dst - 0xB0) m.tag with
  | some x => if x.granted then unknownTag m d else forronGranted x m.addr d
  | none => unknownTag m d

def grantAtSender (m : ChaseMsg) (d : Device) : Device :=
  if 0xB0 ≤ m.dst then grantController m d
  else match findTx d m.dst m.tag with
    | some (i, t, c) =>
      if (chunkRcvrs d t c).contains m.src && !c.grants.contains m.src then
        let d := modChunk m.dst i c.tag (fun c => { c with grants := c.grants ++ [m.src] }) d
        sendChunk m.dst i d { c with grants := c.grants ++ [m.src] }
      else unknownTag m d
    | none => unknownTag m d

def doGrant (n : Nat) (cond : HopCondition) : Device → Device := onMsg 1 n cond grantAtSender

/-! ## READ (R255, R256) -/

/-- A source serves the READ of a transfer that has ended: it knows of no abort before the CANCEL comes (R256, R278). -/
def serveLate (m : ChaseMsg) (d : Device) : Device :=
  match epMem d (epOf m.dst) m.addr with
  | none => d
  | some (id, a) =>
    if memBlocked d id a m.len then d
    else match readMem id a m.len 2 (some m.stream) (noteHbm id a m.len false 2 none d) with
      | (d, v, none) => sendFlits m.dst [m.rcv] m.tag m.stream m.slot m.init v d
      | (d, _, some ev) => logStored id 2 (some m.stream) ev d

/-- The source reads a chunk of a pull from its memory and sends it. -/
def serveRead (m : ChaseMsg) (d : Device) : Device :=
  match findTx d m.init m.tag with
  | none => serveLate m d
  | some (_, t, _) =>
    match readForSend 2 m.init t.entry m.stream m.dst m.addr m.len (noteService (epOf m.dst) (chunkKey d m.init m.tag) d) with
    | (d, none) => d
    | (d, some v) => sendFlits m.dst [m.rcv] m.tag m.stream m.slot m.init v d

/-- A region port takes a READ: a request to be presented to user logic (R410). -/
def portRead (r chan : Nat) (m : ChaseMsg) (d : Device) : Device :=
  modPort r (fun x => { x with reads := x.reads ++
    [{ origin := .chase m.init m.tag, chan := chan, stream := m.stream, addr := m.addr, units := m.len / 64 }] }) d

/-- The host interface takes a READ: a read of host memory (R474). -/
def hostPull (m : ChaseMsg) (d : Device) : Device :=
  let a := match findTx d m.init m.tag with
    | none => hostAddr d m.addr
    | some (_, t, c) => t.host + c.off
  (hostRequests a m.len).foldl (fun d r => emit (.hostRead r.1 r.2) d)
    (modChase (fun x => { x with hostPulls := x.hostPulls ++ [m] }) (noteService .host (chunkKey d m.init m.tag) d))

/-- The endpoint can serve a READ now; else the READ waits where it is. It waits too while the next service is another
window's (R259). -/
def readReady (d : Device) (ep addr n : Nat) : Bool :=
  match epOf ep with
  | .host => hostReadable d addr n
  | .galley p => fenced d p || (press d p).chaseSide
  | _ => sourceReady d ep addr n

def readAtSource (m : ChaseMsg) (d : Device) : Device :=
  match epOf m.dst with
  | .host => hostPull m d
  | .quad q => portRead q 1 m d
  | .region r => portRead r 0 m d
  | _ => serveRead m d

def doRead (n : Nat) (cond : HopCondition) (d : Device) : Device :=
  match msgAt d n 2 with
  | none => d
  | some m =>
    if readReady d m.dst m.addr m.len && readTurn d m then onMsg 2 n cond (fun m d => pastFrisket m (readAtSource m) d) d else d

/-! ## The end of a chunk and of a transfer (R254, R260, R272) -/

def dropTransfer (p i : Nat) (d : Device) : Device :=
  modPress p (fun x => { x with transfers := removeAt x.transfers i }) d

/-- What a transfer wrote narrowly, into X or Y memory, is flushed before it completes (R303, R304); true where that fails. -/
def flushDest (t : Transfer) (d : Device) : Device × Bool :=
  match epOf t.dst with
  | .comp f =>
    let (d, x) := flushMem (.xmem f) 2 t.entry.slot d
    let (d, y) := flushMem (.ymem f) 2 t.entry.slot d
    (d, x || y)
  | _ => (d, false)

/-- The transfer of place `i` has all its chunks: the tally of R260, then its signal. -/
def endTransfer (p i : Nat) (t : Transfer) (d : Device) : Device :=
  if t.tmode = 1 && t.sum ≠ t.tally then
    faultStream p 2 t.entry t.stream 0x0602 (unitPress p)
      { peer := if t.mcast then mcastPeer t.rcvrs [] else if t.push then t.dst else t.src, pool := t.pool.getD 0xFF,
        state := 3, chunk := t.nextNum - 1 } d
  else match flushDest t d with
    | (d, true) => d
    | (d, false) =>
      let d := dropTransfer p i d
      if t.sig then signalToken p 2 t.entry t.tok 1 d else d

/-- A chunk is complete with its tally. -/
def chunkDone (p i : Nat) (c : TxChunk) (sum : BitVec 64) (d : Device) : Device :=
  let d := modTransfer p i (fun t =>
    { t with chunks := t.chunks.filter (·.tag ≠ c.tag), done := t.done + c.len, sum := t.sum + sum }) d
  match transferAt d p i with
  | some t => if t.len ≤ t.done then endTransfer p i t d else d
  | none => d

/-- A chunk or transfer tally has failed (R272). -/
def faultTally (p : Nat) (t : Transfer) (c : TxChunk) (peer : Nat) (d : Device) : Device :=
  faultStream p 2 t.entry t.stream 0x0602 (unitPress p)
    { peer := peer, pool := t.pool.getD 0xFF, state := 3, chunk := c.num } d

/-- The receiver compares its tally with the END of a committed chunk: ACK to the sender of a push, or the end of a
pull's chunk (R256, R260, R272). -/
def finishRx (c : RxChunk) (d : Device) : Device :=
  match c.tally with
  | none => d
  | some e =>
    let good := decide (c.sum = e)
    let d := dropRx c d
    match c.pull with
    | none =>
      chaseSend { type := 5, dst := c.src, src := c.dst, tag := c.tag, stream := c.stream, slot := c.slot, good := good,
                  init := c.init } d
    | some _ => match findTx d c.init c.tag with
      | none => d
      | some (i, t, x) => if good then chunkDone c.init i x e d else faultTally c.init t x c.src d

/-- The context of a chunk at its receiver. -/
def rxCtx (d : Device) (c : RxChunk) : Ctx :=
  match findTx d c.init c.tag with
  | some (_, t, _) => { ctxOf c.init 2 t.entry none with stream := some c.stream }
  | none => { phase := 3, stream := some c.stream }

/-- A chunk has been committed with this tally; space for plain data is free again (R254, R257). -/
def committed (c : RxChunk) (sum : BitVec 64) (d : Device) : Device :=
  let d := modRx c (fun k => { k with committed := true, sum := sum }) d
  let d := match c.pool with
    | none => d
    | some k =>
      if c.closed then d
      else
        let d := modPool (epOf c.dst) k (fun q => { q with committed := q.committed + c.len }) d
        let q := getPool d (epOf c.dst) k
        match q.lsig, epForme (epOf c.dst) with
        | true, some f => match tokenAdd (forme d f) q.ltok 1 with
          | some x => modForme f (fun _ => x) d
          | none =>
            faultTask ((forme d f).task.getD 0x1000) codeTokenOverflow (epUnitAddr (epOf c.dst)) (rxCtx d c) none d
        | _, _ => d
  match d.chase.rx.find? (rxSame c) with
  | some k => finishRx k d
  | none => d

/-! ## DATA, END, ACK and CANCEL -/

def dataAtReceiver (m : ChaseMsg) (d : Device) : Device :=
  match rxOf d m with
  | some c =>
    if c.granted && !c.committed then modRx c (fun c => { c with flits := smapPut c.flits m.flit m.data }) d
    else unknownTag m d
  | none => unknownTag m d

def doData (n : Nat) (cond : HopCondition) : Device → Device := onMsg 3 n cond dataAtReceiver

def endAtReceiver (m : ChaseMsg) (d : Device) : Device :=
  match rxOf d m with
  | some c =>
    if c.granted then
      let d := modRx c (fun c => { c with tally := some m.tally }) d
      if c.committed then finishRx { c with tally := some m.tally } d else d
    else unknownTag m d
  | none => unknownTag m d

def doEnd (n : Nat) (cond : HopCondition) : Device → Device := onMsg 4 n cond endAtReceiver

def ackController (m : ChaseMsg) (d : Device) : Device :=
  match frxOfTag d (m.dst - 0xB0) m.tag with
  | some x => forronAcked x m.good d
  | none => unknownTag m d

def ackAtSender (m : ChaseMsg) (d : Device) : Device :=
  if 0xB0 ≤ m.dst then ackController m d
  else match findTx d m.dst m.tag with
    | none => unknownTag m d
    | some (i, t, c) =>
      if !(chunkRcvrs d t c).contains m.src || c.acks.contains m.src || !c.sent then unknownTag m d
      else if !m.good then faultTally m.dst t c m.src d
      else
        let acks := c.acks ++ [m.src]
        let d := modChunk m.dst i c.tag (fun c => { c with acks := acks }) d
        if (chunkRcvrs d t c).all acks.contains then chunkDone m.dst i c c.tally d else d

def doAck (n : Nat) (cond : HopCondition) : Device → Device := onMsg 5 n cond ackAtSender

/-- CANCEL at a region port: what is not yet begun is dropped (R278). -/
def cancelPort (r : Nat) (m : ChaseMsg) (d : Device) : Device :=
  modPort r (fun x =>
    { x with pushes := x.pushes.filter fun u => !(u.origin = .chase m.init m.tag && u.beats = 0),
             reads := x.reads.filter fun u => !(u.origin = .chase m.init m.tag && !u.accepted) }) d

def cancelAt (m : ChaseMsg) (d : Device) : Device :=
  let d := match epPort (epOf m.dst) with
    | some (r, _) => cancelPort r m d
    | none => d
  match rxOf d m with
  | some c => freeRx c d
  | none => d

def doCancel (n : Nat) (cond : HopCondition) : Device → Device := onMsg 6 n cond cancelAt

/-! ## CHUNK_COMMIT (R271, R272) -/

/-- The bytes of a chunk whose flits have all come. -/
def rxBytes (c : RxChunk) : Option (List Byte) :=
  if c.flits.length = c.len / 64 then some ((c.flits.map (·.2)).flatten) else none

/-- A chunk that waits to be committed. -/
def commitReady (c : RxChunk) : Bool := c.granted && !c.committed && !c.handed && (rxBytes c).isSome

/-- Write the bytes of a chunk into a protected memory, wrapping at the end of a pool. -/
def commitPieces (c : RxChunk) (v : List Byte) : List (Nat × List Byte) :=
  match c.pool with
  | none => (epSplit (epOf c.dst) c.addr v.length).map fun an => (an.1, (v.drop (an.1 - c.addr)).take an.2)
  | some _ =>
    let n := c.ring.1 + c.ring.2 - c.addr
    if v.length ≤ n then [(c.addr, v)] else [(c.addr, v.take n), (c.ring.1, v.drop n)]

/-- Commit a chunk to a memory: none of it where it touches a blocked bank (R311). -/
def commitMem (c : RxChunk) (v : List Byte) (d : Device) : Device :=
  let req := if c.forron then 3 else 2
  let ps := commitPieces c v
  let blocked := ps.findSome? fun av =>
    match epMem d (epOf c.dst) av.1 with
    | some (id, a) => if memBlocked d id a av.2.length then some (id, a) else none
    | none => none
  match blocked with
  | some (id, a) => faultBlocked c.slot id a req (some c.stream) (rxCtx d c) (freeRx c d)
  | none =>
    let d := ps.foldl (fun d av =>
      match epMem d (epOf c.dst) av.1 with
      | some (id, a) => writeMem id a av.2 req (some c.stream) (some (writerOf d c.slot req (some c.stream) (rxCtx d c))) d
      | none => d) d
    committed c (tally v) d

/-- A chunk goes to a region port, to be presented to user logic (R410). -/
def commitPort (r chan : Nat) (c : RxChunk) (v : List Byte) (d : Device) : Device :=
  modRx c (fun k => { k with handed := true })
    (modPort r (fun x => { x with pushes := x.pushes ++
      [{ origin := .chase c.init c.tag, chan := chan, stream := c.stream, addr := c.addr, data := v }] }) d)

/-- A chunk goes to host memory by posted writes (R474). -/
def commitHost (c : RxChunk) (v : List Byte) (d : Device) : Device :=
  match findTx d c.init c.tag with
  | none => d
  | some (_, t, x) =>
    let a := t.host + x.off
    committed c (tally v) ((hostRequests a v.length).foldl (fun d r =>
      emit (.hostWrite r.1 ((v.drop (r.1 - a)).take r.2)) d) d)

def doChunkCommit (n : Nat) (d : Device) : Device :=
  match d.chase.rx[n]? with
  | none => d
  | some c =>
    if !commitReady c then d
    else match rxBytes c with
      | none => d
      | some v =>
        match epOf c.dst with
        | .galley p => if (press d p).chaseSide then commitMem c v d else d
        | .hbm s => if (stack d s).state = .ready && !hbmWaits d c.addr c.len then commitMem c v d else d
        | .quad q => commitPort q 1 c v d
        | .region r => commitPort r 0 c v d
        | .host => if d.host.linkUp && d.host.busMaster then commitHost c v d else d
        | _ => commitMem c v d

/-! ## GALLEY_SIDE_CHANGE (R261, R262, R304) -/

/-- A GRANT of the Forron link waits to read the galley of press `p`, for one of its transfers (R352). -/
def forronRead (d : Device) (p : Nat) (e : Nat × FMsg) : Bool :=
  e.2.mtype = 2 && addrEp e.2.src = p &&
    (press d p).ftransfers.any fun t => t.src = p && t.chunks.any fun c => c.tag = e.2.tag && c.grants = []

/-- Chase-side work of the galley of press `p` is pending. -/
def chaseWork (d : Device) (p : Nat) : Bool :=
  d.chase.rx.any (fun c => c.dst = p && commitReady c)
    || d.chase.flight.any (fun m => m.type = 2 && m.dst = p)
    || (press d p).transfers.any (fun t => t.push && t.src = p && t.chunks.any fun c => !c.sent && !chunkWaits d p t c)
    || d.forron.inbox.any (forronRead d p)

/-- A pass of a platen accesses the galley, or can start to: its preload of partials or its feed (R132, R261). -/
def passAccess (x : Press) (y : Platen) (o : PassOp) : Bool :=
  match o.phase with
  | .feeding | .loading => true
  | .settling => false
  | .waiting => o.pre = 2 && begins x && mayPreload x y o
  | .ready => (nextPass y).any (fun q => q.seq = o.seq) && (o.feedFmt.isSome || (!o.feed && begins x))

/-- A drain of a platen accesses the galley, or can start to (R132, R133). -/
def drainAccess (x : Press) (y : Platen) : Bool :=
  match y.drain with
  | none => false
  | some o => o.started || (!earlierPass y o.bank o.seq && pathTurn x o.seq)

/-- The head of the queue can be dispatched to an access of the galley (R131, R159, R197). -/
def headAccess (x : Press) (e : QEntry) : Bool :=
  let y := getPlaten x (platenOf e)
  match wop e.word with
  | 0x20 | 0x21 => stageRoom y
  | 0x22 => y.drain.isNone && !y.passes.any fun o => o.bank = bankOf e
  | _ => unitTakes x

/-- A press-side access is in progress or can start. -/
def pressAccess (d : Device) (p : Nat) : Bool :=
  let x := press d p
  x.plA.passes.any (passAccess x x.plA) || x.plB.passes.any (passAccess x x.plB)
    || drainAccess x x.plA || drainAccess x x.plB || x.inkOp.isSome || x.jusOp.isSome
    || (headOf d p fun o => decide (0x20 ≤ o) && decide (o ≤ 0x24)).any (headAccess x)

/-- The task of press `p` is aborting. -/
def pressAborting (d : Device) (p : Nat) : Bool :=
  match (pressTask d p).bind (ticketOf d) with
  | some t => t.abort.isSome
  | none => false

/-- Flush the galley's narrow writes; a flush that fails is its writer's error (R304, R308). -/
def flushGalley (p : Nat) (d : Device) : Device := (flushMem (.galley p) 0 0 d).1

def doGalleySide (p : Nat) (d : Device) : Device :=
  let x := press d p
  if x.chaseSide then
    if x.pressWait then
      let d := modPress p (fun x => { x with chaseSide := false, pressWait := false, sideAt := some d.now }) d
      if pressAborting d p then settlePress p d else d
    else d
  else if chaseWork d p && !pressAccess d p then
    sendReady p (modPress p (fun x => { x with chaseSide := true, sideAt := some d.now }) (flushGalley p d))
  else d

/-! ## Deadlines (R274, R276, R277) -/

/-- The bits of the receivers whose grants are missing (R279). -/
def missingBits (l : List Nat) : Nat :=
  l.foldl (fun a n => a + 2 ^ (if n < 0x80 then n else n - 0x80)) 0

def doMcastDeadline (p i : Nat) (d : Device) : Device :=
  match transferAt d p i with
  | none => d
  | some t =>
    if !t.mcast then d
    else match t.chunks.find? (fun c => chunkWaits d p t c && decide (c.grantBy ≤ d.now)) with
      | none => d
      | some c =>
        let miss := t.rcvrs.filter fun r => !c.grants.contains r
        faultStream p 2 t.entry t.stream 0x0610 (unitPress p)
          { peer := nth 0 miss 0, state := 1, chunk := c.num, missing := missingBits miss } d

/-- What the oldest chunk of a transfer waits on: the state of R279 and the chunk. -/
def waitState (d : Device) (p : Nat) (t : Transfer) : Nat × Nat :=
  match t.chunks with
  | [] => (if t.asked < t.len && !chunkWindow d t t.asked then 0 else 0xFF, t.nextNum)
  | c :: _ =>
    let s :=
      if chunkWaits d p t c then 1
      else if t.push then
        if !c.sent || d.chase.flight.any (fun m => m.type = 3 && m.init = p && m.tag = c.tag) then 2 else 3
      else if d.chase.rx.any (fun k => k.init = p && k.tag = c.tag && k.pull.isSome && (rxBytes k).isSome) then 3
      else 2
    (s, c.num)

/-- The endpoint concerned of a transfer that waits in a state of R279: of a multicast, the first receiver whose grant or ACK
its oldest chunk lacks. -/
def waitPeer (t : Transfer) (state : Nat) : Nat :=
  if t.mcast then
    match t.chunks with
    | [] => mcastPeer t.rcvrs []
    | c :: _ => mcastPeer t.rcvrs (if state = 1 then c.grants else c.acks)
  else if t.push || (state = 1 && t.pool.isSome) then t.dst else t.src

/-- The transfers of a forme's presses that wait for a reservation: the number of the request, the initiator and the stream. -/
def formeWaits (d : Device) (f : Nat) : List (Nat × Nat × Nat) :=
  ((rangeFrom (8 * f) 8).map fun p => ((press d p).transfers.map fun t =>
    (t.chunks.filter (chunkWaits d p t)).map fun c => (c.asked, p, t.stream.toNat)).flatten).flatten

/-- The earliest of a list of waits. -/
def earliest : List (Nat × Nat × Nat) → Option (Nat × Nat × Nat)
  | [] => none
  | x :: r => match earliest r with
    | none => some x
    | some y => if x.1 ≤ y.1 then some x else some y

/-- The holder of a transfer that waits for space in a pool (R277). -/
def holderOf (d : Device) (t : Transfer) (state : Nat) : Nat × Nat :=
  match t.pool, epForme (epOf t.dst) with
  | some _, some f =>
    if state = 1 then
      match earliest (formeWaits d f) with
      | some (_, p, s) => (s, p)
      | none => (0xFFFF, 0xFFFF)
    else (0xFFFF, 0xFFFF)
  | _, _ => (0xFFFF, 0xFFFF)

def doStreamDeadline (p i : Nat) (d : Device) : Device :=
  match transferAt d p i with
  | none => d
  | some t =>
    if d.now < t.deadline then d
    else
      let (s, c) := waitState d p t
      let (h, hi) := holderOf d t s
      faultStream p 2 t.entry t.stream 0x0601 (unitPress p)
        { holder := h, holderI := hi, peer := waitPeer t s, pool := t.pool.getD 0xFF, state := s, chunk := c } d

/-! ## The commands -/

def execXferDispatch (p : PressId) (s : State) : Host.Outcome State Fault Refusal := onDev (doXferDispatch p.1) s
def execPoolOpen (p : PressId) (s : State) : Host.Outcome State Fault Refusal := onDev (doPoolOpen p.1) s
def execPoolRelease (p : PressId) (s : State) : Host.Outcome State Fault Refusal := onDev (doPoolRelease p.1) s
def execChunkRequest (p : PressId) (transfer : Nat) (s : State) : Host.Outcome State Fault Refusal :=
  onDev (doChunkRequest p.1 transfer) s
def execChaseReserve (msg : Nat) (cond : HopCondition) (s : State) : Host.Outcome State Fault Refusal :=
  onDev (doReserve msg cond) s
def execChaseGrant (msg : Nat) (cond : HopCondition) (s : State) : Host.Outcome State Fault Refusal :=
  onDev (doGrant msg cond) s
def execChaseRead (msg : Nat) (cond : HopCondition) (s : State) : Host.Outcome State Fault Refusal :=
  onDev (doRead msg cond) s
def execChaseData (msg : Nat) (cond : HopCondition) (s : State) : Host.Outcome State Fault Refusal :=
  onDev (doData msg cond) s
def execChaseEnd (msg : Nat) (cond : HopCondition) (s : State) : Host.Outcome State Fault Refusal :=
  onDev (doEnd msg cond) s
def execChaseAck (msg : Nat) (cond : HopCondition) (s : State) : Host.Outcome State Fault Refusal :=
  onDev (doAck msg cond) s
def execChaseCancel (msg : Nat) (cond : HopCondition) (s : State) : Host.Outcome State Fault Refusal :=
  onDev (doCancel msg cond) s
def execChunkCommit (chunk : Nat) (s : State) : Host.Outcome State Fault Refusal := onDev (doChunkCommit chunk) s
def execGalleySideChange (p : PressId) (s : State) : Host.Outcome State Fault Refusal := onDev (doGalleySide p.1) s
def execMulticastGrantDeadline (p : PressId) (transfer : Nat) (s : State) : Host.Outcome State Fault Refusal :=
  onDev (doMcastDeadline p.1 transfer) s
def execStreamDeadline (p : PressId) (transfer : Nat) (s : State) : Host.Outcome State Fault Refusal :=
  onDev (doStreamDeadline p.1 transfer) s

end Sys2Proof.Machine
end

