-- ==== Sys2Proof/Machine/Cells.lean ====
section
/-!
DEFINITION. Machine/Cells.lean: what the parts of the fount's user logic compute, from the live frames
(11_fount.md R396 to R403). The customer's logic is outside the block: what it gives is the commands' operands, and these
definitions say what a cell, a flip-flop, a driver mux, a boundary port, a fount RAM block and a pin make of it.
-/
namespace Sys2Proof.Machine

/-! ## Lookup cells (R398) -/

/-- The output of a cell: input `i` is bit `i` of the index into its truth table. -/
def lookupCell (table : BitVec 64) (inputs : BitVec 6) : Bool := table.getLsbD inputs.toNat

/-- A cell as two functions of five shared inputs: the lower half of the table, then the upper half. -/
def lookupPair (table : BitVec 64) (inputs : BitVec 5) : Bool × Bool :=
  (table.getLsbD inputs.toNat, table.getLsbD (32 + inputs.toNat))

/-- The truth table of cell `cell` of stick `stick` of a logic column: minor frames 36 to 59, 64 bits for each cell
(R397). DEDUCED (log 86): cells in order, 64 to a frame. -/
def truthTable (d : Device) (region column stick cell : Nat) : BitVec 64 :=
  let k := 8 * stick + cell
  (columnFrame d region column (36 + k / 64)).extractLsb' (64 * (k % 64)) 64

/-! ## Flip-flops (R399) -/

/-- What drives one of the two clock wires of a stick: a global tree of the die, or a routing wire. -/
inductive StickClock where
  | tree (index : Fin 16)
  | wire
  deriving DecidableEq, Repr

/-- The stick clock wire has an edge: `trees` and `wire` say which of its possible sources have one. -/
def stickEdge (trees : BitVec 16) (wire : Bool) : StickClock → Bool
  | .tree i => bit trees i.1
  | .wire => wire

/-- How a flip-flop is set up: its data input and its clock wire, what a set or reset makes of it, whether that acts at
once, and its initial value. -/
structure FlipFlopSetup where
  fromCell : Bool
  clock    : Fin 2
  setsTo   : Bool
  async    : Bool
  start    : Bool
  deriving DecidableEq, Repr

/-- The value after an edge of the flip-flop's clock. -/
def flipFlopEdge (f : FlipFlopSetup) (x : FlipFlopInputs) (q : Bool) : Bool :=
  if x.control then f.setsTo else if x.enable then (if f.fromCell then x.cell else x.wire) else q

/-- The value between edges. -/
def flipFlopBetween (f : FlipFlopSetup) (control q : Bool) : Bool := if f.async && control then f.setsTo else q

/-- A flip-flop of a stick whose two clock wires have the edges `edges`. -/
def flipFlopNext (f : FlipFlopSetup) (edges : BitVec 2) (x : FlipFlopInputs) (q : Bool) : Bool :=
  if bit edges f.clock.1 then flipFlopEdge f x q else flipFlopBetween f x.control q

/-- The two flip-flops of a cell. -/
def cellNext (f : FlipFlopSetup × FlipFlopSetup) (edges : BitVec 2) (x : FlipFlopInputs × FlipFlopInputs)
    (q : Bool × Bool) : Bool × Bool :=
  (flipFlopNext f.1 edges x.1 q.1, flipFlopNext f.2 edges x.2 q.2)

/-- How flip-flop `k` of a logic column is set up: its 4 control bits, in minor frames 60 to 62 (R397). DEDUCED (log 86): flip-flops in
the order of R454, 1,024 to a frame. -/
def flopSetup (d : Device) (r c k : Nat) : FlipFlopSetup :=
  let v := Config.flopControl ((columnFrame d r c (60 + k / 1024)).extractLsb' (4 * (k % 1024)) 4)
  { fromCell := bit v 0, clock := if bit v 1 then 1 else 0, setsTo := bit v 2, async := bit v 3, start := bit v 4 }

/-- The initial values of the flip-flops of a logic column, as its frames give them (R399). -/
def startFlops (d : Device) (r c : Nat) : BitVec 3072 :=
  BitVec.ofNat 3072 ((List.range 3072).foldr (fun k n => b2n (flopSetup d r c k).start + 2 * n) 0)

/-- The flip-flops of a logic column, in the order of R454. -/
def flopColumn (d : Device) (r c : Nat) : BitVec 3072 :=
  match d.fount.flops.find? (·.1 = 96 * r + c) with
  | some e => e.2
  | none => startFlops d r c

/-- The flip-flops of the regions of `mask` take their initial values (R438, R451, R525). -/
def restartFlops (mask : BitVec 24) (d : Device) : Device :=
  modFount (fun f => { f with flops := f.flops.filter fun e => !mask.getLsbD (e.1 / 96) }) d

/-! ## Carry chains (R400) -/

/-- The carry out of a cell for the carry into it; the spec does not say what function of its inputs a cell makes of it,
so the cell gives it as a table: for a carry in of 0, and of 1. -/
abbrev CarryCell := Bool × Bool

def carryCell (c : Bool) (x : CarryCell) : Bool := if c then x.2 else x.1

/-- The carries that a chain delivers: into each of its cells in turn, and out of the last. -/
def carries (c : Bool) : List CarryCell → List Bool
  | [] => [c]
  | x :: rest => c :: carries (carryCell c x) rest

/-- The chain of a column: through the eight cells of stick 0, then of the stick above it, to stick 191, whose carry out goes
nowhere. `source` is what it starts with: a constant, or a routing input. -/
def columnCarries (source : Bool) (sticks : Vector (Vector CarryCell 8) 192) : List Bool :=
  (carries source (sticks.toList.map (·.toList)).flatten).take 1536

/-! ## Routing (R395, R401, R402) -/

/-- A driver mux: the source whose select bit is set; logic 0 where none is. -/
def driverMux (sel sources : List Bool) : Bool :=
  match (sel.zip sources).find? (·.1) with
  | some x => x.2
  | none => false

/-- The regions that a region borders: the ring of its die (R395). -/
def borders (r : Nat) : List Nat :=
  let base := r / 12 * 12
  [base + (r + 11) % 12, base + (r + 1) % 12]

/-- The X columns of a region (R396). -/
def boundaryColumns (r : Nat) : List Nat := if ioRegion r then rangeFrom 89 7 else rangeFrom 87 9

/-- The isolation value of wire `w` of 4,096 that enters region `r` from its neighbour `n`: a bit of the boundary minors 48 to
63 of its X columns. The spec gives the frames and no place in them. -/
def isolationValue (d : Device) (r n w : Nat) : Bool :=
  let x := Config.boundaryBit r n w
  let cols := boundaryColumns r
  bit (columnFrame d r (nth 0 cols (x / 65536 % cols.length)) (48 + x / 4096 % 16)) (x % 4096)

/-- What the boundary port of wire `w` from region `n` into region `r` delivers: the wire, or its isolation value while
region `n` is silent, or region `r` itself (R402, R438). No port stands between regions that do not border each other. -/
def boundaryPort (d : Device) (r n w : Nat) (wire : Bool) : Option Bool :=
  if (borders r).contains n && decide (w < 4096) then some (if regionSilent d n || regionSilent d r then isolationValue d r n w else wire)
  else none

/-! ## Bridge wires (R406, R407, R438) -/

/-- The registers of a pair's bridge wires in one direction, the newest first: a value takes 8 cycles through them. -/
abbrev BridgePipe := List (BitVec 2048)

/-- A cycle of the bridge wires that enter region `r`: what its receiving end delivers, and the registers after. Isolated at
either end, nothing moves; from a silent region the end delivers 0. -/
def bridgeCycle (d : Device) (r : Nat) (sent : BitVec 2048) (pipe : BridgePipe) : BitVec 2048 × BridgePipe :=
  match bridgeFace r with
  | none => (0, [])
  | some n =>
    if crossIsolated d r crossBridge || crossIsolated d n crossBridge then (nth 0 pipe 7, pipe)
    else
      let pipe := (sent :: pipe).take 8
      (if regionSilent d n then 0 else nth 0 pipe 7, pipe)

/-! ## Fount RAM (R403) -/

/-- The widths that a mode can select, with their depths. -/
def ramDepth : Nat → Option Nat
  | 1 => some 32768 | 2 => some 16384 | 4 => some 8192 | 9 => some 4096 | 18 => some 2048 | 36 => some 1024
  | 72 => some 512 | _ => none

/-- The width of block `b` of a RAM column, by its mode frame 32 + b; the spec gives no codes. -/
def ramWidth (d : Device) (r c b : Nat) : Nat :=
  nth 1 [1, 2, 4, 9, 18, 36, 72] (Config.ramMode (columnFrame d r c (32 + b)) % 7)

/-- Port 0 or 1 may read, or write: at width 72 one port reads and the other writes. -/
def ramMayRead (w port : Nat) : Bool := w ≠ 72 || port = 0
def ramMayWrite (w port : Nat) : Bool := w ≠ 72 || port = 1

/-- Word `a` of a block at width `w`. -/
def ramWord (w : Nat) (m : BitVec 36864) (a : Nat) : BitVec w := m.extractLsb' (w * a) w

/-- The block with word `a` written. -/
def ramPut (w : Nat) (m : BitVec 36864) (a : Nat) (v : BitVec w) : BitVec 36864 :=
  setField m (w * a + w - 1) (w * a) v.toNat

/-- What a read returns at the address that the other port writes in the same cycle: the old word where one tree clocks
both, else old or new bit by bit, `free` saying which. -/
def ramCollide (w : Nat) (sameTree : Bool) (old new free : BitVec w) : BitVec w :=
  if sameTree then old else (old &&& ~~~free) ||| (new &&& free)

/-- One port in a cycle: its address, and the word that it writes, if it writes. -/
structure RamPort (w : Nat) where
  addr  : Nat
  write : Option (BitVec w)
  deriving DecidableEq, Repr

/-- A cycle of port `x` of a block with port `y` beside it: the word that `x` reads. Its own write gives it the old data. -/
def ramRead (w : Nat) (sameTree : Bool) (free : BitVec w) (m : BitVec 36864) (x y : RamPort w) : BitVec w :=
  match y.write with
  | some v => if y.addr = x.addr then ramCollide w sameTree (ramWord w m x.addr) v free else ramWord w m x.addr
  | none => ramWord w m x.addr

/-- The block after a cycle of port `port`: nothing is written while the region's user writes are disabled (R438, R446), or by
a port that only reads. -/
def ramWrite (w port : Nat) (enabled : Bool) (x : RamPort w) (m : BitVec 36864) : BitVec 36864 :=
  match x.write with
  | some v => if enabled && ramMayWrite w port then ramPut w m x.addr v else m
  | none => m

/-! ## General-purpose pins (R418) -/

/-- The other pin of a differential pair, and the clock-capable pairs. -/
def pairPin (p : Nat) : Nat := if p % 2 = 0 then p + 1 else p - 1
def clockCapable (p : Nat) : Bool := p < 4

/-- An edge of the clock of a bank's registers: what the pins carry, and what user logic gives. -/
def pinEdge (pads output enable : BitVec 48) : PinRegs := { input := pads, output := output, enable := enable }

/-! ## User logic at an edge of a tree (R399, R403, R406, R418, R438, R446) -/

/-- The release in progress has region `r` and has not come to stage `k` (R446). -/
def stagePending (d : Device) (r k : Nat) : Bool :=
  match d.cf.release with
  | some (s, m, _) => bit m r && decide (s < k)
  | none => false

/-- User writes to fount RAM are enabled: the region is not held, and stage 2 of its release has come. -/
def ramEnabled (d : Device) (r : Nat) : Bool := !regionSilent d r && !stagePending d r 2

/-- Flip-flops take clock edges: stage 3 of the region's release has come. -/
def flopsRun (d : Device) (r : Nat) : Bool := !regionSilent d r && !stagePending d r 3

/-- An edge at a flip-flop of a logic column. -/
def flopEdge (r c k : Nat) (edges : BitVec 2) (x : FlipFlopInputs) (d : Device) : Device :=
  if !flopsRun d r || colKind r c ≠ .logic then d
  else
    let v := flopColumn d r c
    let q := flipFlopNext (flopSetup d r c k) edges x (bit v k)
    modFount (fun f => { f with flops := smapPut f.flops (96 * r + c) (setField v k k (b2n q)) }) d

/-- A write of user logic to block `b` of a RAM column. -/
def ramEdge (r c b port a : Nat) (v : BitVec 72) (d : Device) : Device :=
  if colKind r c ≠ .ram then d
  else
    let w := ramWidth d r c b
    let i := ramIndex r c b
    let x : RamPort w := ⟨a % (ramDepth w).getD 1, some (v.setWidth w)⟩
    modCf (fun f => { f with ram := smapSet 0 f.ram i (ramWrite w port (ramEnabled d r) x (smapGet 0 f.ram i)) }) d

/-- A word for the serialiser of a differential pair: it goes out at 8:1 where the pair drives. -/
def serialEdge (b k : Nat) (v : BitVec 8) (d : Device) : Device :=
  match pinSetting d b (2 * k) with
  | .lvcmos _ _ => d
  | .lvds _ => if flopsRun d (bankRegion b) && (pinDrives d b (2 * k)).isSome then emit (.pinSerial b k v) d else d

/-- A cycle of the bridge wires that enter region `r`, clocked from the tree of the crossing. Where the clocks of the two ends break
the rule of R406, the spec does not say what crosses: a free value. -/
def bridgeEdge (t r : Nat) (sent : BitVec 2048) (d : Device) : Device :=
  if crossTree d r crossBridge ≠ t || (bridgeFace r).isNone then d
  else
    let i := r / 12 * 2 + r % 12 / 11
    let sent := if bridgeClockOk d r then sent else Config.freeBits 2048 d.free
    let x := bridgeCycle d r sent (vgetN [] d.fount.bridge i)
    emit (.bridgeWires r x.1) (modFount (fun f => { f with bridge := vmodN f.bridge i fun _ => x.2 }) { d with free := d.free + 1 })

def userEdge (t : Nat) (d : Device) : UserEdge → Device
  | .flop r c k edges x => flopEdge r.1 c.1 k.1 edges x d
  | .ram r c b port a v => ramEdge r.1 c.1 b.1 port.1 a.toNat v d
  | .pins b pads output enable =>
    if flopsRun d (bankRegion b.1) then
      modFount (fun f => { f with pins := vmodN f.pins b.1 fun _ => pinEdge pads output enable }) d
    else d
  | .serial b k v => serialEdge b.1 k.1 v d
  | .bridge r sent => bridgeEdge t r.1 sent d

end Sys2Proof.Machine
end

