-- ==== Sys2Proof/Machine/Fount.lean ====
section
/-!
DEFINITION. Machine/Fount.lean: the crossings of the fount: clock trees and PLLs, the beats of region ports, direct fount
feeds and their maps (11_fount.md R404 to R422).
-/
namespace Sys2Proof.Machine

/-! ## Trees and PLLs (R405, R407, R421) -/

/-- A word comes in on a lane: dropped, and counted, where its elastic buffer is full (R417). -/
def elasticPut (b : Elastic) (w : BitVec 320) : Elastic × Nat :=
  if b.words.length < 16 then ({ b with words := b.words ++ [w] }, 0) else (b, 1)

/-- The lane's word of a quad-clock cycle: an empty buffer repeats the last one, and counts it (R417). -/
def elasticTake (b : Elastic) : Elastic × Option (BitVec 320) × Nat :=
  match b.words with
  | w :: rest => ({ words := rest, last := some w }, some w, 0)
  | [] => (b, b.last, if b.last.isSome then 1 else 0)

/-- A quad-clock cycle of a lane (R416, R417). An isolated interface sends zero symbols and gives the region no word. -/
def quadCycle (c : QuadCycle) (d : Device) : Device :=
  let q := c.quad.1
  let i := 4 * q + c.lane.1
  if (quad d q).mode ≠ 2 || !domainOn d (152 + q) then d
  else
    let shut := regionSilent d q || crossIsolated d q crossQuad
    let d := emit (.quadSend q c.lane.1 (if shut then 0 else c.send)) d
    if !bit (vgetN 0 d.fount.cdrLock q) c.lane.1 then d
    else
      let b := c.heard.foldl (fun x w => let y := elasticPut x.1 w; (y.1, x.2 + y.2)) (vgetN {} d.fount.elastic i, 0)
      let t := elasticTake b.1
      let d := modFount (fun f => { f with elastic := vmodN f.elastic i fun _ => t.1,
                                           slips := vmodN f.slips q fun n => satAdd n (b.2 + t.2.2) }) d
      match t.2.1 with
      | some w => if shut then d else emit (.quadWord q c.lane.1 w) d
      | none => d

/-- PAM4 level of a pair of bits, the first sent first (R416). PRESUMED (log 91): the Gray code of IEEE 802.3, which the
rule names and does not write out. -/
def pamLevel (first second : Bool) : Nat :=
  match first, second with
  | false, false => 0 | false, true => 1 | true, true => 2 | true, false => 3

/-- The symbols of a word in the order of sending. -/
def wordSymbols (w : BitVec 320) : List Nat := (List.range 160).map fun k => pamLevel (bit w (2 * k)) (bit w (2 * k + 1))

/-- The end of a 64-point window of tree `t`: over above 130 edges; the tree's crossings are isolated then, and for the
64 points after its next window that is not over. A tree that nothing drives carries no edges (R405). `cycles` are the
quad-clock cycles of the window (log 91), and `user` what user logic does at its edges, in order (log 86). -/
def doTreeWindow (t edges : Nat) (cycles : List QuadCycle) (user : List UserEdge) (d : Device) : Device :=
  let d := cycles.foldl (fun d c => if crossTree d c.quad.1 crossQuad = t then quadCycle c d else d) d
  let edges := if treeDriven d t then edges else 0
  let d := if edges ≠ 0 then user.foldl (userEdge t) d else d
  modFount (fun f =>
    let fast := decide (130 < edges)
    { f with treeRun := setField f.treeRun t t (b2n (decide (edges ≠ 0))),
             treeOver := if fast then setField f.treeOver t t 1 else f.treeOver,
             isoOver := setField f.isoOver t t (b2n fast),
             isoTail := setField f.isoTail t t (b2n (!fast && bit f.isoOver t)) }) d

def doPllLock (k : Nat) (locked : Bool) (d : Device) : Device :=
  modFount (fun f => { f with pllLock := setField f.pllLock k k (b2n locked) }) d

/-- FT_CTRL.clear_counts. -/
def doFtClearCounts (d : Device) : Device :=
  modFount (fun f => { f with feedWait := Vector.replicate 32 0, slips := Vector.replicate 24 0 }) d

/-! ## Region ports (R408 to R411, R473) -/

/-- A completion to the host; a poisoned one is counted (R476). -/
def complete (fn : FnId) (c : Completion) (d : Device) : Device :=
  let d := match c with
    | .poisoned _ => modHost (fun h => { h with poisonOut := satAdd h.poisonOut 1 }) d
    | _ => d
  emit (.completion fn c) d

/-- A poisoned completion of `n` bytes; which bytes it carries is open. -/
def completePoisoned (fn : FnId) (n : Nat) (d : Device) : Device :=
  let v := takeFree (8 * n) d
  complete fn (.poisoned (leBytes n v.1.toNat)) v.2

/-- A user-window request has been answered. -/
def dropUser (serial : Nat) (d : Device) : Device :=
  modHost (fun h => { h with user := h.user.filter (·.serial ≠ serial) }) d

def userOf (d : Device) (serial : Nat) : Option UserReq := d.host.user.find? (·.serial = serial)

/-- The endpoint of a channel of a region port (R408). -/
def portEp (r chan : Nat) : Nat := if chan = 1 then 0xB0 + r else 0xC8 + r

/-- The pushed chunk whose last beat user logic has accepted is committed (R410). -/
def pushDone (r : Nat) (u : PortPush) (d : Device) : Device :=
  match u.origin with
  | .user n => dropUser n d
  | .chase init tag =>
    match d.chase.rx.find? (fun c => c.dst = portEp r u.chan && c.init = init && c.tag = tag && c.handed) with
    | some c => committed c (tally u.data) d
    | none => d

/-- Even parity of each 64-bit word of a beat (R409). -/
def beatParity (v : BitVec 1024) : BitVec 16 :=
  (List.range 16).foldl (fun a w => a ||| place 16 w w (countBits (v.extractLsb' (64 * w) 64) % 2)) 0

/-- Beat `b` of a pushed chunk, as the port presents it. -/
def pushBeat (r : Nat) (u : PortPush) (last : Bool) : Output :=
  let v := (u.data.drop (128 * u.beats)).take 128
  .iwBeat r u.chan u.stream (u.addr + 128 * u.beats) v (beatParity (BitVec.ofNat 1024 (leNat v)))
    (if v.length ≤ 64 then 1 else 3) last

/-- A user-window write is not presented before a read that came earlier: reads are presented one at a time, and none
while 8 have no complete response (R410, R473). -/
def behindRead (x : RegionPort) (u : PortPush) : Bool :=
  match u.origin with
  | .chase _ _ => false
  | .user n =>
    let open_ := x.reads.filter fun q => !q.accepted
    let held := if 8 ≤ (x.reads.filter (·.accepted)).length then open_ else open_.drop 1
    u.beats = 0 && held.any fun q => match q.origin with
      | .user m => decide (m < n)
      | .chase _ _ => false

/-- User logic accepts the next beat of the chunk at the front. -/
def doIwBeat (r : Nat) (d : Device) : Device :=
  match (regionPort d r).pushes with
  | [] => d
  | u :: rest =>
    if regionShut d r || behindRead (regionPort d r) u then d
    else
      let last := decide (u.data.length ≤ 128 * (u.beats + 1))
      let d := emit (pushBeat r u last) d
      if last then pushDone r u (modPort r (fun x => { x with pushes := rest }) d)
      else modPort r (fun x => { x with pushes := { u with beats := u.beats + 1 } :: rest }) d

/-- A user-window read does not pass an earlier write to its region (R473). -/
def behindWrite (x : RegionPort) (u : PortRead) : Bool :=
  match u.origin with
  | .chase _ _ => false
  | .user n => x.pushes.any fun w => match w.origin with
    | .user m => decide (m < n)
    | .chase _ _ => false

/-- User logic accepts the next read request; at most 8 have no complete response (R410). -/
def doRqAccept (r : Nat) (d : Device) : Device :=
  let x := regionPort d r
  if regionShut d r || 8 ≤ (x.reads.filter (·.accepted)).length then d
  else match findIdx? (fun u => !u.accepted) x.reads with
    | none => d
    | some i => match x.reads[i]? with
      | none => d
      | some u =>
        if behindWrite x u then d
        else emit (.rqAccepted r u.chan u.stream u.addr u.units)
          (modPort r (fun x => { x with reads := x.reads.set i { u with accepted := true } }) d)

/-- A read of the user window is answered: the requested bytes of the units that cover them. -/
def answerUser (n : Nat) (v : List Byte) (d : Device) : Device :=
  match userOf d n with
  | none => d
  | some q => dropUser n (complete .pf2 (.data ((v.drop (q.offset % 64)).take q.len)) d)

/-- A complete response goes to who asked. -/
def readDone (r : Nat) (u : PortRead) (d : Device) : Device :=
  let v := u.data.take (64 * u.units)
  match u.origin with
  | .user n => answerUser n v d
  | .chase init tag => match findTx d init tag with
    | none => d
    | some (_, t, _) => sendFlits (portEp r u.chan) [t.dst] tag u.stream t.entry.slot init v d

/-- A beat whose parity fails is not sent on (R411): the transfer faults with CH_FLIT_UNCORRECTABLE at the region; a read
of the user window is answered as poisoned. -/
def readBad (r : Nat) (u : PortRead) (d : Device) : Device :=
  match u.origin with
  | .user n => match userOf d n with
    | none => d
    | some q => dropUser n (completePoisoned .pf2 q.len (logPlain (unitRegion r) 0x0611 (chDetail { stream := u.stream.toNat, peer := portEp r u.chan }) d))
  | .chase init tag => match findTx d init tag with
    | none => d
    | some (_, t, _) =>
      faultMsg { type := 3, dst := t.dst, src := portEp r u.chan, tag := tag, stream := u.stream, slot := t.entry.slot,
                 init := init } 0x0611 (unitRegion r) d

/-- User logic returns a read-data beat: it belongs to the oldest accepted request, whose first `ceil(rq_len / 2)` beats are
its chunk, whatever rd_be and rd_last say; beats that follow them up to the one with rd_last are the surplus of that
response (R410). -/
def doRdBeat (r : Nat) (b : ReadBeat) (d : Device) : Device :=
  let x := regionPort d r
  let good := decide (b.par = beatParity b.data)
  if regionShut d r then d
  else if x.surplus then (if b.last then modPort r (fun x => { x with surplus := false }) d else d)
  else match findIdx? (fun u => u.accepted) x.reads with
    | none => d
    | some i => match x.reads[i]? with
      | none => d
      | some u =>
        let u := { u with data := u.data ++ leBytes 128 b.data.toNat }
        if u.data.length < 128 * ((u.units + 1) / 2) then
          let d := modPort r (fun x => { x with reads := x.reads.set i u }) d
          if good then d else readBad r u d
        else
          let d := modPort r (fun x => { x with reads := removeAt x.reads i, surplus := !b.last }) d
          if good then readDone r u d else readBad r u d

/-! ## Direct feeds (R412 to R415) -/

/-- The presses that feed `k` serves (R128). -/
def feedPresses (k : Nat) : List Nat := rangeFrom (4 * k) 4

def feedSides (k : Nat) : List (Nat × PlatenId) := ((feedPresses k).map fun p => [(p, PlatenId.A), (p, PlatenId.B)]).flatten

/-- The FEED that holds the feed: it has taken its first lead beat. -/
def feedHolder (d : Device) (k : Nat) : Option (Nat × PlatenId × PassOp) :=
  (feedSides k).findSome? fun (p, pl) =>
    ((getPlaten (press d p) pl).passes.find? fun o => o.feed && o.feedFmt.isSome && o.phase ≠ .settling).map fun o => (p, pl, o)

/-- The FEED that would take the feed: next to feed on its platen and ready. DESIGN CHOICE: of several that wait for a free feed
the spec names none; the model takes the press of the lowest number, and its platen A first (log 88). -/
def feedClaim (d : Device) (k : Nat) : Option (Nat × PlatenId × PassOp) :=
  (feedSides k).findSome? fun (p, pl) =>
    match nextPass (getPlaten (press d p) pl) with
    | some o =>
      if o.feed && o.phase = .ready && begins (press d p) && domainOn d p && taskLives d o.entry.slot then some (p, pl, o)
      else none
    | none => none

/-- The crossing of the feed passes beats now: connected to a configured region that is not held, gated or isolated. -/
def feedOpen (d : Device) (k : Nat) : Bool :=
  let m := vgetN 0 d.fount.feedMap k
  let r := feedRegion d k
  bit m 31 && !regionSilent d r && !crossIsolated d r (crossFeed (fieldN m 4 4))

/-- The leads of a lead beat. -/
def beatLeads (f : Fmt) (data : BitVec 4096) : List Byte :=
  (List.range 256).map fun i => if fmtShort f then data.extractLsb' (8 * i) 8 else 0

/-- The lead in force of row `i` once a run of lead `l` has come (R117). -/
def feedForce (record inA : List (Nat × BitVec 8)) (i : Nat) (l : BitVec 8) : BitVec 8 :=
  let e := smapGet 0x80#8 record i
  let c := smapGet 0x80#8 inA i
  if e ≠ 0x80#8 then e else if c ≠ 0x80#8 then c else l

/-- The leads of a run are taken. -/
def takeLeads (p : Nat) (pl : PlatenId) (o : PassOp) (leads : List Byte) (d : Device) : Device :=
  let record := (pendingRecord (getPlaten (press d p) pl) o).1
  let inA := (List.range o.m).foldl (fun a i =>
    smapSet 0x80#8 a i (feedForce record o.inA i (nth 0x80#8 leads i))) []
  let o' := { o with inA := inA, runLeads := some leads }
  if o.int && leadMismatch inA [⟨o.feedFmt.getD .int8, leads, []⟩] o.m then faultEntry p 2 o.entry codeLeadMismatch (some pl) d
  else modPlaten p pl (fun y => { y with passes := modWhere (fun q => decide (q.seq = o.seq)) (fun _ => o') y.passes }) d

/-- A lead beat; the first one of a pass gives the operand format, which is checked (R413, R414). -/
def leadBeat (p : Nat) (pl : PlatenId) (o : PassOp) (data : BitVec 4096) (d : Device) : Device :=
  match o.feedFmt with
  | some f => takeLeads p pl o (beatLeads f data) d
  | none =>
    match fmtOfCode (fieldN data 2051 2048) with
    | none => faultEntry p 2 o.entry codeFmtBad (some pl) d
    | some f =>
      match passG o.k (f :: o.fmtsB) with
      | .error c => faultEntry p 2 o.entry c (some pl) d
      | .ok g =>
        takeLeads p pl { o with feedFmt := some f, fmtsA := [f], g := g, int := passInt [f] o.fmtsB } (beatLeads f data) d

/-- The code of element (i, s) of a step: within one beat, or in the two beats of a step at W32. -/
def beatElem (w cls : Nat) (first data : BitVec 4096) (i s : Nat) : Nat :=
  if cls = 4 then
    let b := if i < 128 then first else data
    fieldN b (w * (i % 128) + w - 1) (w * (i % 128))
  else fieldN data (w * (256 * s + i) + w - 1) (w * (256 * s + i))

/-- Element of column `j` of B at step `k`, with its lead. -/
def feedB (runs : List RunData) (j k : Nat) : BitVec 8 × Val :=
  match runs[k / 64]? with
  | none => (0x80#8, valZero)
  | some r => nth (0x80#8, valZero) (runElems r j 64) (k % 64)

/-- The accumulators, the cells that have wrapped. -/
abbrev FeedAcc := List (Nat × Word) × List Nat

/-- One cell takes the steps of a group. -/
def feedCell (o : PassOp) (i j : Nat) (a : List (BitVec 8 × Val)) (b : List (BitVec 8 × Val)) (st : FeedAcc) : FeedAcc :=
  let c := 32 * i + j
  let r := (a.zip b).foldl (cellStep o.int (smapGet 0x80#8 o.inA i) (smapGet 0x80#8 o.inB j))
    (smapGet 0 st.1 c, st.2.contains c)
  (smapSet 0 st.1 c r.1, if r.2 && !st.2.contains c then c :: st.2 else st.2)

/-- Every unmasked cell takes the steps of a group. -/
def feedCells (o : PassOp) (rows : List (List (BitVec 8 × Val))) (cols : List (List (BitVec 8 × Val))) (st : FeedAcc) :
    FeedAcc :=
  (List.range o.m).foldl (fun st i =>
    (List.range o.n).foldl (fun st j => feedCell o i j (nth [] rows i) (nth [] cols j) st) st) st

/-- A data beat that completes a step or a step group (R113, R413). DESIGN CHOICE: cells that wrap and feed cycles are counted
when the pass ends its steps, so that a pass that faults before counts neither (R116, R143, log 88). -/
def feedGroup (f : Fmt) (cls : Nat) (leads : List Byte) (o : PassOp) (first data : BitVec 4096) (y : Platen) : Platen :=
  let cnt := min (match cls with | 0 => 4 | 1 => 2 | _ => 1) (o.k - o.steps)
  let w := fmtWidth f
  let rows := (List.range o.m).map fun i =>
    (List.range cnt).map fun s => (nth 0x80#8 leads i, decodeElem f (beatElem w cls first data i s))
  let cols := (List.range o.n).map fun j => (List.range cnt).map fun s => feedB o.bRuns j (o.steps + s)
  let bank := getBank y o.bank
  let st := feedCells o rows cols (bank.acc, o.wrapped)
  let steps := o.steps + cnt
  let ended := decide (o.k ≤ steps)
  let o' := { o with steps := steps, half := none, wrapped := st.2,
                     runLeads := if steps % 64 = 0 || ended then none else some leads,
                     phase := if ended then .settling else o.phase }
  let y := setBank y o.bank { bank with acc := st.1 }
  { y with passes := modWhere (fun q => decide (q.seq = o.seq)) (fun _ => o') y.passes,
           feedCycles := if ended then satAdd y.feedCycles o.g else y.feedCycles,
           intWrap := if ended then satAdd y.intWrap st.2.length else y.intWrap }

def dataBeat (p : Nat) (pl : PlatenId) (o : PassOp) (f : Fmt) (leads : List Byte) (data : BitVec 4096) (d : Device) :
    Device :=
  let cls := slowest (f :: o.fmtsB)
  match cls, o.half with
  | 4, none =>
    modPlaten p pl (fun y => { y with passes := modWhere (fun q => decide (q.seq = o.seq)) (fun q => { q with half := some data }) y.passes }) d
  | _, h => modPlaten p pl (feedGroup f cls leads o (h.getD 0) data) d

/-- A beat for the FEED of a press: discarded where the press's frisket is closed (R509). -/
def feedTake (k p : Nat) (pl : PlatenId) (o : PassOp) (data : BitVec 4096) (d : Device) : Device :=
  if fenced d p then emit (.fdFlush k) d
  else match o.feedFmt, o.runLeads with
    | some f, some leads => if o.phase = .feeding then dataBeat p pl o f leads data d else d
    | _, _ => leadBeat p pl o data d

def doFeedBeat (k : Nat) (data : BitVec 4096) (d : Device) : Device :=
  if !feedOpen d k then d
  else match feedHolder d k with
    | some (p, pl, o) => feedTake k p pl o data d
    | none => match feedClaim d k with
      | some (p, pl, o) => feedTake k p pl o data d
      | none => d

/-- The map that a feed will have. -/
def feedMapOf (d : Device) (k : Nat) : Word := (vgetN none d.fount.feedNext k).getD (vgetN 0 d.fount.feedMap k)

/-- A write of FT_FEED_MAPn (R412, R421). A feed output counts as connected while a map in force, or one that waits, names
it. -/
def doFeedMapWrite (k : Nat) (v : Word) (d : Device) : Device :=
  let v := v &&& 0x8000001F#32
  let names (m : Word) : Bool := bit m 31 && fieldN m 4 0 = fieldN v 4 0
  let taken := (List.range 32).any fun j =>
    j ≠ k && j / 16 = k / 16 && (names (feedMapOf d j) || names (vgetN 0 d.fount.feedMap j))
  if 12 ≤ fieldN v 3 0 || (bit v 31 && taken) then d
  else modFount (fun f => { f with feedNext := vmodN f.feedNext k fun _ => some v }) d

/-! ## The commands -/

def execTreeWindow (tree : TreeId) (edges : Nat) (s : State) (cycles : List QuadCycle := []) (user : List UserEdge := []) :
    Host.Outcome State Fault Refusal :=
  onDev (doTreeWindow tree.1 edges cycles user) s
def execFountPllLock (pll : PllId) (locked : Bool) (s : State) : Host.Outcome State Fault Refusal :=
  onDev (doPllLock pll.1 locked) s
def execIwBeat (r : RegionId) (s : State) : Host.Outcome State Fault Refusal := onDev (doIwBeat r.1) s
def execRqAccept (r : RegionId) (s : State) : Host.Outcome State Fault Refusal := onDev (doRqAccept r.1) s
def execRdBeat (r : RegionId) (beat : ReadBeat) (s : State) : Host.Outcome State Fault Refusal := onDev (doRdBeat r.1 beat) s
def execFeedBeat (feed : FeedId) (data : BitVec 4096) (s : State) : Host.Outcome State Fault Refusal :=
  onDev (doFeedBeat feed.1 data) s
def execFeedMapWrite (feed : FeedId) (value : Word) (s : State) : Host.Outcome State Fault Refusal :=
  onHost (.feedMapWrite feed value) (doFeedMapWrite feed.1 value) s
def execFtClearCounts (s : State) : Host.Outcome State Fault Refusal :=
  onHost .ftClearCounts doFtClearCounts s

end Sys2Proof.Machine
end

