-- ==== Sys2Proof/Machine/Configuration.lean ====
section
/-!
DEFINITION. Machine/Configuration.lean: loading the fount, release, capture, readback and the frame check
(12_configuration.md R423 to R463).
-/
namespace Sys2Proof.Machine

/-! ## Columns and frames (R395 to R397, R433, R434) -/

/-- Minor frames whose bits are reserved (R397). -/
def minorReserved (k : ColKind) (minor : Nat) : Bool :=
  match k with
  | .logic | .lines => false
  | .ram => decide (48 ≤ minor)
  | .clock => decide (16 ≤ minor)
  | .crossing => decide (8 ≤ minor)
  | .bank => decide (56 ≤ minor)

/-- The code of a column kind for `Config.muxSelects`. -/
def kindCode : ColKind → Nat
  | .clock => 0 | .crossing => 1 | .bank => 2 | .logic => 3 | .ram => 4 | .lines => 5

/-- Fields of a frame address (R433). -/
def farRegion (a : Nat) : Nat := a / 2 ^ 15 % 32
def farColumn (a : Nat) : Nat := a / 2 ^ 8 % 128
def farMinor (a : Nat) : Nat := a % 256
def farOk (a : Nat) : Bool := farRegion a < 24 && farColumn a < 96 && farMinor a < 64

/-- Frames numbered in address order, and back. -/
def farLinear (a : Nat) : Nat := (farRegion a * 96 + farColumn a) * 64 + farMinor a
def linearFar (n : Nat) : Nat := 2 ^ 15 * (n / 6144) + 2 ^ 8 * (n / 64 % 96) + n % 64
def frameCount : Nat := 147456
def linearRegion (n : Nat) : Nat := n / 6144

/-- The region of a RAM block by its number. -/
def ramRegion (n : Nat) : Nat := n / 1536

def frameBytes (v : BitVec 4096) : List Byte := leBytes 512 v.toNat
def frameCheck (v : BitVec 4096) : BitVec 64 := crc64 (frameBytes v)

/-! ## Records (R450, R458) -/

structure CfDetail where
  frame : Nat := 0xFFFFFFFF
  seg   : Nat := 0xFFFFFFFF
  words : Nat := 0
  bound : Nat := 0
  kind  : Nat := 0xFF
  slot  : Nat := 0xFF
  pll   : Nat := 0xFF

def cfDetail (x : CfDetail) : BitVec 256 :=
  dput 32 x.frame (dput 36 x.seg (dput 40 x.words (dput 44 x.bound (dput 48 x.kind (dput 49 x.slot (dput 50 x.pll 0))))))

def logConf (code : BitVec 16) (x : CfDetail) (d : Device) : Device := logPlain unitConf code (cfDetail x) d

/-- Check 1 of R428. -/
def headerShape (h : List Byte) : Bool :=
  let kind := leAt h 11 1
  let bound := leAt h 12 4
  leAt h 0 4 = 0x53424758 && leAt h 4 2 = 1 && (h.drop 32).take 480 = bytesOf 480 0 && leAt h 17 1 < 2
    && ((kind = 0 && bound = 0xFFFFFF) || (kind = 1 && bound ≠ 0 && bound < 2 ^ 24 && leAt h 20 4 = 0))

/-- What an open load puts into its records: a header that passes check 1 names its bound, kind and slot. -/
def loadDetail (d : Device) (frame : Option Nat) : CfDetail :=
  match d.cf.load with
  | none => {}
  | some l =>
    let x : CfDetail := { frame := frame.getD 0xFFFFFFFF, words := d.cf.words.toNat }
    let h := l.header
    if l.accepted then { x with seg := l.seg, bound := l.bound.toNat, kind := b2n (!l.full), slot := l.slot }
    else if h.length = 1024 && headerShape h then { x with bound := leAt h 12 4, kind := leAt h 11 1, slot := leAt h 16 1 }
    else x

def modLoad (g : Load → Load) (d : Device) : Device := modCf (fun c => { c with load := c.load.map g }) d

/-- The state while no load, release or clearing goes on. -/
def baseState (c : Conf) : CfState := if c.regions = 0 then .unconfigured else .configured

/-- The first load error is kept (R450, R461). -/
def keepError (code : BitVec 16) (frame : Option Nat) (c : Conf) : Conf :=
  if bit c.errorReg 31 then c
  else { c with errorReg := place 32 31 31 1 ||| place 32 15 0 code.toNat,
                errorFar := match frame with
                  | some f => place 32 31 31 1 ||| place 32 19 0 f
                  | none => 0 }

/-- The sheet after sheet `s` has begun, and it is point 0. -/
def sheetAfter (d : Device) (s : Nat) : Bool := d.point = 0 && s < d.sheet

/-- A partial load ends without committing (R448). -/
def discardShadow (l : Load) (now : Nat) (c : Conf) : Conf :=
  let begun := l.bound &&& ~~~c.holdNext
  { c with load := none, commitPending := false, discardNext := c.discardNext ||| begun, holdNext := 0,
           discardSheet := now, state := baseState c }

/-- A full load has failed: everything is cleared, and CF_DONE stays low (R450). -/
def clearFount (c : Conf) : Conf :=
  { c with frames := [], badChecks := [], ram := [], regions := 0, held := 0xFFFFFF, state := .clearing,
           clearFailed := true, doneDriven := true, doneLine := false, lineSheet := none }

/-- An open load ends with an error (R449, R450). -/
def endLoad (code : BitVec 16) (frame : Option Nat) (d : Device) : Device :=
  match d.cf.load with
  | none => d
  | some l =>
    if d.cf.clearFailed then d
    else
      let d := logConf code (loadDetail d frame) d
      let d := modCf (keepError code frame) d
      if !l.accepted then modCf (fun c => { c with load := none, state := baseState c }) d
      else if l.full then
        let d := if d.cf.doneDriven then d else emit (.cfDone true) d
        modCf (fun c => { clearFount c with load := some { l with buf := [], key := [], ended := true } }) d
      else modCf (discardShadow l d.sheet) d

/-! ## Opening and filling a load (R424, R425, R449) -/

def portBusy (c : Conf) : Bool :=
  c.load.isSome || c.state = .clearing || c.commitPending || c.release.isSome || c.stop || c.stopped

def doCfBegin (r : Requester) (d : Device) : Device :=
  withRight (lockable d r 0) r 0xD00000 1 (fun d =>
    if d.trust.running.isNone then logPlain unitTrust 0x090A 0 d
    else if portBusy d.cf then logConf 0x030C {} d
    else modCf (fun c => { c with load := some { role := reqRole d r, source := reqSource r, lastWord := d.now },
                                  state := .opened, words := 0 }) d) d

def doCfAbort (d : Device) : Device := endLoad 0x030F none d

/-- CF_CTRL.done_release (R443). -/
def doDoneRelease (d : Device) : Device :=
  let accepted := match d.cf.load with | some l => l.accepted && l.full | none => false
  if d.cf.regions = 0 && !accepted && d.cf.doneDriven then
    emit (.cfDone false) (modCf (fun c => { c with doneDriven := false }) d)
  else d

/-- A write to the stream window; one for a full buffer waits on the link (R424). -/
def doStreamWord (w : Word) (whole : Bool) (d : Device) : Device :=
  match d.cf.load with
  | none => d
  | some l =>
    if !whole then endLoad 0x0308 none d
    else if l.ended || noImage d then d
    else
      let take (g : Load → Load) (d : Device) : Device :=
        modLoad (fun l => { g l with lastWord := d.now }) (modCf (fun c => { c with words := satAdd c.words 1 }) d)
      if l.header.length < 1024 then
        let d := take (fun l => { l with header := l.header ++ leBytes 4 w.toNat }) d
        if l.header.length + 4 < 1024 then d else modCf (fun c => { c with state := .verifying }) d
      else if l.buf.length < 16384 then take (fun l => { l with buf := l.buf ++ [w] }) d
      else holdLink (.row (.streamWord w whole)) d

/-- 2^20 reference cycles are 655.36 sheets. -/
def truncPoints : Nat := 2684355

def doLoadTruncated (d : Device) : Device :=
  match d.cf.load with
  | none => d
  | some l => if !l.ended && l.lastWord + truncPoints ≤ d.now then endLoad 0x0302 none d else d

/-! ## The header (R427 to R429) -/

/-- A region is powered, for check 6 (R428, R564): one whose switch-off still waits is (R535). -/
def regionPowered (d : Device) (r : Nat) : Bool := domainOn d (176 + r) && d.trust.store.enRegion.getLsbD r

/-- The key of a slot that the installer has enabled (R428). -/
def slotKey (d : Device) (k : Nat) : Option (BitVec 256) :=
  if k < 8 && d.trust.store.keyEnable.getLsbD k then vgetN none d.trust.store.keys k else none

/-- The checks of R428 in order: the code of the first that fails. -/
def headerFault (d : Device) (h : List Byte) : Option (BitVec 16) :=
  let partialLoad := leAt h 11 1 = 1
  let bound := BitVec.ofNat 24 (leAt h 12 4)
  let signed := match d.trust.store.installer with
    | none => false
    | some (n, e) => pssVerify n.toNat e.toNat (h.take 512) (h.drop 512)
  let bad (p : Nat → Bool) : Bool := (List.range 24).any fun r => bound.getLsbD r && p r
  if !headerShape h then some 0x0303
  else if leAt h 6 2 ≠ 0x94 ∨ leAt h 8 2 ≠ 0x9480 ∨ 1 < leAt h 10 1 then some 0x0301
  else if !signed then some 0x0304
  else if (slotKey d (leAt h 16 1)).isNone then some 0x0305
  else if partialLoad && bad (fun r => !bit d.cf.regions r) then some 0x030D
  else if bad (fun r => !regionPowered d r) then some 0x030E
  else if partialLoad && bad (fun r => bit d.cf.capHeld r) then some 0x0310
  else none

/-- Details of action 0007h (R570). -/
def headerLog (d : Device) (l : Load) (code : Option (BitVec 16)) : Device :=
  let h := l.header
  logAct 7 l.role (if code.isSome then 2 else 0) (code.getD 0) l.source (leAt h 16 1)
    (dput 32 (leAt h 12 4) (dput 36 (leAt h 11 1) (dput 37 (leAt h 16 1) 0))) d

/-- The header is accepted (R428, R438 to R440). -/
def acceptHeader (l : Load) (d : Device) : Device :=
  let h := l.header
  let full := leAt h 11 1 = 0
  let bound := BitVec.ofNat 24 (leAt h 12 4)
  let slot := leAt h 16 1
  let nonce := (h.drop 24).take 8
  let key := ((slotKey d slot).map fun k => (hmac512 (leBytes 32 k.toNat) nonce).take 32).getD []
  let l := { l with accepted := true, full := full, bound := bound, slot := slot, noRead := leAt h 17 1 = 1,
                    nonce := nonce, digest := sha512 (h.take 512), key := key }
  let d := modCf (fun c => { c with load := some l, loadReg := place 32 31 31 (b2n (!full)) ||| place 32 30 28 slot ||| place 32 23 0 bound.toNat }) d
  if full then
    let gap := leAt h 18 2
    let d := if d.cf.doneDriven then d else emit (.cfDone true) d
    modCf (fun c =>
      { c with frames := [], badChecks := [], ram := [], regions := 0, held := 0xFFFFFF, state := .clearing,
               clearFailed := false, doneDriven := true, doneLine := false, lineSheet := none, pendLock := l.noRead,
               discardNext := 0, wokenNext := 0,
               gap := if gap = 0 then c.gap else BitVec.ofNat 16 gap, peerTimeout := BitVec.ofNat 32 (leAt h 20 4) })
      (restartFlops 0xFFFFFF d)
  else modCf (fun c => { c with state := .loadPartial, holdNext := bound, holdSheet := d.sheet }) d

def doHeaderAccepted (d : Device) : Device :=
  match d.cf.load with
  | none => d
  | some l =>
    if d.cf.state ≠ .verifying || noImage d then d
    else
      let code := headerFault d l.header
      let d := headerLog d l code
      match code with
      | some c => endLoad c none d
      | none => acceptHeader l d

/-- The clearing of R439 has ended: a full load goes on, or a failed one closes (R450). -/
def doClearingDone (d : Device) : Device :=
  if d.cf.state ≠ .clearing then d
  else if d.cf.clearFailed then modCf (fun c => { c with load := none, clearFailed := false, state := .unconfigured }) d
  else modCf (fun c => { c with state := .loadFull }) d

/-- The regions of a partial load are held from the first sheet after acceptance; a release of theirs that waits is not made
(R438). -/
def doRegionsHeld (d : Device) : Device :=
  if d.cf.holdNext ≠ 0 && sheetAfter d d.cf.holdSheet then
    modCf (fun c => { c with held := c.held ||| c.holdNext, discardNext := c.discardNext &&& ~~~c.holdNext,
                             wokenNext := c.wokenNext &&& ~~~c.holdNext, holdNext := 0 }) d
  else d

/-! ## Commands of the stream (R429 to R437, R441) -/

/-- A load takes commands: its header is accepted, its clearing is over and its END has not come. -/
def loadRuns (d : Device) : Option Load :=
  match d.cf.load with
  | none => none
  | some l => if l.accepted && !l.ended && (d.cf.state = .loadFull || d.cf.state = .loadPartial) then some l else none

/-- The next command of the stream is of opcode `op`, and nothing is left of a FRAMES run: do `act` with its word. -/
def onCommand (op : Nat) (act : Load → Word → Device → Device) (d : Device) : Device :=
  match loadRuns d with
  | none => d
  | some l => match l.run, l.buf with
    | none, w :: _ =>
      let o := fieldN w 31 24
      if o = op then act l w d
      else if o = 0 ∨ 6 < o then endLoad 0x0308 none d
      else d
    | _, _ => d

def wordsBytes (l : List Word) : List Byte := (l.map fun w => leBytes 4 w.toNat).flatten

/-- Take `n` words of a command in clear; they go into the additional data of the segment. -/
def takeClear (n : Nat) (l : Load) : Load :=
  { l with buf := l.buf.drop n, aad := l.aad ++ wordsBytes (l.buf.take n) }

/-- Take `n` data words: the bytes decrypted under the segment's key (R429). The tally covers them (R441). -/
def takeCipher (n : Nat) (l : Load) : Load × List Byte :=
  let c := wordsBytes (l.buf.take n)
  let v := gcmCrypt l.key (l.nonce ++ leBytes 4 l.seg) l.cipher.length c
  ({ l with buf := l.buf.drop n, cipher := l.cipher ++ c, tally := l.tally + tally v }, v)

def doCfNop : Device → Device :=
  onCommand 1 fun _ w d => if fieldN w 23 0 ≠ 0 then endLoad 0x0308 none d else modLoad (takeClear 1) d

/-- The frame breaks R397 or R401. -/
def frameFault (l : Load) (a : Nat) (v : BitVec 4096) : Option (BitVec 16) :=
  let k := colKind (farRegion a) (farColumn a)
  if !l.bound.getLsbD (farRegion a) then some 0x0307
  else if minorReserved k (farMinor a) && v ≠ 0 then some 0x0309
  else if (Config.muxSelects (kindCode k) (farMinor a)).any (fun ij => v.getLsbD ij.1 && v.getLsbD ij.2) then some 0x0306
  else none

/-- Write a frame: the live configuration for a full load, else the shadow (R438). -/
def writeFrame (n : Nat) (v : BitVec 4096) (l : Load) (c : Conf) : Conf :=
  if l.full then { c with load := some l, frames := smapSet 0 c.frames n v, badChecks := smapDel c.badChecks n }
  else { c with load := some { l with shadow := smapSet 0 l.shadow n v } }

/-- The next frame of a run, where its words are there. -/
def takeFrame (l : Load) (n left : Nat) (d : Device) : Device :=
  if l.buf.length < 128 then d
  else
    let a := linearFar n
    let (l', v) := takeCipher 128 l
    let f := BitVec.ofNat 4096 (leNat v)
    match frameFault l a f with
    | some code => endLoad code (some a) d
    | none =>
      modCf (writeFrame n f { l' with run := if left = 1 then none else some (n + 1, left - 1), units := l.units + 1 }) d

/-- FRAMES: the command is checked, then each frame of the run is taken as its words come (R431 to R435). -/
def doFrames (d : Device) : Device :=
  match (loadRuns d).bind (·.run) with
  | some (n, left) => match loadRuns d with
    | some l => takeFrame l n left d
    | none => d
  | none => onCommand 2 (fun l w d =>
      match l.buf with
      | _ :: c :: _ =>
        let n := c.toNat
        let a := fieldN w 19 0
        if fieldN w 23 20 ≠ 0 ∨ n = 0 ∨ 1024 < n ∨ !farOk a ∨ frameCount < farLinear a + n ∨ 1024 < l.units + n then
          endLoad 0x0308 none d
        else
          let l := { takeClear 2 l with run := some (farLinear a, n) }
          takeFrame l (farLinear a) n (modCf (fun x => { x with load := some l }) d)
      | _ => d) d

/-- The die of a tree or a PLL source (R437). -/
def treeSrcOk (t : Nat) (v : Word) : Bool :=
  let s := fieldN v 7 0
  let die := t / 16
  fieldN v 31 12 = 0 && (match fieldN v 11 8 with
    | 0 => true
    | 1 => decide (s / 16 = die)
    | 2 => decide (s / 8 = die)
    | 3 => decide (s / 12 = die)
    | _ => false)

/-- A PLL_CFG value: M, and with PT_REFCLK at 156.25 MHz the frequency of its oscillator (R437). -/
def pllCfgOk (v : Word) : Bool :=
  let m := fieldN v 26 19
  let n := fieldN v 18 15 + 1
  fieldN v 14 0 = 0 && decide (16 ≤ m)
    && (bit v 30 || (decide (320000 * n ≤ 15625 * m) && decide (15625 * m ≤ 640000 * n)))

/-- A PLL_DIV value: every D is 2 or more. -/
def pllDivOk (v : Word) : Bool :=
  fieldN v 31 28 = 0 && (List.range 4).all fun o => 1 ≤ fieldN v (7 * o + 6) (7 * o)

def wregOk (i : Nat) (v : Word) : Bool :=
  if i < 0x20 then treeSrcOk i v else if i < 0x28 then pllCfgOk v else if i < 0x30 then pllDivOk v else false

/-- Every output of an enabled PLL on PT_REFCLK lies between 25 and 800 MHz (R437). -/
def pllOutputsOk (w : List (Nat × Word)) (k : Nat) : Bool :=
  let cfg := smapGet 0 w (0x20 + k)
  let div := smapGet 0 w (0x28 + k)
  !bit cfg 31 || bit cfg 30 || (List.range 4).all fun o =>
    let nd := (fieldN cfg 18 15 + 1) * (fieldN div (7 * o + 6) (7 * o) + 1)
    decide (2500 * nd ≤ 15625 * fieldN cfg 26 19) && decide (15625 * fieldN cfg 26 19 ≤ 80000 * nd)

def doWreg : Device → Device :=
  onCommand 3 fun l w d =>
    match l.buf with
    | _ :: v :: _ =>
      if !l.full then endLoad 0x0307 none d
      else if fieldN w 23 8 ≠ 0 || !wregOk (fieldN w 7 0) v then endLoad 0x0308 none d
      else modLoad (fun l => { takeClear 2 l with wregs := smapPut l.wregs (fieldN w 7 0) v }) d
    | _ => d

def doRaminit : Device → Device :=
  onCommand 4 fun l w d =>
    let r := fieldN w 19 15
    let c := fieldN w 14 8
    if fieldN w 23 20 ≠ 0 ∨ fieldN w 7 4 ≠ 0 ∨ 24 ≤ r ∨ 96 ≤ c ∨ colKind r c ≠ .ram ∨ 1024 < l.units + 9 then
      endLoad 0x0308 none d
    else if !l.bound.getLsbD r then endLoad 0x0307 none d
    else if l.buf.length < 1153 then d
    else
      let (l', v) := takeCipher 1152 (takeClear 1 l)
      let i := ramIndex r c (fieldN w 3 0)
      let x := BitVec.ofNat 36864 (leNat v)
      let l' := { l' with units := l.units + 9 }
      if l.full then modCf (fun c => { c with load := some l', ram := smapSet 0 c.ram i x }) d
      else modCf (fun c => { c with load := some { l' with shadowRam := smapSet 0 l'.shadowRam i x } }) d

/-- The tag that the segment must carry (R429). -/
def segTag (l : Load) : List Byte :=
  gcmTag l.key (l.nonce ++ leBytes 4 l.seg) (l.digest ++ leBytes 4 l.seg ++ l.aad) l.cipher

/-- The segment has verified: the next key, and a new segment (R429, R430). -/
def nextSegment (l : Load) : Load :=
  { l with key := (hmac512 l.key (leBytes 4 (l.seg + 1))).take 32, seg := l.seg + 1, aad := [], cipher := [], units := 0 }

def doTag : Device → Device :=
  onCommand 5 fun l w d =>
    if fieldN w 23 0 ≠ 0 ∨ l.units = 0 then endLoad 0x0308 none d
    else if l.buf.length < 5 then d
    else
      let t := wordsBytes ((l.buf.drop 1).take 4)
      let l := takeClear 1 l
      if segTag l ≠ t then endLoad 0x030A none d
      else modCf (fun c => { c with load := some (nextSegment { l with buf := l.buf.drop 4 }) }) d

/-- The configuration registers that a full load will leave. -/
def mergedWregs (old new : List (Nat × Word)) : List (Nat × Word) := new.foldl (fun a iv => smapPut a iv.1 iv.2) old

/-- A load whose END verifies is complete: a partial one awaits its sheet, a full one applies its registers (R441, R442,
R445). -/
def completeLoad (l : Load) (d : Device) : Device :=
  let l := { l with ended := true, key := [], buf := [], lastWord := d.now }
  if l.full then modCf (fun c => { c with load := some l, wregs := mergedWregs c.wregs l.wregs }) d
  else modCf (fun c => { c with load := some l, commitPending := true, doneSheet := d.sheet }) d

def doEnd_ : Device → Device :=
  onCommand 6 fun l w d =>
    if fieldN w 23 0 ≠ 0 ∨ l.units = 0 then endLoad 0x0308 none d
    else if l.buf.length < 7 then d
    else
      let sum := leNat (wordsBytes ((l.buf.drop 1).take 2))
      let t := wordsBytes ((l.buf.drop 3).take 4)
      let l := takeClear 3 l
      if segTag l ≠ t then endLoad 0x030A none d
      else if l.tally.toNat ≠ sum then endLoad 0x030B none d
      else if l.full && !((List.range 8).all (pllOutputsOk (mergedWregs d.cf.wregs l.wregs))) then endLoad 0x0308 none d
      else completeLoad l d

/-! ## Completion and release (R442 to R448) -/

/-- The PLLs that drive a tree (R437, R442). -/
def drivingPlls (c : Conf) : List Nat :=
  (List.range 8).filter fun k => (List.range 32).any fun t =>
    let v := smapGet 0 c.wregs t
    fieldN v 11 8 = 1 && fieldN v 7 0 / 4 = k

def doFullComplete (d : Device) : Device :=
  match d.cf.load with
  | none => d
  | some l =>
    let slow := (drivingPlls d.cf).filter fun k => !bit d.fount.pllLock k
    if l.full && l.ended && d.cf.state = .loadFull && (slow = [] || l.lastWord + 64 * 4096 ≤ d.now) then
      let d := slow.foldl (fun d k => logConf 0x0315 { loadDetail d none with pll := k } d) d
      emit (.cfDone false) (modCf (fun c =>
        { c with state := .waitPeers, doneDriven := false, doneSheet := d.sheet, lineSheet := none }) d)
    else d

/-- Every FEED in progress on a feed connected to a region of `mask` faults its task with CF_FEED_RELOADED (R447), a fault of a
pass on its platen (R138), whose record names the press (R458). -/
def reloadFeeds (mask : BitVec 24) (d : Device) : Device :=
  (List.range 32).foldl (fun d k =>
    if bit (vgetN 0 d.fount.feedMap k) 31 && mask.getLsbD (feedRegion d k) then
      match feedHolder d k with
      | some (p, pl, o) =>
        faultTask o.entry.slot 0x0312 (unitPress p) (ctxOf p 2 o.entry (some pl)) (some (cfDetail (loadDetail d none)))
          (markFault p (some pl) d)
      | none => d
    else d) d

/-- The pin banks of the regions of a mask (R418). -/
def bankMask (mask : BitVec 24) : BitVec 8 :=
  BitVec.ofNat 8 ((List.range 8).foldr (fun b n => b2n (bit mask (bankRegion b)) + 2 * n) 0)

/-- Stage 1 of a release: the regions' outputs and pins are their own again; the gap is sampled (R446). -/
def openOutputs (mask : BitVec 24) (c : Conf) : Conf :=
  { c with held := c.held &&& ~~~mask, pinOpen := c.pinOpen &&& ~~~bankMask mask, release := some (1, mask, max 1 c.gap.toNat) }

/-- Stage 1, as the state shows it: a load that has been opened keeps its state. -/
def releaseOutputs (mask : BitVec 24) (c : Conf) : Conf :=
  { openOutputs mask c with state := if c.load.isSome then c.state else .releasing }

/-- GLOBAL_RELEASE: the level of the line at the last reference cycle, which is low while the part drives it, and at point 0 of a
sheet whether it has read high in each of the 64 cycles before: the line is sampled, or global release begins (R443, R444, R461). -/
def doGlobalRelease (high level : Bool) (d : Device) : Device :=
  let d := modCf (fun c => { c with doneLine := (high || level) && !c.doneDriven }) d
  if d.cf.state ≠ .waitPeers || d.point ≠ 0 then d
  else
    match d.cf.lineSheet with
    | none => if high then modCf (fun c => { c with lineSheet := some d.sheet }) d else d
    | some s =>
      if s < d.sheet then
        let d := reloadFeeds 0xFFFFFF d
        modCf (fun c => releaseOutputs 0xFFFFFF
          { c with regions := 0xFFFFFF, lock := if c.pendLock then 0xFFFFFF else 0, load := none, lineSheet := none }) d
      else d

def doPeersAbsent (d : Device) : Device :=
  if d.cf.state = .waitPeers && d.cf.peerTimeout ≠ 0 && d.cf.lineSheet.isNone
      && d.cf.doneSheet + d.cf.peerTimeout.toNat ≤ d.sheet then
    modCf (fun c => { c with lineSheet := some d.sheet }) (logConf 0x0314 (loadDetail d none) d)
  else d

/-- The frames and RAM of the bound regions become those of the shadow (R440, R445). -/
def commitShadow (l : Load) (c : Conf) : Conf :=
  let keepF (e : Nat × BitVec 4096) : Bool := !l.bound.getLsbD (linearRegion e.1)
  { c with frames := l.shadow.foldl (fun a e => smapPut a e.1 e.2) (c.frames.filter keepF),
           badChecks := c.badChecks.filter fun e => !l.bound.getLsbD (linearRegion e.1),
           ram := l.shadowRam.foldl (fun a e => smapPut a e.1 e.2) (c.ram.filter fun e => !l.bound.getLsbD (ramRegion e.1)),
           lock := if l.noRead then c.lock ||| l.bound else c.lock &&& ~~~l.bound,
           load := none, commitPending := false, holdNext := 0, held := c.held ||| l.bound,
           state := .releasing, release := some (0, l.bound, 0) }

def doPartialCommit (d : Device) : Device :=
  match d.cf.load with
  | none => d
  | some l =>
    if d.cf.commitPending && sheetAfter d d.cf.doneSheet then modCf (commitShadow l) (restartFlops l.bound (reloadFeeds l.bound d))
    else d

/-- The old personality of a discarded load's regions is released at the next sheet (R448). -/
def doDiscardRelease (d : Device) : Device :=
  if d.cf.discardNext ≠ 0 && sheetAfter d d.cf.discardSheet && d.cf.release.isNone then
    modCf (fun c => { releaseOutputs c.discardNext c with discardNext := 0 }) d
  else d

/-- Regions that have woken are released once no other release is in progress (R446, R525). -/
def releaseWoken (c : Conf) : Conf :=
  if c.release.isNone && c.wokenNext ≠ 0 then
    { openOutputs c.wokenNext c with wokenNext := 0 }
  else c

/-- The next stage of a release: outputs, write enables, resets (R446). -/
def doReleaseStage (d : Device) : Device :=
  match d.cf.release with
  | none => d
  | some (0, m, _) => modCf (releaseOutputs m) d
  | some (1, m, g) => modCf (fun c => { c with release := some (2, m, g) }) d
  | some (_, _, _) => modCf (fun c => releaseWoken
      { c with release := none, state := if c.load.isSome then c.state else baseState c }) d

/-! ## Capture (R452 to R454) -/

/-- Regions whose shadow an accepted partial load uses. -/
def loadShadows (c : Conf) : BitVec 24 :=
  match c.load with
  | some l => if l.accepted && !l.full then l.bound else 0
  | none => 0

/-- The refusal of a capture of regions `m` at tree `t`. -/
def captureFault (c : Conf) (t : Nat) (m : BitVec 24) : Option (BitVec 16) :=
  let rs := (List.range 24).filter m.getLsbD
  if rs = [] ∨ 4 < rs.length then some 0x0308
  else if rs.any (fun r => !bit c.regions r || r / 12 ≠ t / 16) then some 0x0308
  else if (m &&& (loadShadows c ||| c.capHeld)) ≠ 0 || c.capState = .armed || c.capState = .copying || c.capState = .held then
    some 0x0310
  else if (m &&& c.lock) ≠ 0 then some 0x0311
  else none

def capDetail (m : BitVec 24) : CfDetail := { bound := m.toNat, kind := 2 }

def doCaptureStart (t : Nat) (d : Device) : Device :=
  let d := modCf (fun c => { c with capTree := BitVec.ofNat 5 t }) d
  match captureFault d.cf t d.cf.capRegions with
  | some c => logConf c (capDetail d.cf.capRegions) d
  | none =>
    modCf (fun c => { c with capState := .armed, capHeld := c.capRegions, capArmTree := BitVec.ofNat 5 t,
                             capTrigger := 2 ^ 32 * c.capAtHi.toNat + c.capAtLo.toNat }) d

/-- What a capture of the regions of `m` holds: every flip-flop and every pin as it stands at the edge, and every RAM block as it
stood then, since a word is copied before user logic writes it (R453). -/
def takeCapture (m : BitVec 24) (d : Device) (c : Conf) : Conf :=
  let rs := (List.range 24).filter m.getLsbD
  let cols := (rs.map fun r => ((List.range 96).filter fun k => colKind r k = .logic).map fun k => (r, k)).flatten
  { c with capFlops := cols.map fun rk => (96 * rk.1 + rk.2, flopColumn d rk.1 rk.2),
           capRam := c.ram.filter fun e => m.getLsbD (ramRegion e.1),
           capPins := ((List.range 8).filter fun b => bit m (bankRegion b)).map fun b => (b, vgetN {} d.fount.pins b) }

/-- The captured tree's edge at or after the trigger point (R452, R453). -/
def doCaptureEdge (d : Device) : Device :=
  if d.cf.capState = .armed && d.cf.capTrigger ≤ d.now && treeMoves d d.cf.capArmTree.toNat then
    modCf (fun c => { takeCapture c.capHeld d c with capState := .copying }) d
  else d

def doCaptureCopied (d : Device) : Device :=
  if d.cf.capState = .copying then modCf (fun c => { c with capState := .held }) d else d

def doCaptureTimeout (d : Device) : Device :=
  if d.cf.capState = .armed && d.cf.capTrigger + truncPoints ≤ d.now then
    modCf (fun c => { c with capState := .timedOut, capHeld := 0 }) (logConf 0x0313 (capDetail d.cf.capHeld) d)
  else d

/-- The capture's shadows hold nothing any more. -/
def cancelCapture (c : Conf) : Conf :=
  { c with capState := .idle, capHeld := 0, capFlops := [], capRam := [], capPins := [] }

def doCaptureRelease (d : Device) : Device :=
  if d.cf.capState = .held then modCf cancelCapture d else d

def doCaptureCancel (d : Device) : Device :=
  if d.cf.capState = .armed || d.cf.capState = .copying then modCf cancelCapture d else d

/-! ## Clock stop and readback (R455, R456, R463) -/

def doClockStop (stop : Bool) (d : Device) : Device :=
  if d.cf.stop = stop then d else modCf (fun c => { c with stop := stop, stopSheet := d.sheet }) d

def doFountStopped (d : Device) : Device :=
  if d.cf.stop && !d.cf.stopped && sheetAfter d d.cf.stopSheet then
    modCf (fun c => { c with stopped := true, held := c.held ||| c.regions }) d
  else d

/-- Every region that no load holds is released (R455). -/
def doFountResumed (d : Device) : Device :=
  if !d.cf.stop && d.cf.stopped && sheetAfter d d.cf.stopSheet then
    modCf (fun c => { releaseOutputs (c.regions &&& ~~~(loadShadows c)) c with stopped := false }) d
  else d

/-- R454 names such a state frame. -/
def isStateFrame (r c minor : Nat) : Bool :=
  match colKind r c with
  | .logic | .bank => minor = 0
  | .ram => decide (minor < 144)
  | _ => false

/-- Output and input value of each pin of a bank, pin p at bits 2p and 2p + 1 (R454). -/
def pinBits (x : PinRegs) : BitVec 4096 :=
  BitVec.ofNat 4096 ((List.range 48).foldr (fun p n => b2n (bit x.output p) + 2 * b2n (bit x.input p) + 4 * n) 0)

/-- A state frame of flip-flop columns, RAM blocks and pin banks (R454). -/
def stateFrame (flops : Nat → BitVec 3072) (ram : List (Nat × BitVec 36864)) (pins : Nat → PinRegs) (r c minor : Nat) :
    BitVec 4096 :=
  match colKind r c with
  | .logic => (flops c).setWidth 4096
  | .ram => (smapGet 0 ram (ramIndex r c (minor / 9))).extractLsb' (4096 * (minor % 9)) 4096
  | .bank => pinBits (pins (r / 3))
  | _ => 0

/-- What a capture holds in a state frame (R453), and what is live (R455). -/
def heldFrame (d : Device) (r c minor : Nat) : BitVec 4096 :=
  stateFrame (fun k => ((d.cf.capFlops.find? (·.1 = 96 * r + k)).map (·.2)).getD 0) d.cf.capRam
    (fun b => ((d.cf.capPins.find? (·.1 = b)).map (·.2)).getD {}) r c minor
def liveFrame (d : Device) (r c minor : Nat) : BitVec 4096 :=
  stateFrame (flopColumn d r) d.cf.ram (vgetN {} d.fount.pins) r c minor

/-- Reads of a region are closed: it was loaded with no_readback, or a full load with that flag is filling it (R456). -/
def readLocked (c : Conf) (r : Nat) : Bool :=
  bit c.lock r || (match c.load with | some l => l.accepted && l.full && l.noRead | none => false)

/-- The frame and check word that the read window takes; none where ok reads 0 (R456). -/
def windowFrame (d : Device) (source far : Nat) : Option (BitVec 4096 × BitVec 64) :=
  let c := d.cf
  let r := farRegion far
  let col := farColumn far
  let withCheck (ok : Bool) (v : BitVec 4096) : Option (BitVec 4096 × BitVec 64) := if ok then some (v, frameCheck v) else none
  if 24 ≤ r ∨ 96 ≤ col ∨ readLocked c r then none
  else match source with
    | 0 =>
      if 64 ≤ farMinor far then none
      else
        let v := smapGet 0 c.frames (farLinear far)
        some (v, frameCheck v ^^^ smapGet 0 c.badChecks (farLinear far))
    | 1 => withCheck (isStateFrame r col (farMinor far) && c.capState = .held && bit c.capHeld r) (heldFrame d r col (farMinor far))
    | 2 => withCheck (isStateFrame r col (farMinor far) && c.stopped) (liveFrame d r col (farMinor far))
    | _ => none

def doReadSel (v : Word) (d : Device) : Device :=
  let far := fieldN v 19 0
  let x := windowFrame d (fieldN v 30 29) far
  modCf (fun c => { c with readSource := field v 30 29, readFrame := field v 19 0, readOk := x.isSome,
                           readData := (x.map (·.1)).getD 0, readCheck := (x.map (·.2)).getD 0 }) d

/-! ## The frame check (R457) -/

def doFrameCheck (d : Device) : Device :=
  if !d.cf.frameCheck then d
  else
    let n := d.cf.sweep
    let d := modCf (fun c => { c with sweep := (n + 1) % frameCount }) d
    if smapGet 0 d.cf.badChecks n = 0 then d
    else
      let a := linearFar n
      logConf 0x0316 { frame := a } (modCf (fun c => { c with upset := true, upsetFrame := BitVec.ofNat 20 a }) d)

def doCfErrorClear (d : Device) : Device := modCf (fun c => { c with errorReg := 0, errorFar := 0 }) d

/-! ## The commands -/

def execCfBegin (src : Requester) (s : State) : Host.Outcome State Fault Refusal :=
  onSource src (.cfBegin src) (doCfBegin src) s
def execCfAbort (s : State) : Host.Outcome State Fault Refusal :=
  onHost .cfAbort doCfAbort s
def execCfDoneRelease (s : State) : Host.Outcome State Fault Refusal :=
  onHost .cfDoneRelease doDoneRelease s
def execStreamWord (word : Word) (whole : Bool) (s : State) (poisoned : Bool := false) : Host.Outcome State Fault Refusal :=
  onHost (.streamWord word whole poisoned) (hostWrite .pf2 poisoned (doStreamWord word whole)) s
def execHeaderAccepted (s : State) : Host.Outcome State Fault Refusal := onDev doHeaderAccepted s
def execClearingDone (s : State) : Host.Outcome State Fault Refusal := onDev doClearingDone s
def execCfNop (s : State) : Host.Outcome State Fault Refusal := onDev doCfNop s
def execFrames (s : State) : Host.Outcome State Fault Refusal := onDev doFrames s
def execWreg (s : State) : Host.Outcome State Fault Refusal := onDev doWreg s
def execRaminit (s : State) : Host.Outcome State Fault Refusal := onDev doRaminit s
def execTag (s : State) : Host.Outcome State Fault Refusal := onDev doTag s
def execEndCmd (s : State) : Host.Outcome State Fault Refusal := onDev doEnd_ s
def execLoadTruncated (s : State) : Host.Outcome State Fault Refusal := onDev doLoadTruncated s
def execFullLoadComplete (s : State) : Host.Outcome State Fault Refusal := onDev doFullComplete s
def execGlobalRelease (lineHigh : Bool) (s : State) (level : Bool := lineHigh) : Host.Outcome State Fault Refusal :=
  onDev (doGlobalRelease lineHigh level) s
def execPeersAbsent (s : State) : Host.Outcome State Fault Refusal := onDev doPeersAbsent s
def execPartialCommit (s : State) : Host.Outcome State Fault Refusal := onDev doPartialCommit s
def execShadowDiscardRelease (s : State) : Host.Outcome State Fault Refusal := onDev doDiscardRelease s
def execReleaseStage (s : State) : Host.Outcome State Fault Refusal := onDev doReleaseStage s
def execCaptureStart (tree : TreeId) (s : State) : Host.Outcome State Fault Refusal :=
  onHost (.captureStart tree) (doCaptureStart tree.1) s
def execCaptureRelease (s : State) : Host.Outcome State Fault Refusal :=
  onHost .captureRelease doCaptureRelease s
def execCaptureCancel (s : State) : Host.Outcome State Fault Refusal :=
  onHost .captureCancel doCaptureCancel s
def execCaptureEdge (s : State) : Host.Outcome State Fault Refusal := onDev doCaptureEdge s
def execCaptureCopyDone (s : State) : Host.Outcome State Fault Refusal := onDev doCaptureCopied s
def execCaptureTimeout (s : State) : Host.Outcome State Fault Refusal := onDev doCaptureTimeout s
def execClockStopWrite (stop : Bool) (s : State) : Host.Outcome State Fault Refusal :=
  onHost (.clockStopWrite stop) (doClockStop stop) s
def execFountStopped (s : State) : Host.Outcome State Fault Refusal := onDev doFountStopped s
def execFountResumed (s : State) : Host.Outcome State Fault Refusal := onDev doFountResumed s
def execReadSelWrite (value : Word) (s : State) : Host.Outcome State Fault Refusal :=
  onHost (.readSelWrite value) (doReadSel value) s
def execFrameCheck (s : State) : Host.Outcome State Fault Refusal := onDev doFrameCheck s
def execCfErrorClear (s : State) : Host.Outcome State Fault Refusal :=
  onHost .cfErrorClear doCfErrorClear s
def execPartialRegionsHeld (s : State) : Host.Outcome State Fault Refusal := onDev doRegionsHeld s

end Sys2Proof.Machine
end

