-- ==== Sys2Proof/Machine/Fencing.lean ====
section
/-!
DEFINITION. Machine/Fencing.lean: the Errata log toward the host, captures, the end of an abort, and the steps of a
press's recovery (14_errata_and_recovery.md R498 to R523).
-/
namespace Sys2Proof.Machine

/-! ## The log (R500, R501, R521) -/

/-- The oldest unspilled entry. -/
def oldestEntry (e : Errata) : Rec :=
  smapGet {} e.ring ((e.next.toNat + 1024 - e.unspilled) % 1024)

/-- ERRATA_SPILL: an entry is offered only to an enabled queue whose holding buffer has room. -/
def doErrataSpill (d : Device) : Device :=
  let q := d.host.errataPq.toNat
  let x := pqueue d q
  if d.errata.spill && !d.errata.paused && d.errata.unspilled ≠ 0 && x.enable && x.holding.length < 256 then
    postRec q (oldestEntry d.errata) (modErrata (fun e => { e with unspilled := e.unspilled - 1 }) d)
  else d

def doErClearLost (d : Device) : Device := modErrata (fun e => { e with lost := 0, overflow := false }) d

/-! ## Captures (R502) -/

/-- A host write of 1 to a capture's valid bit; that of a press is discarded, with PS_FENCED, while its frisket is closed
(R509). -/
def doFirstErrorClear (u : CaptureUnit) (d : Device) : Device :=
  match u with
  | .press p => if fenced d p.1 then logPress p.1 0x0A01 false d else modPress p.1 (fun x => { x with cap := {} }) d
  | .forme f => modForme f.1 (fun x => { x with cap := {} }) d
  | .stack n => modStack n.1 (fun x => { x with cap := {} }) d
  | .quad q => modQuad q.1 (fun x => { x with cap := {} }) d
  | .chase => modErrata (fun e => { e with chaseCap := {} }) d

/-! ## The end of an abort (R506, R507) -/

/-- A press no longer keeps its task's abort waiting: it is quiet, or its frisket's drain step has ended. A press that was
stuck at the abort deadline keeps it waiting until its drain step has ended (R507). -/
def abortDoneAt (d : Device) (p : Nat) : Bool :=
  match (press d p).recovery.state with
  | .resetting | .powerCycling | .offline => true
  | .inService => pressQuiet d p
  | _ => pressQuiet d p && (press d p).recovery.lastCause ≠ 3

/-- Step 4 of an abort begins once step 3 has made every press quiet. -/
def doAbortComplete (id : BitVec 64) (d : Device) : Device :=
  match ticketById d id with
  | none => d
  | some t => match t.abort with
    | none => d
    | some a => if a.cancelled && (taskPresses d t.slot).all (abortDoneAt d) then finishAbort t a d else d

/-- The abort deadline of a press's task has passed and the press is not quiet: PS_ABORT_STUCK. -/
def doAbortDeadline (p : Nat) (d : Device) : Device :=
  match (pressTask d p).bind (ticketOf d) with
  | none => d
  | some t => match t.abort with
    | none => d
    | some a =>
      if a.t0.toNat + 2 + a.bound ≤ d.now && !pressQuiet d p && !fenced d p then
        faultTask t.slot 0x0A04 (unitPress p) { phase := 3 } none (closeFrisket p 3 d)
      else d

/-! ## The frisket closes (R508) -/

/-- The address of PS_RECOVERY_CTRL of a press (R102, R520). -/
def recoveryAddr (p : Nat) : Nat := 0x900000 + 0x40000 * (p / 8) + 0x4000 * (p % 8) + 0xF40

/-- The reset request of a press whose frisket is open: its task is preempted and then aborted, at once where a pause has preempted it already. -/
def requestReset (p : Nat) (d : Device) : Device :=
  let d := closeFrisket p 1 d
  match (pressTask d p).bind (ticketOf d) with
  | none => logPress p 0x0A03 false d
  | some t =>
    if t.abort.isSome then faultTask t.slot 0x0A03 (unitPress p) { phase := 3 } none d
    else preemptAbort p ((taskPresses d t.slot).foldl (fun d q =>
      modPress q (fun x => { x with preempt := if x.preempt = .none || x.preempt = .pausing then .requested else x.preempt }) d) d)

def doResetRequested (r : Requester) (p : Nat) (d : Device) : Device :=
  withRight (lockable d r 4) r (recoveryAddr p) 1 (fun d => if fenced d p then d else requestReset p d) d

/-- What a press was doing when a check inside it failed: the context of the fault (R503). -/
def internalCtx (x : Press) (p : Nat) (pl : Option PlatenId) : Ctx :=
  let busy : Option QEntry := match pl with
    | some y =>
      let z := getPlaten x y
      match z.passes.find? (fun o => o.phase = .feeding || o.phase = .settling) with
      | some o => some o.entry
      | none => z.drain.map (·.entry)
    | none => match x.inkOp with
      | some o => some o.entry
      | none => x.jusOp.map (·.entry)
  match busy with
  | some e => ctxOf p 2 e pl
  | none => { phase := 3 }

def doPsInternal (p : Nat) (pl : Option PlatenId) (d : Device) : Device :=
  let unit := match pl with
    | some y => unitPlaten p y
    | none => unitPress p
  let was := fenced d p
  let ctx := internalCtx (press d p) p pl
  let d := closeFrisket p 2 d
  let d := faultTask ((pressTask d p).getD 0x1000) 0x0A02 unit ctx none d
  if was then modErrata (fun e => { e with escalate := e.escalate ++ [p] }) d else d

/-! ## The steps of a recovery (R510 to R513) -/

/-- The drain ends when the press is quiet. -/
def doPressQuiet (p : Nat) (d : Device) : Device :=
  if recNow d.now (press d p).recovery = .draining && pressQuiet d p && (runningTask d p).isNone then beginReset p d
  else d

/-- The drain bound passes: what is outstanding is abandoned. A task that waited for its preemption aborts now. -/
def doDrainExpired (p : Nat) (d : Device) : Device :=
  let r := (press d p).recovery
  if recNow d.now r = .draining && r.closedAt + 2 + r.drainPt ≤ d.now then
    abandonDrain p 0x0A05 false d
  else d

/-- The press reset completes, and the frisket reopens; after a power cycle, once the press is on and filled. -/
def doResetDone (p : Nat) (d : Device) : Device :=
  match (press d p).recovery.state with
  | .resetting => reopen p (resetPress p d)
  | .powerCycling => if domainOn d p then reopen p (resetPress p d) else d
  | _ => d

def doResetExpired (p : Nat) (d : Device) : Device :=
  let r := (press d p).recovery
  if r.state = .resetting && r.stepAt + 2048 ≤ d.now then beginCycle p (logPress p 0x0A06 false d) else d

def doCycleExpired (p : Nat) (d : Device) : Device :=
  let r := (press d p).recovery
  if r.state = .powerCycling && r.stepAt + 8192 ≤ d.now then goOffline p d else d

/-! ## The commands -/

def execErrataSpill (s : State) : Host.Outcome State Fault Refusal := onDev doErrataSpill s
def execErClearLost (s : State) : Host.Outcome State Fault Refusal :=
  onHost .erClearLost doErClearLost s
def execFirstErrorClear (unit : CaptureUnit) (s : State) : Host.Outcome State Fault Refusal :=
  onHost (.firstErrorClear unit) (doFirstErrorClear unit) s
def execAbortComplete (ticketId : BitVec 64) (s : State) : Host.Outcome State Fault Refusal := onDev (doAbortComplete ticketId) s
def execAbortDeadline (p : PressId) (s : State) : Host.Outcome State Fault Refusal := onDev (doAbortDeadline p.1) s
def execPsResetRequested (src : Requester) (p : PressId) (s : State) : Host.Outcome State Fault Refusal :=
  onSource src (.psResetRequested src p) (doResetRequested src p.1) s
def execPsInternal (p : PressId) (platen : Option PlatenId) (s : State) : Host.Outcome State Fault Refusal :=
  onDev (doPsInternal p.1 platen) s
def execPressQuiet (p : PressId) (s : State) : Host.Outcome State Fault Refusal := onDev (doPressQuiet p.1) s
def execDrainBoundExpired (p : PressId) (s : State) : Host.Outcome State Fault Refusal := onDev (doDrainExpired p.1) s
def execPressResetDone (p : PressId) (s : State) : Host.Outcome State Fault Refusal := onDev (doResetDone p.1) s
def execResetBoundExpired (p : PressId) (s : State) : Host.Outcome State Fault Refusal := onDev (doResetExpired p.1) s
def execPowerCycleBoundExpired (p : PressId) (s : State) : Host.Outcome State Fault Refusal := onDev (doCycleExpired p.1) s

end Sys2Proof.Machine
end

