-- ==== Sys2Proof/Machine/ForronLink.lean ====
section
/-!
DEFINITION. Machine/ForronLink.lean: the link layer of the Forron ports: modes, PRBS, training, flits, retry, transit and
route tables (09_forron_link.md R323 to R349, R355 to R360).
-/
namespace Sys2Proof.Machine

/-! ## Ports and their states (R323, R324, R333) -/

/-- Change every quad of port `q`. -/
def modPortQuads (q : Nat) (g : Quad → Quad) (d : Device) : Device := (portQuads d q).foldl (fun d k => modQuad k g d) d

def setPortState (q : Nat) (st : PortState) (d : Device) : Device :=
  let t := d.now
  modPortQuads q (fun x => { x with state := st, stateAt := t, laneLock := if st = .exchange || st = .up then x.laneLock else 0 }) d

/-- Port `q` may train: its quads have power, its lower quad measures no PRBS (the upper's field is ignored, R324), it is not held, and the incarnation is in the store
(R335, R336). -/
def mayTrain (d : Device) (q : Nat) : Bool :=
  (quad d q).mode = 1 && !isUpper d q && !(quad d q).held && !d.forron.countPending &&
  (quad d q).prbs = 0 && (portQuads d q).all fun k => domainOn d (152 + k)

/-- A record of the link layer of port `q` (R367). -/
def logLink (q : Nat) (code : BitVec 16) (x : FlDetail) (d : Device) : Device :=
  logPlain (unitQuad q) code (flDetail (flSeen d q x)) d

/-- A record of port `q` with the incarnations that its partner held and announces. -/
def logSeen (q : Nat) (code : BitVec 16) (x : FlDetail) (d : Device) : Device :=
  logPlain (unitQuad q) code (flDetail { (flSeen d q x) with held := x.held, seen := x.seen }) d

/-- The port goes to Signal; from Up or Exchange that counts and is logged (R333). -/
def enterSignal (q : Nat) (d : Device) : Device :=
  let from_ := (quad d q).state
  let d := setPortState q .signal d
  let d := modQuad q (fun x => { x with lastTrain := none, trainRun := 0, seen := false }) d
  if from_ = .up || from_ = .exchange then
    logLink q 0x0420 {} (modQuad q (fun x => { x with retrainCount := satAdd x.retrainCount 1, rounds := 0 }) d)
  else d

/-- Every lane of port `q` sends the pattern that FL_QUAD_CTRL.prbs names (R332). -/
def enterPrbs (q : Nat) (d : Device) : Device :=
  let prbs := (quad d q).prbs
  (portQuads d q).foldl (fun d k => emit (.prbs k prbs)
    (modQuad k (fun x => { x with prbsSync := Vector.replicate 4 0 }) d)) (setPortState q .prbs d)

/-- A port that is Down measures PRBS where FL_QUAD_CTRL.prbs says so and its quads have power, and else begins to train where it
may (R332, R333). -/
def beginTraining (q : Nat) (d : Device) : Device :=
  if (quad d q).state ≠ .down || isUpper d q then d
  else if (quad d q).prbs ≠ 0 then (if (portQuads d q).all fun k => domainOn d (152 + k) then enterPrbs q d else d)
  else if mayTrain d q then enterSignal q d
  else d

/-- Take every quad of the port of quad `q` Down. -/
def takeDown (q : Nat) (d : Device) : Device :=
  let p := portOf d q
  modQuad p (fun x => { x with lastTrain := none, trainRun := 0, seen := false }) (setPortState p .down d)

/-- Ports of a pair begin to train. -/
def trainPair (q : Nat) (d : Device) : Device := beginTraining (q / 2 * 2 + 1) (beginTraining (q / 2 * 2) d)

/-- The quad's settings change under `g`: its port, and its pair's, go Down first and train afterwards (R323, R324). -/
def resetPair (q : Nat) (g : Device → Device) (d : Device) : Device :=
  let d := takeDown (q / 2 * 2 + 1) (takeDown (q / 2 * 2) d)
  trainPair q (g d)

/-- FL_QUAD_CTRL.mode is written (R323, R564). Only the ports that the quad is part of, before or after, are disturbed. -/
def doQuadMode (q : Nat) (mode : BitVec 2) (d : Device) : Device :=
  let disabled := (mode = 1 && !bit d.trust.store.enForron q) || (mode = 2 && !bit d.trust.store.enFount q)
  if mode = 3 || mode = (quad d q).mode || disabled || !quadPresent d.part q then d
  else
    let g (d : Device) : Device :=
      settleDomain (emptyLanes q (modQuad q (fun x => { x with mode := mode, held := false }) d)) (152 + q)
    if isBonded d (q / 2 * 2) || isBonded (modQuad q (fun x => { x with mode := mode }) d) (q / 2 * 2) then resetPair q g d
    else beginTraining q (g (takeDown q d))

/-- A quad in PRBS counts the errors of the bits that its lanes have received: `heard` lists, lane by lane, whether each bit was
in error (R332). -/
def prbsHeard (heard : List (List Bool)) (x : Quad) : Quad :=
  if x.state = .prbs then
    let r (k : Nat) : Nat × Nat := prbsCount (heard.getD k []) (vgetN 0 x.prbsSync k)
    { x with prbsErr := Vector.ofFn fun k => satAdd (vgetN 0 x.prbsErr k.1) (r k.1).2,
             prbsSync := Vector.ofFn fun k => (r k.1).1 }
  else x

/-- FL_QUAD_CTRL.prbs is written (R332). -/
def prbsWrite (q : Nat) (prbs : BitVec 2) (d : Device) : Device :=
  if prbs = 3 || prbs = (quad d q).prbs || isUpper d q || !quadPresent d.part q then d
  else
    let d := modQuad q (fun x => { x with prbs := prbs }) d
    beginTraining q (setPortState q .down d)

/-- PRBS_SELECT: what the lanes have heard since the last command, then the write. -/
def doPrbsSelect (q : Nat) (prbs : BitVec 2) (heard : List (List Bool)) (d : Device) : Device :=
  prbsWrite q prbs (modQuad q (prbsHeard heard) d)

/-- FL_QUAD_CTRL.retrain is written 1 (R333, R335). -/
def doRetrain (q : Nat) (d : Device) : Device :=
  if isUpper d q then d
  else
    let d := modQuad q (fun x => { x with held := false }) d
    if mayTrain d q then enterSignal q d else d

/-- FL_QUAD_CTRL.clear_counts is written 1; the upper half of a bonded port ignores it (R324). -/
def doFlClearCounts (q : Nat) (d : Device) : Device :=
  if isUpper d q then d
  else
    modQuad q (fun x => { x with prbsErr := Vector.replicate 4 0, fecCorr := 0, fecUncorr := 0, crcErr := 0, retry := 0,
                                 retrainCount := 0, staleDrop := 0 }) d

/-! ## Training (R329 to R335) -/

/-- The TRAIN block that port `q` sends (R334). -/
def trainPayload (d : Device) (q : Nat) : BitVec 128 :=
  let x := quad d q
  place 128 127 120 3 ||| place 128 119 119 (b2n x.seen) ||| place 128 115 112 (portWidth d q)
    ||| place 128 111 96 d.forron.inc.toNat ||| place 128 95 80 x.peerInc.toNat ||| place 128 79 72 d.forron.quire.toNat
    ||| place 128 71 63 d.forron.device.toNat ||| place 128 62 58 q ||| place 128 43 32 x.expSeq.toNat

/-- The TRAIN block goes out at every lane of the port (R334). -/
def sendTrain (q : Nat) (d : Device) : Device :=
  let b := trainPayload d q
  sendBlocks q (List.replicate (portWidth d q) (controlBlock b)) (emit (.train q b) d)

/-- CLOCK_RECOVERY_LOCK: the lanes that have now recovered their clock; in Forron mode, all lanes of the port report it (R333,
R421). -/
def doClockLock (q : Nat) (lanes : BitVec 4) (d : Device) : Device :=
  let p := portOf d q
  if (quad d q).mode = 2 then modFount (fun f => { f with cdrLock := vmodN f.cdrLock q fun _ => lanes }) d
  else if (quad d p).state = .signal && lanes = 15 then
    sendMarks p 0 (modQuad p (fun x => { x with frames := 0, stream := [] }) (setPortState p .hunt d))
  else d

/-- Every lane of port `p` is locked. -/
def allLocked (d : Device) (p : Nat) : Bool := (portQuads d p).all fun k => (quad d k).laneLock = 15

/-- The candidate passes: 64 valid headers in a row, and the next block 0 a LANE_MARK with a valid header (R329). -/
def huntPasses (h : LaneHunt) : Bool :=
  badHeaders h.headers = 0 && blockHeader h.mark = 2 && controlType (blockPayload h.mark) = 1

/-- The greatest difference of two lanes' superframes, in bits (R331). -/
def laneSkew (d : Device) (p : Nat) : Nat :=
  let l := ((portQuads d p).map fun k => (quad d k).markAt.toList).flatten
  (l.map fun a => (l.map (laneApart a)).foldl max 0).foldl max 0

def doLaneLock (q lane : Nat) (h : LaneHunt) (d : Device) : Device :=
  let p := portOf d q
  if (quad d p).state ≠ .hunt || !huntPasses h then d
  else
    let d := modQuad q (fun x => { x with laneLock := x.laneLock ||| BitVec.ofNat 4 (2 ^ lane),
                                          markAt := vmodN x.markAt lane fun _ =>
                                            laneOrigin h.time (fieldN (blockPayload h.mark) 111 96) }) d
    if allLocked d p then
      let d := setPortState p .exchange d
      if laneSkew d p ≤ 2048 then sendTrain p d else enterSignal p d
    else d

/-- A locked lane loses lock: 16 of its last 64 headers are invalid (R329). -/
def doLaneLockLost (q lane : Nat) (headers : BitVec 128) (d : Device) : Device :=
  let p := portOf d q
  let st := (quad d p).state
  if !(quad d q).laneLock.getLsbD lane || badHeaders headers < 16 then d
  else if st = .exchange || st = .up then enterSignal p d
  else if st = .hunt then
    modQuad q (fun x => { x with laneLock := x.laneLock &&& ~~~(BitVec.ofNat 4 (2 ^ lane)) }) d
  else d

/-- The sheets that a port may stay in a state of its training (R333). -/
def stateBound : PortState → Option Nat
  | .signal => some 16
  | .hunt => some 8
  | .exchange => some 16
  | _ => none

/-- The port has stayed too long in Signal, Hunt or Exchange (R333). -/
def trainingLate (d : Device) (p : Nat) : Bool :=
  match stateBound (quad d p).state with
  | some n => decide ((quad d p).stateAt + 4096 * n ≤ d.now)
  | none => false

def doTrainingTimeout (q : Nat) (d : Device) : Device :=
  let p := portOf d q
  if !trainingLate d p then d
  else if (quad d p).state = .signal then beginTraining p (setPortState p .down d)
  else enterSignal p d

/-- Flits of the retry buffer from `next` on; those before it have arrived (R335, R343). -/
def heldFrom (next : BitVec 12) (l : List HeldFlit) : List HeldFlit :=
  match l with
  | [] => []
  | f :: r => let k := (next - f.seq).toNat
    if k ≤ (f :: r).length then (f :: r).drop k else f :: r

/-- The port goes Up. -/
def goUp (p : Nat) (d : Device) : Device := setPortState p .up d

/-- The port is held Down until it is told to retrain (R335). -/
def holdDown (p : Nat) (d : Device) : Device := modQuad p (fun x => { x with held := true }) (setPortState p .down d)

/-- The partner differs from FL_EXPECT (R335). -/
def wrongPartner (expect : Word) (b : BitVec 128) : Bool :=
  bit expect 31 && (fieldN expect 30 23 ≠ fieldN b 79 72 || fieldN expect 22 14 ≠ fieldN b 71 63
    || fieldN expect 13 9 ≠ fieldN b 62 58)

/-- Port `p` has sent a flit among these outputs. -/
def sentFlit (p : Nat) (l : List Output) : Bool := l.any fun o => match o with
  | .flit q _ _ _ => q = p
  | _ => false

/-- A port that is Up and has sent nothing since `d0` sends a NULL flit (R339). -/
def answerFlit (p : Nat) (d0 d : Device) : Device :=
  if portUp d p && !sentFlit p (d.out.take (d.out.length - d0.out.length)) then sendNull p d else d

/-- Same partnership: the retry buffer is kept and resent from what the partner expects next (R335). -/
def samePartner (p : Nat) (b : BitVec 128) (d : Device) : Device :=
  let d := modQuad p (fun x => { x with retryBuf := heldFrom (field b 43 32) x.retryBuf, rounds := 0 }) (goUp p d)
  let d0 := d
  let d := if (quad d p).retryBuf = [] then d else resendAll p d
  answerFlit p d0 (pumpPort 1024 p d)

/-- New partnership: both directions begin anew, and nothing of what came before stays in the receive buffer (R335). -/
def newPartner (p : Nat) (b : BitVec 128) (d : Device) : Device :=
  let old := (quad d p).peerInc
  let d := dropReceived p d
  let d := modQuad p (fun x =>
    { x with retryBuf := [], expSeq := 0, nextSeq := 0, credCtl := 64, credData := 64, retCtl := 0, retData := 0,
             anyAcc := false, nakDue := false, naked := false, rounds := 0, peerInc := field b 111 96,
             sawStale := false, sawNew := old ≠ 0 }) (goUp p d)
  let d := if old = 0 then d else logSeen p 0x0421 { held := old.toNat, seen := fieldN b 111 96 } d
  answerFlit p d (pumpPort 1024 p d)

/-- Exchange is complete: the outcome of R335. -/
def trained (p : Nat) (b : BitVec 128) (d : Device) : Device :=
  let d := modQuad p (fun x =>
    { x with partner := place 32 31 31 1 ||| place 32 30 23 (fieldN b 79 72) ||| place 32 22 14 (fieldN b 71 63)
                         ||| place 32 13 9 (fieldN b 62 58) }) d
  let w := fieldN b 115 112
  let x := quad d p
  if w ≠ portWidth d p then logSeen p 0x0423 { seq := portWidth d p + 256 * w, held := x.peerInc.toNat, seen := fieldN b 111 96 } (holdDown p d)
  else if wrongPartner x.expect b then
    logSeen p 0x0422 { held := x.peerInc.toNat, seen := fieldN b 111 96 } (holdDown p d)
  else if x.peerInc = field b 111 96 && d.forron.inc = field b 95 80 then samePartner p b d
  else newPartner p b d

/-- A TRAIN block arrives in Exchange (R334, R335). -/
def takeTrain (p : Nat) (b : BitVec 128) (d : Device) : Device :=
  if (quad d p).state ≠ .exchange then d
  else
    let x := quad d p
    let run := if x.lastTrain = some b then min 8 (x.trainRun + 1) else 1
    let d := modQuad p (fun x => { x with lastTrain := some b, trainRun := run }) d
    if run < 8 then d
    else
      let d := if x.seen then d else sendTrain p (modQuad p (fun x => { x with seen := true }) d)
      if bit b 119 then trained p b d else d

/-- The port's lanes decode blocks: it has begun to lock. -/
def portHears (d : Device) (p : Nat) : Bool :=
  let s := (quad d p).state
  s = .hunt || s = .exchange || s = .up

/-- Codewords that a quad has decoded: each corrected symbol error counts, and each codeword with more than 15 (R330). -/
def countFec (l : List Codeword) (x : Quad) : Quad :=
  l.foldl (fun x c => if c.errors ≤ 15 then { x with fecCorr := satAdd x.fecCorr c.errors }
                      else { x with fecUncorr := satAdd x.fecUncorr 1 }) x

/-- The codewords of a port are counted at the quads whose lanes carried them. -/
def hearCodewords (p : Nat) (l : List Codeword) (d : Device) : Device :=
  let d := modQuad p (countFec (l.filter (!·.upper))) d
  if isBonded d p then modQuad (p + 1) (countFec (l.filter (·.upper))) d else d

/-- A block of what has arrived lies in a codeword that could not be corrected (R330). -/
def flitBad (l : List Codeword) : Bool := l.any fun c => c.carries && decide (15 < c.errors)

/-- A block arrives at port `p`, in codewords of which `l` tells: a control block of a type that is neither LANE_MARK nor TRAIN is
discarded and counted; data and invalid headers say nothing here, and a block marked bad is none, so that a run of TRAIN blocks ends
with it (R327, R330, R334). -/
def doTrainBlock (q : Nat) (b : BitVec 130) (l : List Codeword) (d : Device) : Device :=
  let p := portOf d q
  let v := blockPayload b
  let d := if portHears d p then hearCodewords p l d else d
  if flitBad l then modQuad p (fun x => { x with lastTrain := none, trainRun := 0 }) d
  else if blockHeader b ≠ 2 || controlType v = 1 then d
  else if controlType v = 3 then takeTrain p v d
  else if portHears d p then modQuad p (fun x => { x with crcErr := satAdd x.crcErr 1 }) d
  else d

/-! ## Flits (R337 to R344) -/

/-- A flit is discarded and answered with a NAK, unless one is already asked for (R343). -/
def nakFlit (q : Nat) (d : Device) : Device :=
  modQuad q (fun x => if x.naked then x else { x with nakDue := true, naked := true }) d

/-- The first sequence number not yet acknowledged. -/
def firstHeld (x : Quad) : BitVec 12 := match x.retryBuf with | f :: _ => f.seq | [] => x.nextSeq

/-- An ackseq arrives: it drops what it covers; one that covers a flit not yet sent counts in FL_CRC_ERR; an old one
says nothing new (R343). -/
def takeAck (q : Nat) (ackseq : BitVec 12) (d : Device) : Device :=
  let due := ackDue d
  modQuad q (fun x =>
    let n := (ackseq + 1 - firstHeld x).toNat
    if n ≤ x.retryBuf.length then
      { x with retryBuf := x.retryBuf.drop n, rounds := if n = 0 then x.rounds else 0, ackBy := if n = 0 then x.ackBy else due }
    else if 4096 - 512 ≤ n then x
    else { x with crcErr := satAdd x.crcErr 1 }) d

/-- Resend, or retrain when the limit of rounds has passed without progress (R343, R344). -/
def resendOrRetrain (q : Nat) (d : Device) : Device :=
  if (quad d q).retryBuf = [] then d
  else if max 1 d.forron.retryLimit.toNat ≤ (quad d q).rounds then enterSignal q d
  else resendAll q d

/-- The ack, the NAK and the credits of a header (R338, R342, R343). -/
def takeLink (q : Nat) (h : BitVec 96) (d : Device) : Device :=
  let t := fieldN h 68 67
  let d := if t = 1 || t = 2 then takeAck q (field h 80 69) d else d
  let d := modQuad q (fun x => { x with credCtl := min 64 (x.credCtl + fieldN h 66 63),
                                        credData := min 64 (x.credData + fieldN h 62 59) }) d
  if t = 2 then resendOrRetrain q d else d

/-- The chunk number that chooses a message's port in transit (R357): a DATA message carries none, and takes that of the
RESERVE of its source and tag that went through here; where none did, an open value. -/
def transitChunk (d : Device) (m : FMsg) : Nat :=
  if m.mtype ≠ 3 then chunkOf m
  else match d.forron.transit.find? fun e => e.1 = m.src && e.2.1 = m.tag with
    | some e => e.2.2
    | none => Config.unknownChunk m.src m.tag

/-- A RESERVE that is forwarded leaves its chunk number here. -/
def noteTransit (m : FMsg) (d : Device) : Device :=
  if m.mtype ≠ 1 then d
  else modForron (fun f =>
    { f with transit := (m.src, m.tag, chunkOf m) :: f.transit.filter fun e => !(e.1 = m.src && e.2.1 = m.tag) }) d

/-- The end of a message's chunk that is the partner: its receiver where it answers, else its sender (R349). -/
def msgPartner (m : FMsg) : BitVec 27 := if m.mtype = 2 || m.mtype = 4 then m.dst else m.src

/-- A record about message `m`, which names its partner (R367). -/
def logMsg (q : Nat) (code : BitVec 16) (m : FMsg) (d : Device) : Device := logMsgOf (msgPartner m) q code m d

/-- Forward a transit message, or drop it (R357, R358). -/
def forward (q : Nat) (m : FMsg) (d : Device) : Device :=
  let d := noteTransit m d
  match transitPort d q (fmsgTo m) (transitChunk d m) with
  | none => dropTransit q m d
  | some p => if portUp d p && p ≠ q then sendAt p (some q) m d else dropTransit q m d

/-- A message for this part: checked, then delivered (R349, R355). -/
def deliver (q : Nat) (m : FMsg) (ok : Bool) (d : Device) : Device :=
  if !ok then logMsg q 0x0412 m (returnCredit q (fmsgData m) d)
  else if m.mtype ≠ 1 && m.pinc ≠ d.forron.inc then
    logMsg q 0x0410 m (modQuad q (fun x => { x with sawStale := true }) (returnCredit q (fmsgData m) d))
  else modForron (fun f => { f with inbox := f.inbox ++ [(q, m)] }) d

/-- An accepted MSG flit (R343, R357). -/
def acceptMsg (q : Nat) (bytes : List Byte) (d : Device) : Device :=
  let d := modQuad q (fun x => { x with expSeq := x.expSeq + 1, anyAcc := true, naked := false }) d
  let (m, ok) := fmsgOf bytes
  let m := { m with lseq := (quad d q).expSeq - 1 }
  if m.mtype = 0 || 6 ≤ m.mtype then logMsg q 0x0412 m (returnCredit q (fmsgData m) d)
  else if addrOwn d (fmsgTo m) then deliver q m ok d
  else forward q m d

/-- A MSG flit by its sequence number (R343). -/
def takeMsgFlit (q : Nat) (seq : BitVec 12) (bytes : List Byte) (d : Device) : Device :=
  let k := (seq - (quad d q).expSeq).toNat
  if k = 0 then acceptMsg q bytes d
  else if k ≤ 512 then nakFlit q d
  else d

/-- A whole flit of 256 bytes at port `q` (R340, R341, R343). -/
def takeFlit (q : Nat) (bytes : List Byte) (bad : Bool) (d : Device) : Device :=
  let h : BitVec 96 := BitVec.ofNat 96 (leNat (bytes.take 12))
  if bad || crc32 (bytes.take 252) ≠ BitVec.ofNat 32 (leAt bytes 252 4) then
    nakFlit q (modQuad q (fun x => { x with crcErr := satAdd x.crcErr 1 }) d)
  else if field h 31 16 ≠ (quad d q).peerInc || field h 15 0 ≠ d.forron.inc then
    modQuad q (fun x => { x with staleDrop := satAdd x.staleDrop 1, sawStale := true }) d
  else
    let d := takeLink q h d
    if fieldN h 95 94 = 1 then takeMsgFlit q (field h 92 81) bytes d else d

/-- A flit arrives; the port answers in its next flit, a NULL flit where no message is ready, and so does each port whose receive
buffer it empties (R339, R342, R343). -/
def doFlit (q : Nat) (flit : BitVec 2048) (l : List Codeword) (d : Device) : Device :=
  let p := portOf d q
  if !portUp d p then d
  else
    let d := hearCodewords p l d
    payDebts (answerFlit p d (pumpPort 1024 p (takeFlit p (leBytes 256 flit.toNat) (flitBad l) d)))

/-- retry_timeout points have passed with flits held and no ackseq advancing (R343). -/
def doRetryTimeout (q : Nat) (d : Device) : Device :=
  let p := portOf d q
  if portUp d p && decide ((quad d p).ackBy ≤ d.now) then resendOrRetrain p d else d

/-! ## Route tables (R356, R359, R360, R552) -/

/-- An entry as it is stored: [8:0] are zero (R356). -/
def routeWord (v : Word) : Word := v &&& 0xFFFFFE00#32

def doRouteWrite (r : Requester) (q : Nat) (v : Word) (d : Device) : Device :=
  if !quadPresent d.part q then d
  else withRight (lockable d r 5) r (0x0600084 + 0x10000 * q) v (fun d =>
    let i := (quad d q).routeIndex.toNat
    if i < 768 && routeOk d v then modQuad q (fun x => { x with routes := smapSet 0 x.routes i (routeWord v) }) d else d) d

def doOrouteWrite (r : Requester) (v : Word) (d : Device) : Device :=
  withRight (lockable d r 5) r 0x0600128 v (fun d =>
    let i := d.forron.orouteSel.toNat % 1024
    if i < 768 && routeOk d v then
      modForron (fun f =>
        { f with oroutes := vmodN f.oroutes (f.orouteSel.toNat / 1024) fun t => smapSet 0 t i (routeWord v) }) d
    else d) d

/-! ## The commands -/

def execQuadModeWrite (q : QuadId) (mode : BitVec 2) (s : State) : Host.Outcome State Fault Refusal :=
  onHost (.quadModeWrite q mode) (doQuadMode q.1 mode) s
def execPrbsSelect (q : QuadId) (prbs : BitVec 2) (s : State) (heard : List (List Bool) := []) :
    Host.Outcome State Fault Refusal :=
  onHost (.prbsSelect q prbs heard) (doPrbsSelect q.1 prbs heard) s
def execRetrain (q : QuadId) (s : State) : Host.Outcome State Fault Refusal :=
  onHost (.retrain q) (doRetrain q.1) s
def execFlClearCounts (q : QuadId) (s : State) : Host.Outcome State Fault Refusal :=
  onHost (.flClearCounts q) (doFlClearCounts q.1) s
def execClockRecoveryLock (q : QuadId) (s : State) (lanes : BitVec 4 := 15) : Host.Outcome State Fault Refusal :=
  onDev (doClockLock q.1 lanes) s
def execLaneLock (q : QuadId) (lane : LaneId) (hunt : LaneHunt) (s : State) : Host.Outcome State Fault Refusal :=
  onDev (doLaneLock q.1 lane.1 hunt) s
def execLaneLockLost (q : QuadId) (lane : LaneId) (s : State) (headers : BitVec 128 := 0) :
    Host.Outcome State Fault Refusal :=
  onDev (doLaneLockLost q.1 lane.1 headers) s
def execTrainingTimeout (q : QuadId) (s : State) : Host.Outcome State Fault Refusal := onDev (doTrainingTimeout q.1) s
def execTrainBlock (q : QuadId) (block : BitVec 130) (s : State) (codewords : List Codeword := []) :
    Host.Outcome State Fault Refusal :=
  onDev (doTrainBlock q.1 block codewords) s
def execFlit (q : QuadId) (flit : BitVec 2048) (codewords : List Codeword) (s : State) : Host.Outcome State Fault Refusal :=
  onDev (doFlit q.1 flit codewords) s
def execRetryTimeout (q : QuadId) (s : State) : Host.Outcome State Fault Refusal := onDev (doRetryTimeout q.1) s
def execFlRouteDataWrite (src : Requester) (q : QuadId) (value : Word) (s : State) : Host.Outcome State Fault Refusal :=
  onSource src (.flRouteDataWrite src q value) (doRouteWrite src q.1 value) s
def execFlOrouteDataWrite (src : Requester) (value : Word) (s : State) : Host.Outcome State Fault Refusal :=
  onSource src (.flOrouteDataWrite src value) (doOrouteWrite src value) s

end Sys2Proof.Machine
end

