-- ==== Sys2Proof/Machine/Forron.lean ====
section
/-!
DEFINITION. Machine/Forron.lean: Forron transfers, the transport's messages at this part, and collectives on the sequence
engines (09_forron_link.md R348 to R355, R358, R361 to R367), with their commands.
-/
namespace Sys2Proof.Machine

/-! ## Faults (R367, R368) -/

/-- A fault of a LINK's transfer or collective with the detail of area 04h. -/
def faultLink (p phase : Nat) (e : QEntry) (stream : BitVec 12) (code : BitVec 16) (x : FlDetail) (d : Device) : Device :=
  faultTask e.slot code (unitPress p) { ctxOf p phase e none with stream := some stream }
    (some (flDetail { x with stream := stream.toNat })) d

def countLinkWait (p : Nat) (d : Device) : Device :=
  modPress p (fun x => { x with stalls := { x.stalls with linkWait := satAdd x.stalls.linkWait 1 } }) d

/-! ## LINK with a kind 0Ah descriptor (R351, R365) -/

def kindAFields : List (Nat × Nat) := [(255, 71), (63, 0)]

def faMarker (b : BitVec 256) : Bool := bit b 251
def faTmode (b : BitVec 256) : Nat := fieldN b 250 249
def faPool (b : BitVec 256) : Bool := bit b 248
def faDep (b : BitVec 256) : Nat := fieldN b 237 228
def faStream (b : BitVec 256) : BitVec 12 := field b 223 212
def faBytes (b : BitVec 256) : Nat := 64 * fieldN b 187 168
def faSaddr (b : BitVec 256) : Nat := fieldN b 167 128
def faDaddr (b : BitVec 256) : Nat := fieldN b 127 88
def faTally (b : BitVec 256) : BitVec 64 := field b 63 0

/-- The descriptor's own form. -/
def linkWf (b : BitVec 256) : Bool :=
  reservedZero b kindAFields && faTmode b < 2 && faBytes b ≠ 0 && (!faMarker b || faBytes b = 64)
    && (!faPool b || faDaddr b < 16)

/-- Local source of a Forron transfer of press `p` (R351). -/
def linkSource (p ep : Nat) : Bool := ep = p || ep = 0x80 + p / 8 || ep = 0xA8

/-- The dispatch checks of R351. -/
def linkChecks (d : Device) (p src : Nat) (b : BitVec 256) : Option (BitVec 16) :=
  if !linkSource p src then some 0x0603
  else if !rangeOk d src (faSaddr b) (faBytes b) || (!faPool b && faDaddr b % 64 ≠ 0) then some 0x0605
  else if !(faDep b < 0x90 || faDep b = 0xA8) || addrOwn d (flDest b) then some 0x0405
  else if faWindow b = 0 then some 0x0607
  else none

/-- The fault of a check: area 06h codes carry R279, the others R367. -/
def faultCheck (p src : Nat) (e : QEntry) (b : BitVec 256) (code : BitVec 16) (d : Device) : Device :=
  if code = 0x0405 then faultLink p 1 e (faStream b) code { partner := (flDest b).toNat } d
  else faultStream p 1 e (faStream b) code (unitPress p) { peer := src } d

def makeFTransfer (d : Device) (p src : Nat) (e : QEntry) (b : BitVec 256) : FTransfer :=
  { entry := e, desc := b, quad := 0, src := src,
    deadline := deadlineOf d p e.slot (fieldN b 211 188) + windowMargin d e.slot 2 2
      ((originPorts d (p / 64) (flDest b)).map (portQuads d)).flatten (faWindow b),
    sig := bit e.word 11, tok := fieldN e.word 10 5, links0 := linksNow d }

/-- Every earlier LINK of the queue has completed (R365). -/
def linksDone (d : Device) (p : Nat) : Bool := (press d p).ftransfers = [] && engineIdle d p

/-- A LINK waits at the head of the queue: the controller is full, or a marker has earlier LINKs to wait for (R352, R365). -/
def linkWaits (d : Device) (p : Nat) (b : BitVec 256) : Bool :=
  decide (8 ≤ controllerLoad (press d p)) || (faMarker b && !linksDone d p)

/-- Check and dispatch a LINK whose descriptor is not of kind 0Bh (R237, R351, R352). -/
def linkAtHead (p : Nat) (e : QEntry) (d : Device) : Device :=
  let b := nth 0 e.desc 0
  if dKind b = 11 then d
  else if dKind b ≠ 10 then faultEntry p 1 e codeBadDesc none d
  else if linkWaits d p b then countLinkWait p d
  else if !linkWf b then faultEntry p 1 e codeBadDesc none d
  else
    let src := ownGalley e.pm p (fieldN b 247 238)
    match linkChecks d p src b with
    | some code => faultCheck p src e b code d
    | none =>
      popHead p (modPress p (fun x => { x with ftransfers := x.ftransfers ++ [makeFTransfer d p src e b] }) d)

def doLinkDispatch (p : Nat) : Device → Device := atHead (fun o => o = 0x26) p (linkAtHead p)

/-! ## LINK with a kind 0Bh descriptor (R362, R364) -/

def kindBFields : List (Nat × Nat) := [(255, 87)]

/-- The ring entry may be used, and fits the elements (R361, R362). -/
def ringUsable (r : RingEntry) (elems : Nat) : Bool :=
  let n := r.sizeM1.toNat + 1
  r.valid && 2 ≤ n && r.position.toNat < n && elems % 16 = 0 && n ≤ elems / 16

def makeCollective (d : Device) (p : Nat) (e : QEntry) (b : BitVec 256) (r : RingEntry) : Collective :=
  { press := p, entry := e, desc := b, n := r.sizeM1.toNat + 1, i := r.position.toNat, succ := r.successor,
    pred := r.predecessor, links0 := linksNow d,
    deadline := deadlineOf d p e.slot (fieldN b 219 196) + windowMargin d e.slot 3 3 [p / 64] (fieldN b 245 242) }

/-- The dispatch checks of a collective (R362, R564). -/
def collectiveChecks (d : Device) (p : Nat) (b : BitVec 256) (r : RingEntry) : Option (BitVec 16) :=
  let ep := fieldN b 241 232
  if !bit d.trust.store.enEngine (p / 64) then some 0x0909
  else if !(ep = 0x80 + p / 8 || ep = 0xA8) then some 0x0603
  else if !ringUsable r (fieldN b 195 168) then some 0x0407
  else if !rangeOk d ep (fieldN b 167 128) (4 * fieldN b 195 168) || (bit b 87 && !rangeOk d ep (fieldN b 127 88) 64) then
    some 0x0605
  else none

def faultCollective (p : Nat) (e : QEntry) (b : BitVec 256) (code : BitVec 16) (d : Device) : Device :=
  let stream := field b 231 220
  if code = 0x0407 then
    faultLink p 1 e stream code { coll := 16 * fieldN b 249 246 + fieldN b 245 242 } d
  else if code = 0x0909 then faultTask e.slot code unitTrust { ctxOf p 1 e none with stream := some stream } (some 0) d
  else faultStream p 1 e stream code (unitPress p) { peer := fieldN b 241 232 } d

def collectiveAtHead (p : Nat) (e : QEntry) (d : Device) : Device :=
  let b := nth 0 e.desc 0
  let die := p / 64
  if dKind b ≠ 11 then d
  else if !reservedZero b kindBFields || fieldN b 251 250 = 3 || fieldN b 245 242 = 0 then
    faultEntry p 1 e codeBadDesc none d
  else if (vgetN none d.forron.engines die).isSome then countLinkWait p d
  else
    let r := vgetN {} (vgetN (Vector.replicate 16 {}) d.forron.rings die) (fieldN b 249 246)
    match collectiveChecks d p b r with
    | some code => faultCollective p e b code d
    | none =>
      let c := makeCollective d p e b r
      popHead p (modForron (fun f => { f with engines := vmodN f.engines die fun _ => some c }) d)

def doCollectiveDispatch (p : Nat) : Device → Device := atHead (fun o => o = 0x26) p (collectiveAtHead p)

/-! ## FORRON_CHUNK_REQUEST (R352, R357, R358, R364) -/

/-- Payload of a RESERVE (R350). -/
def reserveBytes (len : Nat) (pool : Option Nat) (addr : Nat) (stream : BitVec 12) (chunk : Nat) (coll : List Byte) :
    List Byte :=
  leBytes 2 len ++ leBytes 1 (match pool with | some k => 16 + k % 16 | none => 0) ++ bytesOf 1 0 ++ leBytes 8 addr
    ++ flTail stream chunk ++ coll

/-- Length of the chunk of a Forron transfer that begins at byte `off`. -/
def faChunkLen (b : BitVec 256) (off : Nat) : Nat :=
  let a := if faPool b then off else faDaddr b + off
  min (4096 - a % 4096) (faBytes b - off)

def modFTransfer (p i : Nat) (g : FTransfer → FTransfer) (d : Device) : Device :=
  modPress p (fun x => { x with ftransfers := x.ftransfers.mapIdx fun j t => if j = i then g t else t }) d

def ftransferAt (d : Device) (p i : Nat) : Option FTransfer := (press d p).ftransfers[i]?

/-- A retired granule of the source stops the chunk (R310). -/
def faultRetired (p : Nat) (e : QEntry) (stream : BitVec 12) (a : Nat) (d : Device) : Device :=
  let (s, l) := hbmMap d.part a
  faultTask e.slot 0x0512 (unitStack s) { ctxOf p 2 e none with stream := some stream }
    (some (sdDetail d (.hbm s) l 0 3 0 0 1 (some stream))) d

/-- Send RESERVE for the next chunk of a Forron transfer. -/
def reserveNext (p i : Nat) (t : FTransfer) (port : Nat) (d : Device) : Device :=
  let b := t.desc
  let n := faChunkLen b t.asked
  let tag := freshTag (press d p)
  let pool := if faPool b then some (faDaddr b) else none
  let addr := if faPool b then 0 else faDaddr b + t.asked
  let m : FMsg := { mtype := 1, marker := faMarker b, tag := tag, src := ownAddr d p, dst := flDest b,
                    sinc := d.forron.inc, pinc := 0,
                    payload := reserveBytes n pool addr (faStream b) t.nextNum (bytesOf 6 0) }
  let d := modPress p (fun x => { x with tagNext := tag + 1 }) d
  let d := modFTransfer p i (fun t =>
    { t with asked := t.asked + n, nextNum := t.nextNum + 1,
             chunks := t.chunks ++ [{ num := t.nextNum, tag := tag, off := t.asked, len := n, asked := d.chase.asks,
                                      port := port }] }) d
  sendAt port none m d

def requestForron (p i : Nat) (d : Device) : Device :=
  match ftransferAt d p i with
  | none => d
  | some t =>
    let b := t.desc
    if faBytes b ≤ t.asked then d
    else if 4 ≤ t.chunks.length then countLinkWait p d
    else if t.src = 0xA8 && hbmRetired d (faSaddr b + t.asked) (faChunkLen b t.asked) then
      faultRetired p t.entry (faStream b) (retiredAt d (faSaddr b + t.asked) (faChunkLen b t.asked)) d
    else match originPort d (p / 64) (flDest b) t.nextNum with
      | none => faultLink p 2 t.entry (faStream b) 0x0405 { partner := (flDest b).toNat, chunk := t.nextNum } d
      | some port =>
        if portWindow d t.entry.slot (faWindow b) port then reserveNext p i t port d else countLinkWait p d

def setEngine (die : Nat) (c : Collective) (d : Device) : Device :=
  modForron (fun f => { f with engines := vmodN f.engines die fun _ => some c }) d

/-- The collective fields of an engine's RESERVE (R364). -/
def collBytes (c : Collective) (t : Nat) : List Byte :=
  leBytes 1 (16 * colRing c + colNum c) ++ leBytes 1 (colOp c) ++ leBytes 4 (colWire c t)

/-- A chunk of step `t` may be sent: the step before it has committed it here (R363). -/
def colMaySend (c : Collective) (t k : Nat) : Bool := t = 0 || c.done.contains (t - 1, k)

/-- Send RESERVE for the next chunk of a collective. -/
def engineReserve (die : Nat) (c : Collective) (off n port : Nat) (d : Device) : Device :=
  let tag := vgetN 0 d.forron.engineTag die
  let m : FMsg := { mtype := 1, tag := tag, src := ownAddr d (0xE1 + die), dst := c.succ, sinc := d.forron.inc, pinc := 0,
                    payload := reserveBytes n none off (colStream c) c.chunk (collBytes c c.step) }
  let x : TxChunk := { num := c.chunk, tag := tag, off := off, len := n, asked := d.chase.asks, port := port }
  let last := c.chunk + 1 = (colChunks c (colSends c c.step)).length
  let c := { c with sent := c.sent ++ [(c.step, c.chunk, x)], step := if last then c.step + 1 else c.step,
                    chunk := if last then 0 else c.chunk + 1 }
  let d := modForron (fun f => { f with engineTag := vmodN f.engineTag die (· + 1) }) (setEngine die c d)
  sendAt port none m d

def requestEngine (die : Nat) (d : Device) : Device :=
  match vgetN none d.forron.engines die with
  | none => d
  | some c =>
    if colSteps c ≤ c.step then d
    else if 4 ≤ c.sent.length || !colMaySend c c.step c.chunk || !colOpen d die c then countLinkWait c.press d
    else match (colChunks c (colSends c c.step))[c.chunk]? with
      | none => d
      | some (off, n) =>
        if colEp c = 0xA8 && hbmRetired d (colBase c + off) n then
          faultRetired c.press c.entry (colStream c) (retiredAt d (colBase c + off) n) d
        else match originPort d die c.succ c.chunk with
          | none =>
            faultLink c.press 2 c.entry (colStream c) 0x0405
              { partner := c.succ.toNat, chunk := c.chunk, coll := 16 * colRing c + colNum c, step := colWire c c.step } d
          | some port => engineReserve die c off n port d

def doForronChunkRequest : ForronSender → Device → Device
  | .transfer p i => requestForron p.1 i
  | .engine die => requestEngine die.1

/-! ## Taking a message (R349) -/

/-- The message of index `n` of type `ty` that may be taken now: no earlier message of its chunk, and no earlier RESERVE
to the same endpoint, waits. -/
def inboxAt (d : Device) (n ty : Nat) : Option (Nat × FMsg) :=
  match d.forron.inbox[n]? with
  | none => none
  | some (q, m) =>
    if m.mtype = ty && !((d.forron.inbox.take n).any fun k =>
        (k.2.src = m.src && k.2.tag = m.tag) || (ty = 1 && k.2.mtype = 1 && k.2.dst = m.dst)) then some (q, m)
    else none

/-- The message leaves the receive buffer of its port; its credit is due (R342). -/
def takeInbox (n q : Nat) (m : FMsg) (d : Device) : Device :=
  returnCredit q (fmsgData m) (modForron (fun f => { f with inbox := removeAt f.inbox n }) d)

def onInbox (ty n : Nat) (act : Nat → FMsg → Device → Device) (d : Device) : Device :=
  match inboxAt d n ty with
  | none => d
  | some (q, m) => payDebts (act q m (takeInbox n q m d))

/-- The fields of R367 for a chunk of a sender whose transfer began when the ports stood so; `seq` is that of the message
concerned. -/
def sentDetail (d : Device) (links0 : List (Word × BitVec 16)) (peer : BitVec 27) (x : TxChunk) (mtype : Nat)
    (seq : BitVec 12) : FlDetail :=
  { (flDuring d x.port (nth (0, 0) links0 x.port) {}) with
    partner := peer.toNat, tag := x.tag.toNat, chunk := x.num, mtype := mtype, seq := seq.toNat,
    state := if x.sent then 3 else if x.pinc ≠ 0 then 2 else 1 }

/-! ## FORRON_RESERVE (R353, R355, R364) -/

def rsvLen (m : FMsg) : Nat := leAt m.payload 0 2
def rsvPool (m : FMsg) : Option Nat := let b := leAt m.payload 2 1; if b / 16 % 2 = 1 then some (b % 16) else none
def rsvAddr (m : FMsg) : Nat := leAt m.payload 4 8

/-- The chunk that a RESERVE asks for. -/
def frxOf (d : Device) (q : Nat) (m : FMsg) : FRx :=
  { port := q, src := m.src, dst := m.dst, tag := m.tag, sinc := m.sinc, len := rsvLen m, addr := rsvAddr m,
    pool := rsvPool m, stream := BitVec.ofNat 12 (leAt m.payload 12 2), chunk := leAt m.payload 14 4,
    coll := (m.payload.drop 18).take 6, ctag := d.forron.ctag, holdBy := holdDue d, retrains := (quad d q).retrainCount,
    peer0 := (quad d q).peerInc }

/-- A forme is held by an accepted ticket (R39, R353). -/
def formeTicket (d : Device) (f : Nat) : Bool :=
  d.mkr.table.any fun ie =>
    let e := ie.2
    eSlot e ≠ 0xFFF && (eAction e = 1 || eAction e = 8) && eClass e = 0 && eIndex e = f && eFired e

/-- The refusal cause of a RESERVE, or none (R353). -/
def reserveCause (d : Device) (x : FRx) : Option Nat :=
  let ep := addrEp x.dst
  let e := epOf ep
  let hit (a n : Nat) : Bool := match epMem d e a with
    | some (id, l) => memBlocked d id l n
    | none => false
  let blocked : Bool := match x.pool with
    | none => hit x.addr x.len
    | some k =>
      let q := getPool d e k
      let n := q.base + q.size - q.tail
      hit q.tail (min n x.len) || hit q.base (x.len - n)
  if !(ep < 0x90 || ep = 0xA8) then some 5
  else if (match epForme e with | some f => !formeTicket d f | none => false) then some 1
  else if x.len = 0 || x.len % 64 ≠ 0 || 4096 < x.len || (x.pool.isNone && !rangeOk d ep x.addr x.len) then some 2
  else if (match x.pool with
      | some k => epPools e ≤ k || !(getPool d e k).isOpen || (getPool d e k).size < x.len
      | none => false) then some 3
  else if (x.pool.isNone && ep = 0xA8 && hbmRetired d x.addr x.len) || blocked then some 4
  else none

/-- Reserve a chunk at its endpoint, as the sender of a chase push (R353). -/
def pushReserve (x : FRx) (d : Device) : Device :=
  let ep := epUnit d (addrEp x.dst) x.addr
  let d := modForron (fun f => { f with rx := f.rx ++ [x], ctag := f.ctag + 1 }) d
  chaseSend { type := 0, dst := ep, src := 0xB0 + x.port, tag := x.ctag, len := x.len, addr := x.addr, pool := x.pool,
              stream := x.stream, slot := 0x1000, init := 0xB0 + x.port } d

/-- A RESERVE is taken; a disabled engine refuses it with cause 5 (R353, R564). -/
def takeReserve (q : Nat) (m : FMsg) (d : Device) : Device :=
  if d.forron.rx.any (frxIs m.src m.tag) then logMsg q 0x0412 m d
  else
    let x := frxOf d q m
    match frxDie x with
    | some die =>
      if bit d.trust.store.enEngine die then modForron (fun f => { f with rx := f.rx ++ [x] }) d
      else flAnswer 2 1 5 0 x d
    | none =>
      match reserveCause d x with
      | some cause =>
        flAnswer 2 1 cause 0 x (if cause = 4 && addrEp x.dst = 0xA8 then logTurnedAway x.stream x.addr x.len d else d)
      | none => pushReserve x d

def doForronReserve (n : Nat) : Device → Device := onInbox 1 n takeReserve

/-! ## FORRON_GRANT (R352, R355) -/

def modFchunk (p i : Nat) (tag : BitVec 12) (g : TxChunk → TxChunk) (d : Device) : Device :=
  modFTransfer p i (fun t => { t with chunks := modWhere (·.tag = tag) g t.chunks }) d

def modEchunk (die : Nat) (tag : BitVec 12) (g : TxChunk → TxChunk) (d : Device) : Device :=
  modForron (fun f => { f with engines := vmodN f.engines die fun o => o.map fun c =>
    { c with sent := modWhere (fun s => s.2.2.tag = tag) (fun s => (s.1, s.2.1, g s.2.2)) c.sent } }) d

/-- DATA messages of a chunk, in index order (R350, R352). -/
def dataMsgs (d : Device) (src dst : BitVec 27) (pinc : BitVec 16) (marker : Bool) (tag : BitVec 12) (v : List Byte) :
    List FMsg :=
  let n := (v.length + 223) / 224
  (List.range n).map fun k =>
    { mtype := 3, last := decide (k + 1 = n), marker := marker, index := k, tag := tag, src := src, dst := dst,
      sinc := d.forron.inc, pinc := pinc,
      payload := let w := (v.drop (224 * k)).take 224; w ++ bytesOf (224 - w.length) 0 }

def sendData (port : Nat) (l : List FMsg) (d : Device) : Device := l.foldl (fun d m => sendAt port none m d) d

/-- DATA message `k` of a chunk of `n` bytes carries bytes of the chase flit of index `flit`, counted round the chunk's flits. -/
def carriesFlit (n : Nat) (flit : BitVec 6) (k : Nat) : Bool :=
  let a := 64 * (flit.toNat % (n / 64))
  decide (224 * k < a + 64) && decide (a < 224 * k + 224)

/-- The DATA messages of a chunk that leave, where the chase flit of index `flit` fared as `cond` says on its way to the controller:
one that carries a flit that failed does not, and none after it where the transfer faults with it (R269, R347). -/
def unspoilt (n : Nat) (cond : HopCondition) (flit : BitVec 6) (l : List FMsg) : List FMsg :=
  match cond with
  | .ok => l
  | .uncorrectable _ => l.takeWhile fun m => !carriesFlit n flit m.index
  | _ => l.filter fun m => !carriesFlit n flit m.index

/-- The chunk of a transfer is read at its source, in the sender's part, and its DATA messages are sent (R352). -/
def forronSource (p : Nat) (t : FTransfer) (c : TxChunk) (pinc : BitVec 16) (i : Nat) (cond : HopCondition) (flit : BitVec 6)
    (d : Device) : Device :=
  let a := faSaddr t.desc + c.off
  match readForSend 3 p t.entry (faStream t.desc) (epUnit d t.src a) a c.len d with
  | (d, none) => d
  | (d, some v) =>
    let d := modFchunk p i c.tag (fun c => { c with grants := [0], pinc := pinc, sent := true, tally := tally v }) d
    sendData c.port (unspoilt c.len cond flit (dataMsgs d (ownAddr d p) (flDest t.desc) pinc (faMarker t.desc) c.tag v)) d

def engineSource (die : Nat) (c : Collective) (x : TxChunk) (pinc : BitVec 16) (cond : HopCondition) (flit : BitVec 6)
    (d : Device) : Device :=
  let a := colBase c + x.off
  match readForSend 3 c.press c.entry (colStream c) (epUnit d (colEp c) a) a x.len d with
  | (d, none) => d
  | (d, some v) =>
    let d := modEchunk die x.tag (fun x => { x with grants := [0], pinc := pinc, sent := true, tally := tally v }) d
    sendData x.port (unspoilt x.len cond flit (dataMsgs d (ownAddr d (0xE1 + die)) c.succ pinc false x.tag v)) d

/-- A GRANT can be taken now: one that grants a chunk waits until its source can be read (R261), and an engine's until its window is
open (R364). -/
def grantReady (d : Device) (m : FMsg) : Bool :=
  leAt m.payload 0 1 ≠ 0 ||
  match findFtx d (addrEp m.src) m.tag with
  | some (_, t, c) =>
    c.grants ≠ [] || sourceReady d (epUnit d t.src (faSaddr t.desc + c.off)) (faSaddr t.desc + c.off) c.len
  | none => match findEtx d (addrEp m.src) m.tag with
    | some (die, c, _, x) =>
      x.grants ≠ [] ||
        (colOpen d die c && sourceReady d (epUnit d (colEp c) (colBase c + x.off)) (colBase c + x.off) x.len)
    | none => true

def takeGrant (q : Nat) (m : FMsg) (cond : HopCondition) (flit : BitVec 6) (d : Device) : Device :=
  let status := leAt m.payload 0 1
  let cause := leAt m.payload 1 1
  match findFtx d (addrEp m.src) m.tag with
  | some (i, t, c) =>
    let p := addrEp m.src
    if c.grants ≠ [] then logMsg q 0x0411 m d
    else if status ≠ 0 then
      faultLink p 2 t.entry (faStream t.desc) 0x0404 { (sentDetail d t.links0 m.dst c 2 m.lseq) with cause := cause } d
    else forronSource p t c m.sinc i cond flit d
  | none => match findEtx d (addrEp m.src) m.tag with
    | some (die, c, step, x) =>
      if x.grants ≠ [] then logMsg q 0x0411 m d
      else if status ≠ 0 then
        faultLink c.press 2 c.entry (colStream c) (if cause = 5 then 0x0407 else 0x0404)
          { (sentDetail d c.links0 m.dst x 2 m.lseq) with cause := cause, coll := 16 * colRing c + colNum c, step := colWire c step } d
      else engineSource die c x m.sinc cond flit d
    | none => logMsg q 0x0411 m d

/-- The chunk that a GRANT names, with the task that its fault names: press, entry, stream and chunk (R352, R364). -/
def grantChunkOf (d : Device) (m : FMsg) : Option (Nat × QEntry × BitVec 12 × TxChunk) :=
  match findFtx d (addrEp m.src) m.tag with
  | some (_, t, c) => some (addrEp m.src, t.entry, faStream t.desc, c)
  | none => (findEtx d (addrEp m.src) m.tag).map fun r => (r.2.1.press, r.2.1.entry, colStream r.2.1, r.2.2.2)

/-- A GRANT is taken; where it grants and a chase flit of the chunk failed on its way to the controller, R269 applies to it
(R347). -/
def spoiltGrant (q : Nat) (cond : HopCondition) (flit : BitVec 6) (m : FMsg) (d : Device) : Device :=
  let unread := match grantChunkOf d m with | some r => r.2.2.2.grants = [] | none => false
  let d := takeGrant q m cond flit d
  match grantChunkOf d m with
  | none => d
  | some (p, e, stream, c) =>
    let x : ChDetail := { stream := stream.toNat, init := addrEp m.src, peer := 0xB0 + q, chunk := c.num }
    if !unread || !c.sent then d
    else match cond with
    | .ok => d
    | .parity => logError 1 (unitQuad q) (taskId d e.slot) 0x0612 (chDetail x) none (some stream) d
    | .misrouted r => logError 1 (epUnitAddr (epOf r.1)) (taskId d e.slot) 0x0613 (chDetail x) none (some stream) d
    | .uncorrectable s => faultStream p 2 e stream 0x0611 (unitSwitch s) { x with stream := 0xFFFF } d

/-- A GRANT waits where its source cannot be read yet. One that grants has its chunk read over the chase, which fares as `cond`
says (R269, R347, R352). -/
def doForronGrant (n : Nat) (cond : HopCondition) (flit : BitVec 6) (d : Device) : Device :=
  match inboxAt d n 2 with
  | none => d
  | some (_, m) => if grantReady d m then onInbox 2 n (fun q m => spoiltGrant q cond flit m) d else d

/-! ## The end of a transfer and of a collective (R352, R365) -/

def dropFTransfer (p i : Nat) (d : Device) : Device :=
  modPress p (fun x => { x with ftransfers := removeAt x.ftransfers i }) d

/-- Every chunk has its RECEIPT, the last in the flit of sequence number `seq`: the tally of R352, then the signal. -/
def endForron (p i : Nat) (t : FTransfer) (c : TxChunk) (seq : BitVec 12) (d : Device) : Device :=
  if faTmode t.desc = 1 && t.sum ≠ faTally t.desc then
    faultLink p 2 t.entry (faStream t.desc) 0x0402 (sentDetail d t.links0 (flDest t.desc) c 4 seq) d
  else
    let d := dropFTransfer p i d
    if t.sig then signalToken p 2 t.entry t.tok 1 d else d

/-- A chunk has its good RECEIPT. -/
def forronDone (p i : Nat) (c : TxChunk) (seq : BitVec 12) (d : Device) : Device :=
  let d := modFTransfer p i (fun t =>
    { t with chunks := t.chunks.filter (·.tag ≠ c.tag), done := t.done + c.len, sum := t.sum + c.tally }) d
  match ftransferAt d p i with
  | some t => if faBytes t.desc ≤ t.done then endForron p i t c seq d else d
  | none => d

/-- The bytes of a step-commit marker (R365). -/
def markerBytes (d : Device) (c : Collective) (sum : BitVec 64) : List Byte :=
  let t : Option Ticket := ticketOf d c.entry.slot
  leBytes 8 ((t.map Ticket.step).getD 0).toNat ++ leBytes 8 ((t.map Ticket.id).getD 0).toNat ++ leBytes 1 (colNum c)
    ++ leBytes 1 (colRing c) ++ leBytes 1 (colOp c) ++ leBytes 1 0 ++ leBytes 4 (colElems c) ++ leBytes 8 sum.toNat
    ++ bytesOf 32 0

/-- What stops an access of an engine before any byte of it moves: a blocked bank, or a retired granule (R310, R311). -/
def engineBars (c : Collective) (a n : Nat) (d : Device) : Option Device :=
  let ctx := { ctxOf c.press 2 c.entry none with stream := some (colStream c) }
  if colEp c = 0xA8 && hbmRetired d a n then some (faultRetired c.press c.entry (colStream c) (retiredAt d a n) d)
  else match epMem d (epOf (colEp c)) a with
    | some (id, l) => if memBlocked d id l n then some (faultBlocked c.entry.slot id l 3 (some (colStream c)) ctx d) else none
    | none => none

/-- Write bytes for an engine, piece by piece of its memory. -/
def engineWrite (c : Collective) (a : Nat) (v : List Byte) (d : Device) : Device × Bool :=
  let w := writerOf d c.entry.slot 3 (some (colStream c)) { ctxOf c.press 2 c.entry none with stream := some (colStream c) }
  match engineBars c a v.length d with
  | some d => (d, false)
  | none =>
    ((granules (v.length / 4096 + 2) a v.length).foldl (fun d ak =>
      match epMem d (epOf (colEp c)) ak.1 with
      | some (id, l) => writeMem id l ((v.drop (ak.1 - a)).take ak.2) 3 (some (colStream c)) (some w) d
      | none => d) d, true)

/-- Read bytes for an engine; an uncorrectable block faults the task (R308). -/
def engineRead (c : Collective) (a n : Nat) (d : Device) : Device × Option (List Byte) :=
  match engineBars c a n d with
  | some d => (d, none)
  | none =>
    (granules (n / 4096 + 2) a n).foldl (fun (s : Device × Option (List Byte)) ak =>
      match s.2 with
      | none => s
      | some v => match readForSend 3 c.press c.entry (colStream c) (epUnit s.1 (colEp c) ak.1) ak.1 ak.2 s.1 with
        | (d, some w) => (d, some (v ++ w))
        | (d, none) => (d, none)) (d, some [])

/-- Chunks that the collective receives in all. -/
def colExpected (c : Collective) : Nat :=
  (List.range (colSteps c)).foldl (fun a t => a + (colChunks c (colReceives c t)).length) 0

/-- The collective completes when every chunk is sent and received; it writes its marker and signals (R365). -/
def engineCheck (die : Nat) (d : Device) : Device :=
  match vgetN none d.forron.engines die with
  | none => d
  | some c =>
    if c.step < colSteps c || c.sent ≠ [] || c.done.length < colExpected c then d
    else
      let fin (d : Device) : Device :=
        let d := modForron (fun f => { f with engines := vmodN f.engines die fun _ => none }) d
        if bit c.entry.word 11 then signalToken c.press 2 c.entry (fieldN c.entry.word 10 5) 1 d else d
      if bit c.desc 87 then
        match engineRead c (colBase c) (4 * colElems c) d with
        | (d, none) => d
        | (d, some v) => match engineWrite c (fieldN c.desc 127 88) (markerBytes d c (tally v)) d with
          | (d, true) => fin d
          | (d, false) => d
      else fin d

/-! ## FORRON_DATA (R353, R355, R363) -/

/-- Element-wise sums: what came, then what is in the buffer (R363). -/
def addWords : Nat → List Byte → List Byte → List Byte
  | 0, _, _ => []
  | n + 1, a, b =>
    let x : Word := BitVec.ofNat 32 (leNat (a.take 4))
    let y : Word := BitVec.ofNat 32 (leNat (b.take 4))
    leBytes 4 (rne32 (valAdd false (v32 x) (v32 y))).toNat ++ addWords n (a.drop 4) (b.drop 4)

/-- A chunk for a sequence engine has come whole: it goes into the buffer, and its RECEIPT leaves. One that belongs to no step of the
engine's collective goes nowhere (R363, R364). -/
def engineCommit (die : Nat) (x : FRx) (d : Device) : Device :=
  match vgetN none d.forron.engines die with
  | none => dropFrx x d
  | some c => match colStepOf c x with
   | none => dropFrx x d
   | some t =>
    let a := colBase c + x.addr
    let r : Device × Option (List Byte) :=
      if colReduces c t then
        match engineRead c a x.len d with
        | (d, some b) => (d, some (addWords (x.len / 4) x.data b))
        | (d, none) => (d, none)
      else (d, some x.data)
    match r with
    | (d, none) => dropFrx x d
    | (d, some v) => match engineWrite c a v d with
      | (d, false) => dropFrx x d
      | (d, true) =>
        let d := modForron (fun f => { f with engines := vmodN f.engines die fun o => o.map fun c =>
          { c with done := c.done ++ [(t, x.chunk)] } }) d
        engineCheck die (flAnswer 4 0 0 (tally x.data).toNat x (dropFrx x d))

/-- Pass what has come of a chunk into the chase: the flits from number `k` on, and at the end the END (R353). -/
def passFlits (x : FRx) (k : Nat) (d : Device) : Device :=
  let ep := epUnit d (addrEp x.dst) x.addr
  let src := 0xB0 + x.port
  let d := ((flitsOf x.data).drop k).foldl (fun d f =>
    chaseSend { type := 3, dst := ep, src := src, tag := x.ctag, flit := f.1, len := x.len, stream := x.stream,
                data := f.2, slot := 0x1000, init := src } d) d
  if x.data.length = x.len then
    chaseSend { type := 4, dst := ep, src := src, tag := x.ctag, len := x.len, stream := x.stream, tally := tally x.data,
                slot := 0x1000, init := src } (modFrx x (fun x => { x with passed := true }) d)
  else d

/-- Free the chase space of a controller's chunk (R353, R354). -/
def cancelPush (x : FRx) (d : Device) : Device :=
  match frxDie x with
  | some _ => d
  | none => chaseSend { type := 6, dst := epUnit d (addrEp x.dst) x.addr, src := 0xB0 + x.port, tag := x.ctag,
                        stream := x.stream, slot := 0x1000, init := 0xB0 + x.port } d

/-- The bytes that a DATA message may carry of a chunk: none where it reaches beyond the granted length (R355). -/
def dataFits (x : FRx) (m : FMsg) : Option (List Byte) :=
  let off := 224 * m.index
  if x.len ≤ off then none
  else
    let n := min 224 (x.len - off)
    if (m.payload.drop n).all (· == 0#8) then some (m.payload.take n) else none

/-- The fields of R367 for a chunk at its receiver. -/
def frxDetail (d : Device) (q : Nat) (x : FRx) : FlDetail :=
  { (flDuring d q (x.retrains, x.peer0) {}) with
    stream := x.stream.toNat, partner := x.src.toNat, tag := x.tag.toNat,
    chunk := x.chunk, state := 2, coll := leAt x.coll 0 1, step := leAt x.coll 2 4 }

/-- FL_OVERSIZE names the chunk (R355, R367). -/
def logOversize (q : Nat) (m : FMsg) (x : FRx) (d : Device) : Device :=
  logPlain (unitQuad q) 0x0403 (flDetail { (frxDetail d q x) with mtype := 3, seq := m.lseq.toNat }) d

def takeData (q : Nat) (m : FMsg) (d : Device) : Device :=
  match d.forron.rx.find? (frxIs m.src m.tag) with
  | none => logMsg q 0x0411 m d
  | some x =>
    if !x.granted then logMsg q 0x0411 m d
    else match dataFits x m with
      | none => logOversize q m x (flAnswer 4 2 0 0 x (cancelPush x (dropFrx x d)))
      | some v =>
        if m.index ≠ x.index then logMsg q 0x0412 m d
        else
          let k := x.data.length / 64
          let x := { x with data := x.data ++ v, index := x.index + 1, holdBy := holdDue d }
          let d := modFrx x (fun _ => x) d
          match frxDie x with
          | some die => if x.data.length = x.len then engineCommit die x d else d
          | none => passFlits x k d

/-- The HBM buffer of an engine's chunk can be written now: its buses issue (R296). -/
def dataReady (d : Device) (m : FMsg) : Bool :=
  match d.forron.rx.find? (frxIs m.src m.tag) with
  | none => true
  | some x => match (frxDie x).bind fun die => vgetN none d.forron.engines die with
    | some c => colEp c ≠ 0xA8 || !hbmWaits d (colBase c + x.addr) x.len
    | none => true

def doForronData (n : Nat) (d : Device) : Device :=
  match inboxAt d n 3 with
  | none => d
  | some (_, m) => if dataReady d m then onInbox 3 n takeData d else d

/-! ## RECEIPT (R352, R355) -/

/-- The code of a bad RECEIPT; none where it is good. -/
def receiptCode (status : Nat) (sum own : BitVec 64) : Option (BitVec 16) :=
  if status = 2 then some 0x0403 else if status = 1 || sum ≠ own then some 0x0402 else none

def takeReceipt (q : Nat) (m : FMsg) (d : Device) : Device :=
  let status := leAt m.payload 0 1
  let sum : BitVec 64 := BitVec.ofNat 64 (leAt m.payload 4 8)
  match findFtx d (addrEp m.src) m.tag with
  | some (i, t, c) =>
    let p := addrEp m.src
    if !c.sent then logMsg q 0x0411 m d
    else match receiptCode status sum c.tally with
      | some code => faultLink p 2 t.entry (faStream t.desc) code (sentDetail d t.links0 m.dst c 4 m.lseq) d
      | none => forronDone p i c m.lseq d
  | none => match findEtx d (addrEp m.src) m.tag with
    | some (die, c, step, x) =>
      if !x.sent then logMsg q 0x0411 m d
      else match receiptCode status sum x.tally with
        | some code =>
          faultLink c.press 2 c.entry (colStream c) code
            { (sentDetail d c.links0 m.dst x 4 m.lseq) with coll := 16 * colRing c + colNum c, step := colWire c step } d
        | none =>
          engineCheck die (setEngine die { c with sent := c.sent.filter fun s => s.2.2.tag ≠ m.tag } d)
    | none => logMsg q 0x0411 m d

def doReceipt (n : Nat) : Device → Device := onInbox 4 n takeReceipt

/-! ## CANCEL, grant_hold and deadlines (R354) -/

def takeCancel (q : Nat) (m : FMsg) (d : Device) : Device :=
  match d.forron.rx.find? (frxIs m.src m.tag) with
  | some x => if x.granted then cancelPush x (dropFrx x d) else logMsg q 0x0411 m d
  | none => logMsg q 0x0411 m d

def doForronCancel (n : Nat) : Device → Device := onInbox 5 n takeCancel

/-- grant_hold has passed since the GRANT, the last DATA, or the arrival of a RESERVE that waits for its engine. -/
def holdPassed (d : Device) (x : FRx) : Bool := x.holdBy ≤ d.now

def doGrantHold (n : Nat) (d : Device) : Device :=
  match d.forron.rx[n]? with
  | none => d
  | some x =>
    if !holdPassed d x || x.passed then d
    else if x.granted then
      logPlain (unitQuad x.port) 0x0413 (flDetail (frxDetail d x.port x)) (cancelPush x (dropFrx x d))
    else match frxDie x with
      | some die =>
        if (vgetN none d.forron.engines die).isNone then flAnswer 2 1 1 0 x (dropFrx x d) else d
      | none => d

/-- What the oldest chunk of the sender at `src` waits for (R367): its window, where `window` says so and its RESERVE has not
left. -/
def chunkState (d : Device) (src : BitVec 27) (l : List TxChunk) (window : Bool) : Nat :=
  match l with
  | [] => if window then 0 else 0xFF
  | c :: _ => if waitsToSend d 1 src c.tag then (if window then 0 else 0xFF) else if c.sent then 3 else if c.grants ≠ [] then 2 else 1

/-- The record of a Forron transfer that its deadline finds incomplete: the port and the partner of the chunk that it waits for
(R366, R367). -/
def transferLost (d : Device) (p : Nat) (t : FTransfer) : FlDetail :=
  let dst := flDest t.desc
  let port := match t.chunks with
    | c :: _ => some c.port
    | [] => originPort d (p / 64) dst t.nextNum
  let x : FlDetail := match t.chunks with
    | c :: _ => sentDetail d t.links0 dst c 0 0
    | [] => match port with
      | some q => { (flDuring d q (nth (0, 0) t.links0 q) {}) with partner := dst.toNat, chunk := t.nextNum }
      | none => { partner := dst.toNat, chunk := t.nextNum }
  let closed := match port with
    | some q => !portWindow d t.entry.slot (faWindow t.desc) q
    | none => false
  { x with state := chunkState d (ownAddr d p) t.chunks closed }

/-- A collective has sent for all that it may, and waits for a chunk of its predecessor's. -/
def waitsPred (c : Collective) : Bool :=
  c.sent = [] && (decide (colSteps c ≤ c.step) || !colMaySend c c.step c.chunk)

/-- The record of a collective that its deadline finds incomplete: the partner is the predecessor where it waits to receive, else
the successor. -/
def collectiveLost (d : Device) (die : Nat) (c : Collective) : FlDetail :=
  let peer := if waitsPred c then c.pred else c.succ
  let x : FlDetail := match c.sent with
    | s :: _ => { (sentDetail d c.links0 c.succ s.2.2 0 0) with step := colWire c s.1 }
    | [] =>
      let y : FlDetail := match originPort d die peer c.chunk with
        | some q => flDuring d q (nth (0, 0) c.links0 q) {}
        | none => {}
      { y with partner := peer.toNat, chunk := c.chunk, step := colWire c c.step }
  { x with state := chunkState d (ownAddr d (0xE1 + die)) (c.sent.map (·.2.2)) (!waitsPred c && !colOpen d die c), coll := 16 * colRing c + colNum c }

def doForronDeadline (s : ForronSender) (d : Device) : Device :=
  match s with
  | .transfer p i =>
    match ftransferAt d p.1 i with
    | none => d
    | some t =>
      if d.now < t.deadline then d
      else faultLink p.1 2 t.entry (faStream t.desc) 0x0401 (transferLost d p.1 t) d
  | .engine die =>
    match vgetN none d.forron.engines die.1 with
    | none => d
    | some c =>
      if d.now < c.deadline then d
      else faultLink c.press 2 c.entry (colStream c) 0x0401 (collectiveLost d die.1 c) d

/-! ## The commands -/

def execLinkDispatch (p : PressId) (s : State) : Host.Outcome State Fault Refusal := onDev (doLinkDispatch p.1) s
def execCollectiveDispatch (p : PressId) (s : State) : Host.Outcome State Fault Refusal :=
  onDev (doCollectiveDispatch p.1) s
def execForronChunkRequest (sender : ForronSender) (s : State) : Host.Outcome State Fault Refusal :=
  onDev (doForronChunkRequest sender) s
def execForronReserve (msg : Nat) (s : State) : Host.Outcome State Fault Refusal := onDev (doForronReserve msg) s
def execForronGrant (msg : Nat) (s : State) (cond : HopCondition := .ok) (flit : BitVec 6 := 0) :
    Host.Outcome State Fault Refusal :=
  onDev (doForronGrant msg cond flit) s
def execForronData (msg : Nat) (s : State) : Host.Outcome State Fault Refusal := onDev (doForronData msg) s
def execReceipt (msg : Nat) (s : State) : Host.Outcome State Fault Refusal := onDev (doReceipt msg) s
def execForronCancel (msg : Nat) (s : State) : Host.Outcome State Fault Refusal := onDev (doForronCancel msg) s
def execGrantHoldExpired (chunk : Nat) (s : State) : Host.Outcome State Fault Refusal := onDev (doGrantHold chunk) s
def execForronDeadline (sender : ForronSender) (s : State) : Host.Outcome State Fault Refusal :=
  onDev (doForronDeadline sender) s

end Sys2Proof.Machine
end

