-- ==== Sys2Proof/Machine/Hbm.lean ====
section
/-!
DEFINITION. Machine/Hbm.lean: requests to the HBM stacks, command parity and replay, coalescing tables, the XG7200 bucket,
temperature, and fills (08_memory_and_stored_data.md R285 to R298, R305 to R315, R319, R320).
-/
namespace Sys2Proof.Machine

/-! ## HBM_REQUEST (R287 to R289, R299, R300) -/

/-- Bits of a block that the array has inverted: data and check word. The code is linear, so the difference between the
stored check word and the code of the stored data changes by the code of the data bits and by the check bits. -/
def flipBlock (m : Mem) (b : Nat) (data : BitVec 256) (chk : BitVec 32) : Mem :=
  if data = 0 && chk = 0 then m
  else
    let v := memBlock m b ^^^ data
    let s := smapGet 0 m.syn b ^^^ checkWord data ^^^ chk
    { m with bytes := rawPut m.bytes (32 * b) (leBytes 32 v.toNat), syn := smapSet 0 m.syn b s }

/-- The flips of the two blocks of a 64-byte unit. -/
def flipUnit (m : Mem) (unit : Nat) (f : BitVec 576) : Mem :=
  flipBlock (flipBlock m (2 * unit) (f.extractLsb' 0 256) (f.extractLsb' 256 32)) (2 * unit + 1)
    (f.extractLsb' 288 256) (f.extractLsb' 544 32)

def modBus (n b : Nat) (g : HbmBus → HbmBus) (d : Device) : Device :=
  modStack n (fun s => { s with buses := vmodN s.buses b g }) d

/-- The unit's granule is retired (R310). -/
def unitRetired (d : Device) (n unit : Nat) : Bool := hbmRetired d (hbmUnmap d.part n (64 * unit)) 64

/-- The queue of the unit's pseudo-channel has no room for one more request of the kind: 32 reads and 32 writes (R287). -/
def queueFull (d : Device) (n unit : Nat) (write : Bool) : Bool :=
  decide (32 ≤ (((vgetN {} (stack d n).queues (unitPc unit)).waiting.filter fun c => isWrite c = write).length))

/-- Accept a request into its queue: whole blocks are written with new check words; a read passes the mending stage. -/
def serveHbm (n unit : Nat) (r : HbmReq) (d : Device) : Device :=
  match r.write with
  | some v => writeMem (.hbm n) (64 * unit) (leBytes 64 v.toNat) 0xFF none none d
  | none =>
    match readMem (.hbm n) (64 * unit) 64 0xFF none (noteHbm (.hbm n) (64 * unit) 64 false 0xFF none d) with
    | (d, _, none) => d
    | (d, _, some e) => logStored (.hbm n) 0xFF none e d

/-- A request to a stack that is Ready, in the order of arrival of R287: requests of one cycle come in the order of their chase
ports, the host link last. One for a full queue is not accepted; one that touches a retired granule is not passed to the stack
(R310). -/
def doHbmRequest (n : Nat) (r : HbmReq) (d : Device) : Device :=
  let unit := r.unit.toNat
  if (stack d n).state ≠ .ready || !domainOn d (144 + n) || queueFull d n unit r.write.isSome then d
  else
    let d := modStack n (fun s => { s with mem := flipUnit s.mem unit r.flips }) d
    if unitRetired d n unit then
      logPlain (unitStack n) 0x0512 (sdDetail d (.hbm n) (64 * unit) 0 0xFF 0 0 1 none) d
    else serveHbm n unit r d

/-! ## Coalescing tables and the bucket (R305, R307) -/

/-- The memory whose table a unit keeps. -/
def coalUnit : CoalesceUnit → MemId
  | .hbm n => .hbm n.1
  | .galley p => .galley p.1
  | .forme f => .case f.1

/-- An entry is 100 sheets old (R305). -/
def coalOld (d : Device) (e : CoalEntry) : Bool := e.opened + 100 * 4096 ≤ d.now

/-- While the bucket is on, no SD_CORRECTED record is written, an expiring entry's summary neither (R305, R307). -/
def doCoalesceExpire (u : CoalesceUnit) (i : Nat) (d : Device) : Device :=
  let id := coalUnit u
  let t := coalGet d id
  match t[i]? with
  | none => d
  | some e =>
    if coalOld d e then
      let d := coalSet id (removeAt t i) d
      if d.hbm.bucketOn then d else coalExpire id e d
    else d

def modHbm (g : HbmCommon → HbmCommon) (d : Device) : Device := { d with hbm := g d.hbm }

/-- The leak is due: leak_sheets sheets after the last (R307, R320). -/
def leakDue (d : Device) : Bool := d.hbm.bucketOn && decide (d.hbm.leaked + max 1 d.hbm.leakSheets.toNat ≤ d.sheet)

def doBucketLeak (d : Device) : Device :=
  if leakDue d then
    modHbm (fun h => { h with level := if h.level = 0 then 0 else h.level - 1,
                              leaked := h.leaked + max 1 h.leakSheets.toNat }) d
  else d

/-- Every coalescing table starts empty (R307). -/
def emptyTables (d : Device) : Device :=
  { d with hbmStacks := d.hbmStacks.map (fun s => { s with coal := [] }),
           presses := d.presses.map (fun x => { x with coal := [] }),
           formes := d.formes.map (fun x => { x with coal := [] }) }

/-- HB_BUCKET_CTRL takes a written value (R307, R320). -/
def doBucketCtrl (v : Word) (d : Device) : Device :=
  let on := bit v 31
  let was := d.hbm.bucketOn
  let d := modHbm (fun h => { h with bucketOn := on, leakSheets := field v 27 16, threshold := field v 15 0,
                                     leaked := if on && !was then d.sheet else h.leaked,
                                     level := if was && !on then 0 else h.level }) d
  if was && !on then emptyTables d else d

/-! ## Temperature (R291) -/

def doHbmHot (n : Nat) (hot : Bool) (d : Device) : Device :=
  if stackPresent d.part n && domainOn d (144 + n) then modStack n (fun s => { s with hot := hot }) d else d

/-! ## Command parity and replay (R296 to R298) -/

/-- The detail of a replay's record: the bus's first pseudo-channel, and no block (R316). -/
def busDetail (bus attempts : Nat) : BitVec 256 :=
  dput 34 0xFF <| dput 35 attempts <| dput 48 1 <| dput 52 0xFFFF <| dput 54 (2 * bus) 0

/-- One more replay on a bus (R297). -/
def startReplay (n b attempts : Nat) (d : Device) : Device :=
  let d := modBus n b (fun x => { x with active := true, attempts := attempts, lastEnd := none }) d
  let d := modStack n (fun s => { s with replays := satAdd s.replays 1 }) d
  logPlain (unitStack n) 0x0520 (busDetail b attempts) d

/-- What a unit holds after a failed write: the bytes before it, those after it, or a block that the code finds bad
(R298). A newer write of the unit that waits in its queue has not failed, and its bytes stand (R289). -/
def spoilUnit (n : Nat) (d : Device) (c : RetryCmd) : Device :=
  match c.old with
  | none => d
  | some v =>
    if (vgetN {} (stack d n).queues (unitPc c.unit)).waiting.any fun k => isWrite k && k.unit = c.unit then d
    else
    match takeFree 2 d with
    | (k, d) =>
      if k = 0 then modStack n (fun s => { s with mem := (memWrite s.mem (64 * c.unit) (leBytes 64 v.toNat)).1 }) d
      else if k = 1 then d
      else modStack n (fun s =>
        { s with mem := { s.mem with syn := smapSet 0 (smapSet 0 s.mem.syn (2 * c.unit) 3) (2 * c.unit + 1) 3 } }) d

/-- The ticket whose imposition is being read will be refused (R308). -/
def loseAdmission (d : Device) : Device :=
  modMk (fun m => { m with admission := m.admission.map fun a => { a with lost := true } }) d

/-- One request of the retry buffer fails: its requester receives the error (R298, R308). A refresh is no request. -/
def failCommand (n attempts : Nat) (d : Device) (c : RetryCmd) : Device :=
  if c.refresh then d
  else
    let d := if c.req = 4 then loseAdmission d else d
    noteFail ⟨0x0521, .hbm n, 64 * c.unit, 8, attempts, 0, c.who, c.req⟩ (countUe (.hbm n) (spoilUnit n d c))

/-- A fourth alert: every request with a command in the buffer fails, and the bus retrains (R298). -/
def escalateBus (n b : Nat) (d : Device) : Device :=
  let l := (vgetN {} (stack d n).buses b).retry
  let d := modBus n b (fun x => { x with active := false, attempts := 0, lastEnd := none, training := true, retry := [] }) d
  let d := modStack n (fun s => { s with fatal := satAdd s.fatal 1 }) d
  l.foldl (failCommand n 3) d

/-- An alert belongs to the replay before it: during that replay, or within 48 points after it (R297). -/
def sameReplay (now : Nat) (b : HbmBus) : Bool :=
  b.active || (match b.lastEnd with | some t => decide (now ≤ t + 48) | none => false)

def doParityAlert (n b : Nat) (d : Device) : Device :=
  let x := vgetN {} (stack d n).buses b
  if !stackPresent d.part n || !domainOn d (144 + n) || x.training then d
  else
    let k := if sameReplay d.now x then x.attempts else 0
    if 3 ≤ k then escalateBus n b d else startReplay n b (k + 1) d

/-- The bus resumes: what its two pseudo-channels hold is issued (R296, R298). A replay reissues what it had issued: the same data
(R297). -/
def resumeBus (n b : Nat) (d : Device) : Device :=
  modStack n (fun s => stackIssue (2 * b + 1) (stackIssue (2 * b) s)) d

def doReplayDone (n b : Nat) (d : Device) : Device :=
  let x := vgetN {} (stack d n).buses b
  if x.training then resumeBus n b (modBus n b (fun x => { x with training := false }) d)
  else if x.active then resumeBus n b (modBus n b (fun x => { x with active := false, lastEnd := some d.now }) d)
  else d

def doHbClearCounts (n : Nat) (d : Device) : Device :=
  modStack n (fun s => { s with ce := 0, ue := 0, replays := 0, fatal := 0 }) d

/-! ## Fills (R295, R313 to R315) -/

/-- No fill of a device reset is outstanding: every present stack has filled, and every forme that is on (R313). -/
def fillsDone (d : Device) : Bool :=
  (List.range 8).all (fun n => (stack d n).state ≠ .filling)
    && (List.range 16).all fun f => !(domainOn d (128 + f) && (forme d f).filling)

/-- Compositors of filled formes that are on become Idle, once every fill is complete (R178, R313). -/
def releaseFormes (d : Device) : Device :=
  if fillsDone d then
    (List.range 16).foldl (fun d f =>
      let x := forme d f
      if x.state = .off && !x.filling && domainOn d (128 + f) then modForme f (fun x => { x with state := .idle }) d else d) d
  else d

/-- The domain has power and waits for its fill or its controller to complete its wake. -/
def wakingFill (d : Device) (n : Nat) : Bool := (domain d n).dstate = .waking && (domain d n).ramp.isNone

/-- A stack's fill, or its controller's wake, completes (R295, R313). -/
def stackFilled (n : Nat) (d : Device) : Device :=
  if (stack d n).state = .filling || wakingFill d (144 + n) then
    let d := modStack n (fun s => { s with state := .ready }) d
    let d := if wakingFill d (144 + n) then domainUp (144 + n) d else d
    releaseFormes d
  else d

/-- A forme's case and compositor memories are filled (R313, R315). -/
def formeFilled (f : Nat) (d : Device) : Device :=
  if (forme d f).filling && (domainOn d (128 + f) || wakingFill d (128 + f)) then
    let d := modForme f (fun x => { x with filling := false, case := {}, imem := {}, xmem := {}, ymem := {} }) d
    let d := if wakingFill d (128 + f) then domainUp (128 + f) d else d
    releaseFormes d
  else d

/-- A galley is filled, and its press is on (R315). -/
def galleyFilled (p : Nat) (d : Device) : Device :=
  if wakingFill d p then domainUp p (modPress p (fun x => { x with galley := {} }) d) else d

def doFillDone (u : FillUnit) : Device → Device :=
  match u with
  | .stack n => stackFilled n.1
  | .forme f => formeFilled f.1
  | .galley p => galleyFilled p.1

/-! ## The commands -/

def execHbmRequest (stack : StackId) (req : HbmReq) (s : State) : Host.Outcome State Fault Refusal :=
  onDev (doHbmRequest stack.1 req) s
def execCoalesceExpire (mem : CoalesceUnit) (entry : Nat) (s : State) : Host.Outcome State Fault Refusal :=
  onDev (doCoalesceExpire mem entry) s
def execBucketLeak (s : State) : Host.Outcome State Fault Refusal := onDev doBucketLeak s
def execHbBucketCtrlWrite (value : Word) (s : State) : Host.Outcome State Fault Refusal :=
  onHost (.hbBucketCtrlWrite value) (doBucketCtrl value) s
def execHbmHot (stack : StackId) (hot : Bool) (s : State) : Host.Outcome State Fault Refusal :=
  onDev (doHbmHot stack.1 hot) s
def execCmdParityAlert (stack : StackId) (bus : BusId) (s : State) : Host.Outcome State Fault Refusal :=
  onDev (doParityAlert stack.1 bus.1) s
def execReplayDone (stack : StackId) (bus : BusId) (s : State) : Host.Outcome State Fault Refusal :=
  onDev (doReplayDone stack.1 bus.1) s
def execHbClearCounts (stack : StackId) (s : State) : Host.Outcome State Fault Refusal :=
  onHost (.hbClearCounts stack) (doHbClearCounts stack.1) s
def execFillDone (unit : FillUnit) (s : State) : Host.Outcome State Fault Refusal := onDev (doFillDone unit) s

end Sys2Proof.Machine
end

