-- ==== Sys2Proof/Machine/Host.lean ====
section
/-!
DEFINITION. Machine/Host.lean: the host's windows, the completions of host reads, rings, proof queues and the host link
(13_host_interface.md R464 to R496).
-/
namespace Sys2Proof.Machine

/-! ## The HBM window (R471, R308, R310, R314) -/

/-- The stacks that a range touches. -/
def rangeStacks (d : Device) (a n : Nat) : List Nat := (granules (n / 4096 + 2) a n).map fun ak => (hbmMap d.part ak.1).1

/-- HB_NOT_READY of a request at `a` (R314). -/
def logNotReady (a : Nat) (d : Device) : Device :=
  let (s, l) := hbmMap d.part a
  logPlain (unitStack s) 0x0522 (sdDetail d (.hbm s) l 0 5 0 0 1 none) d

/-- How a window request finds its stacks: it waits for a stack that no service is free for (R472), that trains, or that is not
on. -/
inductive WindowState where
  | beyond | filling | waits | ready
  deriving DecidableEq, Repr

def windowState (d : Device) (a n : Nat) : WindowState :=
  if hbmBytes d.part < a + n then .beyond
  else
    let st := (rangeStacks d a n).map fun s => (stack d s).state
    if st.any (· = .filling) then .filling
    else if st.all (· = .ready) && !hbmWaits d a n && !(rangeStacks d a n).any (stackClaimed d) then .ready
    else .waits

/-- A window request acts at the address it has taken, or at the one its offset has now. -/
def atWindow (o : BitVec 36) (at? : Option Nat) (g : Nat → Device → Device) (d : Device) : Device :=
  match at? with
  | some a => g a d
  | none => g (windowAddr d o) d

/-- A window request takes a chunk service of each of its stacks (R259, R472). -/
def windowServices (a n : Nat) (d : Device) : Device :=
  (rangeStacks d a n).eraseDups.foldl (fun d s => noteService (.hbm s) (0x1000, 0) d) d

/-- A window read that has its services. -/
def windowAnswer (a n : Nat) (d : Device) : Device :=
  if hbmRetired d a n then completePoisoned .pf1 n (logRetired (retiredAt d a n) 5 d)
  else match readHbm a n 5 none (noteRead a n 5 none d) with
    | (d, _, some (id, e)) => completePoisoned .pf1 n (logStored id 5 none e d)
    | (d, v, none) => complete .pf1 (.data v) d

/-- A window read at address `a`. -/
def windowReadAt (o : BitVec 36) (a n : Nat) (d : Device) : Device :=
  match windowState d a n with
  | .waits => holdLink (.windowRead o (some a) n) d
  | .beyond => complete .pf1 .abort (logHost 0x0708 d)
  | .filling => complete .pf1 .abort (logNotReady a d)
  | .ready => windowAnswer a n (windowServices a n d)

/-- A read of offset `o` of the HBM window, at the address it has taken, or that it takes now. -/
def doWindowRead (o : BitVec 36) (at? : Option Nat) (n : Nat) (d : Device) : Device :=
  if !d.host.linkUp then d
  else if bit d.host.flr 1 then complete .pf1 .unsupported d
  else atWindow o at? (fun a => windowReadAt o a n) d

/-- Write one piece of a window write that lies in one granule. -/
def windowPiece (a : Nat) (v : List Byte) (d : Device) : Device :=
  if hbmRetired d a v.length then logRetired (retiredAt d a v.length) 5 d
  else writeHbm a v 5 none none d

/-- Write every piece of a window write, granule by granule. -/
def windowPieces (a : Nat) (v : List Byte) (d : Device) : Device :=
  (granules (v.length / 4096 + 2) a v.length).foldl (fun d ak =>
    windowPiece ak.1 ((v.drop (ak.1 - a)).take ak.2) d) d

/-- A window write at address `a`. -/
def windowWriteAt (o : BitVec 36) (a : Nat) (v : List Byte) (d : Device) : Device :=
  match windowState d a v.length with
  | .waits => holdLink (.windowWrite o (some a) v false) d
  | .beyond => logHost 0x0708 d
  | .filling => logNotReady a d
  | .ready => windowPieces a v (windowServices a v.length d)

/-- A write to offset `o` of the HBM window, at the address it has taken, or that it takes now. -/
def doWindowWrite (o : BitVec 36) (at? : Option Nat) (v : List Byte) (poisoned : Bool) (d : Device) : Device :=
  hostWrite .pf1 poisoned (fun d => if fnServes d .pf1 then atWindow o at? (fun a => windowWriteAt o a v) d else d) d

/-! ## The user window (R473) -/

def userRegion (offset : BitVec 28) : Nat := fieldN offset 27 23
def userOffset (offset : BitVec 28) : Nat := fieldN offset 22 0

/-- The slot names a configured region. -/
def userOk (d : Device) (r : Nat) : Bool := decide (r < 24) && bit d.cf.regions r

def addUser (q : UserReq) (d : Device) : Device :=
  modHost (fun h => { h with user := h.user ++ [q], userNext := h.userNext + 1 }) d

def doUserWrite (offset : BitVec 28) (v : List Byte) (poisoned : Bool) (d : Device) : Device :=
  let r := userRegion offset
  let o := userOffset offset
  let n := d.host.userNext
  if !fnServes d .pf2 then d
  else if poisoned then poisonedWrite .pf2 d
  else if !userOk d r || o % 64 ≠ 0 || v.length % 64 ≠ 0 || v = [] then logHost 0x070A d
  else
    let d := addUser ⟨n, r, o, v.length, true, v, d.now⟩ d
    modPort r (fun x => { x with pushes := x.pushes ++
      [{ origin := .user n, chan := 0, stream := 0xFFF, addr := o, data := v }] }) d

def doUserRead (offset : BitVec 28) (len : Nat) (d : Device) : Device :=
  let r := userRegion offset
  let o := userOffset offset
  let n := d.host.userNext
  if !d.host.linkUp then d
  else if bit d.host.flr 2 then complete .pf2 .unsupported d
  else if !userOk d r || 512 < len then complete .pf2 .abort (logHost 0x070A d)
  else
    let d := addUser ⟨n, r, o, len, false, [], d.now⟩ d
    modPort r (fun x => { x with reads := x.reads ++
      [{ origin := .user n, chan := 0, stream := 0xFFF, addr := o / 64 * 64, units := max 1 ((o % 64 + len + 63) / 64) }] }) d

/-- A user-window request leaves its region port, where it has not yet been taken there. -/
def withdrawUser (q : UserReq) (d : Device) : Device :=
  modPort q.region (fun x =>
    { x with pushes := x.pushes.filter fun u => !(u.origin = .user q.serial && u.beats = 0),
             reads := x.reads.filter fun u => !(u.origin = .user q.serial && !u.accepted) }) d

def doUserTimeout (i : Nat) (d : Device) : Device :=
  match d.host.user[i]? with
  | none => d
  | some q =>
    if q.arrived + 4096 ≤ d.now then
      let d := logHost 0x0709 (withdrawUser q (dropUser q.serial d))
      if q.write then d else complete .pf2 .abort d
    else d

/-! ## Completions of host reads (R474, R475) -/

/-- A pull from host memory fails: its task faults with HI_HOST_READ at the initiating press (R595). -/
def pullFails (m : ChaseMsg) (d : Device) : Device :=
  match findTx d m.init m.tag with
  | none => d
  | some (_, t, _) =>
    faultTask t.entry.slot 0x0706 (unitPress m.init) { ctxOf m.init 2 t.entry none with stream := some m.stream } none d

def doHostCompletion (i : Nat) (r : HostReadResult) (d : Device) : Device :=
  match d.chase.hostPulls[i]? with
  | none => d
  | some m =>
    let d' := modChase (fun c => { c with hostPulls := removeAt c.hostPulls i }) d
    match r with
    | .failed => pullFails m d'
    | .poisoned => pullFails m (notePoison .pf1 d')
    | .data v =>
      if v.length ≠ m.len then d
      else match findTx d' m.init m.tag with
        | none => d'
        | some _ => sendFlits m.dst [m.rcv] m.tag m.stream m.slot m.init v d'

/-! ## Rings (R482, R495) -/

/-- A ticket of ring `r` is in progress: being read or being handled. -/
def ringBusy (d : Device) (r : Nat) : Bool :=
  (match d.host.reading with | some (q, _, _) => decide (q = r) | none => false)
    || (match d.mkr.admission with | some a => decide (a.ring = r) | none => false)

/-- Action 0009h (R570). -/
def logRing (r : Nat) (on : Bool) (d : Device) : Device :=
  logAct 9 1 0 0 1 (0x1000 * r + 8) (dput 32 r (dput 33 (b2n on) 0)) d

/-- A write of HI_RING_CFG. -/
def doRingEnable (r : Nat) (v : Word) (d : Device) : Device :=
  let x := vgetN {} d.host.rings r
  let size := fieldN v 12 0
  if !fnServes d .pf1 then d
  else if x.enable then
    if bit v 31 || x.closing then d
    else
      let d := logRing r false d
      if ringBusy d r then modRing r (fun x => { x with closing := true }) d
      else modHost (fun h => { h with doorbells := h.doorbells.filter (·.ring ≠ r) })
        (modRing r (fun x => { x with enable := false }) d)
  else if size < 2 || 4096 < size then d
  else
    let d := modRing r (fun x => { x with pq := field v 18 16, size := field v 12 0 }) d
    if bit v 31 then logRing r true (modRing r (fun x => { x with enable := true, head := 0, tail := 0 }) d) else d

/-! ## Proof queues (R487, R491, R495) -/

/-- A write of HI_PQ_CFG. -/
def doPqEnable (q : Nat) (v : Word) (d : Device) : Device :=
  let k := fieldN v 20 16
  if !fnServes d .pf1 || k < 4 || 16 < k then d
  else
    let was := (pqueue d q).enable
    let d := modPq q (fun x => { x with enable := bit v 31, vector := field v 29 24, log2size := field v 20 16,
                                        holdoff := field v 15 0 }) d
    if bit v 31 && !was then
      roomPq q (modPq q (fun x => { x with head := 0, tail := 0, phase := true, holding := [] }) d)
    else d

def doPqHead (q : Nat) (h : BitVec 16) (d : Device) : Device :=
  if !fnServes d .pf1 || pqSlots (pqueue d q) ≤ h.toNat then d
  else roomPq q (modPq q (fun x => { x with head := h }) d)

def doHoldoffEnd (q : Nat) (d : Device) : Device :=
  let x := pqueue d q
  match x.holdUntil with
  | none => d
  | some t =>
    if d.now < t then d
    else
      let d := modPq q (fun x => { x with holdUntil := none }) d
      if x.pendingV && x.head ≠ x.tail then
        modPq q (fun x => { x with pendingV := false }) (startHoldoff q (sendVector x.vector.toNat d))
      else d

/-! ## The link (R493, R496) -/

def doLinkDown (d : Device) : Device :=
  modHost (fun h => { h with linkUp := false, linkRate := 0, linkWidth := 0, linkFlit := false }) d

/-- The link is up: waiting proof records are written. -/
def doLinkUp (rate width : BitVec 4) (flit : Bool) (d : Device) : Device :=
  let d := modHost (fun h => { h with linkUp := true, linkRate := rate, linkWidth := width, linkFlit := flit }) d
  (List.range 8).foldl (fun d q => roomPq q d) d

/-- A Function Level Reset finishes. -/
def doFlrComplete (fn : Nat) (d : Device) : Device :=
  modHost (fun h => { h with flr := setField h.flr fn fn 0 }) d

/-! ## The commands -/

def execHbmWindowRead (offset : BitVec 36) (len : BitVec 13) (s : State) : Host.Outcome State Fault Refusal :=
  onDev (onLink (.windowRead offset none len.toNat) (doWindowRead offset none len.toNat)) s
def execHbmWindowWrite (offset : BitVec 36) (data : List Byte) (poisoned : Bool) (s : State) :
    Host.Outcome State Fault Refusal :=
  onDev (onLink (.windowWrite offset none data poisoned) (doWindowWrite offset none data poisoned)) s
def execUserWindowWrite (offset : BitVec 28) (data : List Byte) (poisoned : Bool) (s : State) :
    Host.Outcome State Fault Refusal :=
  onHost (.userWindowWrite offset data poisoned) (doUserWrite offset data poisoned) s
def execUserWindowRead (offset : BitVec 28) (len : BitVec 10) (s : State) : Host.Outcome State Fault Refusal :=
  onHost (.userWindowRead offset len) (doUserRead offset len.toNat) s
def execUserWindowTimeout (req : Nat) (s : State) : Host.Outcome State Fault Refusal := onDev (doUserTimeout req) s
def execHostReadCompletion (chunk : Nat) (result : HostReadResult) (s : State) : Host.Outcome State Fault Refusal :=
  onDev (doHostCompletion chunk result) s
def execRingEnable (ring : RingId) (value : Word) (s : State) (poisoned : Bool := false) :
    Host.Outcome State Fault Refusal :=
  onHost (.ringEnable ring value poisoned) (hostWrite .pf1 poisoned (doRingEnable ring.1 value)) s
def execPqEnable (q : PqId) (value : Word) (s : State) (poisoned : Bool := false) : Host.Outcome State Fault Refusal :=
  onHost (.pqEnable q value poisoned) (hostWrite .pf1 poisoned (doPqEnable q.1 value)) s
def execPqHeadWrite (q : PqId) (head : BitVec 16) (s : State) (poisoned : Bool := false) :
    Host.Outcome State Fault Refusal :=
  onHost (.pqHeadWrite q head poisoned) (hostWrite .pf1 poisoned (doPqHead q.1 head)) s
def execHoldoffEnd (q : PqId) (s : State) : Host.Outcome State Fault Refusal := onDev (doHoldoffEnd q.1) s
def execLinkDown (s : State) : Host.Outcome State Fault Refusal := onDev doLinkDown s
def execHostLinkUp (rate width : BitVec 4) (flit : Bool) (s : State) : Host.Outcome State Fault Refusal :=
  onDev (doLinkUp rate width flit) s
def execFlrComplete (fn : FnId) (s : State) : Host.Outcome State Fault Refusal := onDev (doFlrComplete (fnIndex fn)) s

end Sys2Proof.Machine
end

