-- ==== Sys2Proof/Machine/Power.lean ====
section
/-!
DEFINITION. Machine/Power.lean: power states, the steps into Stand and Deep, gating, the wake governor, pad hold,
budgets and emergency clock stretch (15_power.md R524 to R550).
-/
namespace Sys2Proof.Machine

/-! ## Requests for a state (R527 to R529, R531) -/

/-- The state that PW_CTRL.request or PW_STATUS.state codes. -/
def pwState (n : Nat) : Option PwState :=
  match n with
  | 0 => some .run | 1 => some .trim | 2 => some .idle | 3 => some .stand | 4 => some .deep | _ => none

/-- Run, Trim or Idle. -/
def awakeState (st : PwState) : Bool :=
  match st with
  | .run | .trim | .idle => true
  | _ => false

/-- PW_STATUS (R549). -/
def pwStatus (w : Power) : Word :=
  BitVec.ofNat 32 (65536 * w.wakeSource.toNat + b2n w.latched.isSome * 64 + b2n w.change.isSome * 32 + pwCode w.state)

/-- The domains that step `k` of an entry switches off (R531). -/
def stepDomains (k : Nat) : List Nat :=
  match k with
  | 2 => rangeFrom 0 144
  | 3 => rangeFrom 152 48
  | 4 => rangeFrom 144 8
  | 5 => rangeFrom 200 4
  | _ => []

/-- Ask one domain to go off on the way to `target`; a held one stays on (R531, R535). A stack in self-refresh changes to
partial self-refresh on the way to Deep. -/
def entryOff (target : PwState) (d : Device) (n : Nat) : Device :=
  if domainWanted d target n then d
  else match (domain d n).dstate with
    | .on | .waking =>
      if domainHeld d n then modDomain n (fun x => { x with held := true }) d
      else modDomain n (fun x => { x with held := false, dstate := .goingOff, ramp := none }) d
    | .selfRefresh => if target = .deep then domainOff n .partialRefresh d else d
    | .off => if pressCycling d n then d else dropRequest n d
    | _ => d

/-- Ask every domain of step `k`. -/
def entryStep (target : PwState) (k : Nat) (d : Device) : Device := (stepDomains k).foldl (entryOff target) d

/-- The domain is where step `k` of an entry leaves it. -/
def entryDone (target : PwState) (d : Device) (n : Nat) : Bool :=
  domainWanted d target n || match (domain d n).dstate with
    | .off => !domainQueued d n && !pressCycling d n
    | .selfRefresh => target ≠ .deep
    | .partialRefresh => true
    | _ => false

/-- Entry into Stand or Deep begins with step 1 (R531). -/
def beginEntry (target : PwState) (req : PwRequester) (d : Device) : Device :=
  applyBias target (modPower (fun w => { w with change := some ⟨target, req, false, 1⟩ }) d)

/-- A request takes effect; no change is in progress (R529 to R531). -/
def startChange (target : PwState) (req : PwRequester) (d : Device) : Device :=
  if target = d.power.state then d
  else if awakeState target then
    if d.power.state = .stand then beginWake 5 target req d
    else settleDomains (applyBias target (modPower (fun w => { w with state := target }) d))
  else if d.mkr.tickets = [] then beginEntry target req d
  else match req with
    | .d3hot => modPower (fun w => { w with heldReq := some (target, req) }) d
    | _ => logPlain unitPower 0x0802 (pwDetail { src := pwCode d.power.state, dst := pwCode target, req := pwReq req }) d

/-- A permitted request: it takes effect, or is held while a change is in progress. A register write during entry into
Stand is a wake event too (R529, R532, R533). -/
def requestState (target : PwState) (req : PwRequester) (d : Device) : Device :=
  if d.power.change.isSome then
    let d := modPower (fun w => { w with heldReq := some (target, req) }) d
    if awakeState target && req = .host then wakeEvent 5 (some target) req d else d
  else startChange target req d

/-- The right to ask for a state (R528, R552). -/
def stateRight (d : Device) (r : Requester) (st : PwState) : Bool :=
  match st with
  | .stand => bit d.trust.store.policy 0
  | .deep => bit d.trust.store.policy 1
  | _ => lockable d r 1

/-- Address of PW_CTRL. -/
def addrPwCtrl : Nat := 0x300000

/-- POWER_STATE_REQUEST: a write of PW_CTRL.request. -/
def doStateRequest (r : Requester) (v : BitVec 3) (d : Device) : Device :=
  match pwState v.toNat with
  | none => d
  | some st =>
    let detail := BitVec.ofNat 256 v.toNat
    let role := reqRole d r
    if !stateRight d r st then
      logPlain unitPower 0x0801 (pwDetail { src := pwCode d.power.state, dst := v.toNat })
        (logAct 8 role 1 0x0801 (reqSource r) addrPwCtrl detail d)
    else if d.power.change.isNone && st ≠ d.power.state && !awakeState st && d.mkr.tickets ≠ [] then
      startChange st .host (logAct 8 role 2 0x0802 (reqSource r) addrPwCtrl detail d)
    else requestState st .host (logAct 8 role 0 0 (reqSource r) addrPwCtrl detail d)

/-- STATE_CHANGE_START: a held request, or a D3hot request that waited, begins its change. -/
def doChangeStart (d : Device) : Device :=
  match d.power.heldReq with
  | none => d
  | some (st, req) =>
    if d.power.change.isSome || (req = .d3hot && !awakeState st && d.mkr.tickets ≠ []) then d
    else startChange st req (modPower (fun w => { w with heldReq := none }) d)

/-- Entry is complete; in Deep the host link is down (R531). -/
def endEntry (target : PwState) (d : Device) : Device :=
  let d := modPower (fun w => { w with state := target, change := none }) d
  if target = .deep then modHost (fun h => { h with linkUp := false }) d else d

/-- STATE_ENTRY_STEP_DONE: a step of entry completes once its domains are off, and the next begins, or entry is complete.
A held domain is asked again. -/
def doEntryStepDone (d : Device) : Device :=
  match d.power.change with
  | none => d
  | some c =>
    if c.wake then d
    else
      let d := entryStep c.target c.step d
      if (stepDomains c.step).all (entryDone c.target d) then
        if c.step = (if c.target = .deep then 5 else 4) then endEntry c.target d
        else entryStep c.target (c.step + 1) (modPower (fun w => { w with change := some { c with step := c.step + 1 } }) d)
      else d

/-! ## Wake events (R468, R532, R537) -/

/-- D3HOT_ENTRY: functions enter D3hot. With all three in it the part asks for Stand, or for Idle where the policy does not permit
Stand. -/
def doD3hot (fns : BitVec 3) (d : Device) : Device :=
  let was := d.host.d3hot
  let d := modHost (fun h => { h with d3hot := h.d3hot ||| fns }) d
  if was = 7 || d.host.d3hot ≠ 7 then d
  else
  let st := if bit d.trust.store.policy 0 then PwState.stand else .idle
  requestState st .d3hot (logAct 8 1 0 0 4 addrPwCtrl (BitVec.ofNat 256 (pwCode st)) d)

/-- FUNCTION_D0: a function returns to D0, which is a wake event. -/
def doFunctionD0 (fn : Nat) (d : Device) : Device :=
  wakeEvent 4 none .host (modHost (fun h => { h with d3hot := setField h.d3hot fn fn 0 }) d)

/-- An entry is the WAKE system entry of PW_WAKE_AT. -/
def wakeAtArmed (e : BitVec 128) : Bool := eSlot e = 0xFFF && eAction e = 6

/-- WAKE_AT_ARM: a write of PW_WAKE_AT_HI. Makeready writes the WAKE system entry, in place of one
written earlier; a point already past fires at once. -/
def doWakeAtArm (v : Word) (d : Device) : Device :=
  let t := 2 ^ 32 * v.toNat + d.power.wakeAtLo.toNat
  let d := modMk (fun m => { m with table := m.table.filter fun ie => !wakeAtArmed ie.2 }) d
  placeWakeAt (modPower (fun w => { w with wakeAtHi := v, wakeWait := some t }) d)

/-- SIDEBAND_READ: PW_STATUS in Run, Trim and Idle; NACK in Stand, in Deep and while waking (R537). With the part's
supplies or its reset out of order there is no answer. -/
def doSidebandRead (d : Device) : Device :=
  if d.trust.porLow || d.trust.railsBad || d.power.tripped then d
  else
    let waking := d.power.deepWake || match d.power.change with
      | some c => c.wake
      | none => false
    if awakeState d.power.state && !waking then emit (.sideband (some (leBytes 4 (pwStatus d.power).toNat))) d
    else emit (.sideband none) d

/-! ## Gating (R534) -/

/-- A gate has changed: a domain that is no longer wanted leaves the queue or goes off, one that is wanted again is asked
for. -/
def regate (d : Device) (n : Nat) : Device :=
  let d := if domainGated d n then dropRequest n d else d
  if domainGated d n && (domain d n).dstate = .waking then
    if domainHeld d n then modDomain n (fun x => { x with held := true }) d
    else modDomain n (fun x => { x with dstate := .goingOff, ramp := none }) d
  else settleDomain d n

/-- A gate request: without its right it is refused under R553, and writes PW_NOT_PERMITTED too (R547). -/
def gateRequest (r : Requester) (addr : Nat) (v : Word) (act : Device → Device) (d : Device) : Device :=
  let right := lockable d r 2
  let d := withRight right r addr v act d
  if right then d else logPlain unitPower 0x0801 (pwDetail {}) d

/-- PW_GATE_QUAD_WRITE; it gates in Run, Trim and Idle. -/
def doGateQuad (r : Requester) (v : Word) (d : Device) : Device :=
  gateRequest r 0x300020 v (fun d =>
    if !awakeState d.power.state then d
    else (rangeFrom 152 24).foldl regate (modPower (fun w => { w with gateQuad := field v 23 0 }) d)) d

/-- PW_GATE_REGION_WRITE; it gates in Run, Trim and Idle. -/
def doGateRegion (r : Requester) (v : Word) (d : Device) : Device :=
  gateRequest r 0x300024 v (fun d =>
    if !awakeState d.power.state then d
    else (rangeFrom 176 24).foldl regate (modPower (fun w => { w with gateRegion := field v 23 0 }) d)) d

/-! ## The governor (R526, R538) -/

/-- Grant requests from the front of the queue while the tokens held cover the front one's cost. -/
def grantWakes : List (Nat × Nat) → Device → Device
  | [], d => d
  | (n, c) :: r, d =>
    if c ≤ d.power.tokens.toNat then
      grantWakes r (modDomain n (fun x => { x with dstate := .waking, ramp := some d.now })
        (modPower (fun w => { w with tokens := w.tokens - BitVec.ofNat 8 c, queue := r }) d))
    else d

/-- GOVERNOR_TICK: at a point that is a multiple of 16, tokens are added and requests granted; switch-offs whose hold has
ended go on (R535, R538). -/
def doGovernorTick (d : Device) : Device :=
  if d.now % 16 ≠ 0 || d.power.lastTick = some d.now then d
  else
    let add (w : Power) : Nat := min w.cap.toNat (w.tokens.toNat + max 1 w.rate.toNat)
    let d := modPower (fun w => { w with lastTick := some d.now, tokens := BitVec.ofNat 8 (add w) }) d
    settleDomains (grantWakes d.power.queue d)

/-- A region has power again: its flip-flops are initial and its RAM zero, and it is released (R446, R525). It is held until
its own stage 1 where another release is in progress; one that a load holds is released by the load. -/
def regionUp (r : Nat) (d : Device) : Device :=
  if bit d.cf.regions r && !bit d.cf.held r then
    modCf (fun c => releaseWoken { c with wokenNext := setField c.wokenNext r r 1, held := setField c.held r r 1 }) d
  else d

/-- DOMAIN_POWER_GOOD: a press, forme or stack goes on to its fill; any other domain is On (R525, R538). -/
def doPowerGood (n : Nat) (d : Device) : Device :=
  if (domain d n).dstate ≠ .waking || (domain d n).ramp.isNone then d
  else match domKind n with
    | .press _ | .forme _ | .stack _ => modDomain n (fun x => { x with ramp := none }) d
    | .quad q => beginTraining (portOf d q) (domainUp n d)
    | .region r => regionUp r (domainUp n d)
    | _ => domainUp n d

/-- DOMAIN_FAULT: no power-good within twice the ramp (R526). -/
def doDomainFault (n : Nat) (d : Device) : Device :=
  let x := domain d n
  if x.dstate = .waking && x.ramp.any (· + 2 * domRamp n ≤ d.now) then
    let d := modDomain n (fun x => { x with dstate := .goingOff, failed := true, held := false, ramp := none }) d
    let d := logPlain unitPower 0x0805 (pwDetail { domain := n, req := 4 }) d
    let d := match domKind n with
      | .press p => goOffline p d
      | _ => d
    wakeCheck d
  else d

/-- Ports of a quad whose domain is off are Down; a stack completes its queued requests (R293, R525, R534). -/
def beforeOff (n : Nat) (d : Device) : Device :=
  match domKind n with
  | .quad q => takeDown q d
  | .stack _ => finishStack n d
  | _ => d

/-- A domain can be off: a stack's controller holds no request (R293). -/
def mayBeOff (d : Device) (n : Nat) : Bool :=
  match domKind n with
  | .stack _ => stackEmpty d n
  | _ => true

/-- The state in which a domain that goes off ends: a stack keeps refreshing itself. -/
def offState (d : Device) (n : Nat) : DState :=
  match domKind n with
  | .stack _ =>
    if (domain d n).failed then .off
    else match d.power.change with
      | some c => if c.target = .deep then .partialRefresh else .selfRefresh
      | none => if (domain d n).partialNext then .partialRefresh else .selfRefresh
  | _ => .off

/-- DOMAIN_OFF: switching off completes (R525), for a stack once its requests have (R293). A press in a power cycle is asked for again, at the front (R512). -/
def doDomainOff (n : Nat) (d : Device) : Device :=
  if (domain d n).dstate ≠ .goingOff then d
  else
    let d := beforeOff n d
    if !mayBeOff d n then d
    else
    let d := domainOff n (offState d n) d
    if pressCycling d n then govRequest n true (dropRequest n d) else settleDomain d n

/-! ## Pad hold (R542) -/

/-- The pads of the banks of `b` follow their regions again; those of a region that a load holds float until it is released. -/
def doPadRelease (b : BitVec 8) (d : Device) : Device :=
  modPower (fun w => { w with padHeld := w.padHeld &&& ~~~b })
    (modCf (fun c => { c with pinOpen := c.pinOpen ||| (b &&& d.power.padHeld &&& bankMask c.held) }) d)

/-! ## Budgets and clock stretch (R543 to R545) -/

/-- PW_THROTTLE_APPLY: a write of PW_THROTTLE; bit 31 issues the request. -/
def doThrottleApply (r : Requester) (v : Word) (d : Device) : Device :=
  withRight (lockable d r 3) r 0x300050 v (fun d =>
    let d := modPower (fun w => { w with opBudget := field v 24 16, lead := field v 7 0 }) d
    if bit v 31 then
      let b : BitVec 9 := field v 24 16
      rebudget 0x20 (max 1 (fieldN v 7 0)) .host
        (modPower (fun w => { w with applied := if b = 0x1FF then none else some b }) d)
    else d) d

/-- PW_THROTTLE_N: the pin's level holds in every state, and acts while the power unit lives (R543, R581). -/
def doThrottleN (low : Bool) (d : Device) : Device :=
  let d := modPower (fun w => { w with pinLow := low }) d
  if asleep d then d else rebudget 0x10 2 .powerUnit d

/-- The level may have changed: an episode begins, rises, or ends with its record (R545, R546). -/
def updateStretch (d : Device) : Device :=
  let l := stretchLevel d.power
  let c := stretchCauses d.power
  match d.power.episode with
  | none => if l = 0 then d else modPower (fun w => { w with episode := some (d.now, l, c) }) d
  | some (t, m, cs) =>
    if l ≠ 0 then modPower (fun w => { w with episode := some (t, max m l, cs ||| c) }) d
    else
      let n := d.now - t
      let d := modPower (fun w => { w with episode := none, stretchCount := satAdd w.stretchCount 1,
                                           stretchPoints := satAdd w.stretchPoints n }) d
      logPlain unitPower 0x0803 (pwDetail { cause := cs.toNat, level := m, points := min n 0xFFFFFFFF, req := 4 }) d

/-- A threshold with its release point: reached, released, or as before. -/
def hysteresis (reached released was : Bool) : Bool := reached || (was && !released)

/-- The hottest junction is at `c` degrees: against temp_throttle and against the stretch thresholds (R543, R544). -/
def tempJudge (c : BitVec 8) (w : Power) : Power :=
  let t := c.toInt
  let limit : Int := w.tempThrottle.toNat
  { w with temp := c, tempHot := hysteresis (limit ≤ t) (t ≤ limit - 5) w.tempHot,
           tempLevel := hysteresis (110 ≤ t) (t < 105) w.tempLevel }

/-- TEMPERATURE_CROSSING: the hottest junction is at `c` degrees. -/
def doTemperature (c : BitVec 8) (d : Device) : Device :=
  updateStretch (rebudget 0x08 2 .powerUnit (modPower (tempJudge c) d))

/-- DROOP_TRIP: the detector trips, or its droop clears, from when the level is held. -/
def doDroop (tripped : Bool) (d : Device) : Device :=
  if tripped then updateStretch (modPower (fun w => { w with droop := true, droopEnd := none }) d)
  else if d.power.droop && d.power.droopEnd.isNone then modPower (fun w => { w with droopEnd := some d.now }) d
  else d

/-- STRETCH_HOLD_EXPIRED: the droop has been clear for 64 points. -/
def doHoldExpired (d : Device) : Device :=
  if d.power.droop && d.power.droopEnd.any (· + 64 ≤ d.now) then
    updateStretch (modPower (fun w => { w with droop := false, droopEnd := none }) d)
  else d

/-- POWER_WINDOW: a 64-point window ends with a mean power of `watts`. -/
def doPowerWindow (watts : BitVec 12) (d : Device) : Device :=
  if d.now % 64 ≠ 0 || d.power.lastWindow = some d.now then d
  else
    let above := decide (4 * effectiveNow d < watts.toNat)
    let d := modPower (fun w =>
      { w with power := watts, lastWindow := some d.now, overRun := if above then min 4 (w.overRun + 1) else 0,
               underRun := if above then 0 else min 4 (w.underRun + 1) }) d
    updateStretch (modPower (fun w =>
      { w with powerOver := hysteresis (w.overRun = 4) (w.underRun = 4) w.powerOver }) d)

/-- PW_ALERT_N: the pin's level holds in every state, and acts while the power unit lives (R544, R581). -/
def doAlertN (low : Bool) (d : Device) : Device :=
  let d := modPower (fun w => { w with alert := low }) d
  if asleep d then d else updateStretch d

/-- THERMAL_TRIP: the internal supplies are gone, until power is cycled (R544, R585). The trip logic is always on (R524). -/
def doThermalTrip (d : Device) : Device :=
  if d.power.tripped then d else emit .thermTrip (modPower (fun w => { w with tripped := true }) d)

/-! ## The commands -/

def execD3hotEntry (s : State) (fns : BitVec 3 := 7) : Host.Outcome State Fault Refusal := onDev (doD3hot fns) s
def execFunctionD0 (fn : FnId) (s : State) : Host.Outcome State Fault Refusal := onDev (doFunctionD0 (fnIndex fn)) s
def execPowerStateRequest (src : Requester) (request : BitVec 3) (s : State) : Host.Outcome State Fault Refusal :=
  onSource src (.powerStateRequest src request) (doStateRequest src request) s
def execStateChangeStart (s : State) : Host.Outcome State Fault Refusal := onDev doChangeStart s
def execStateEntryStepDone (s : State) : Host.Outcome State Fault Refusal := onDev doEntryStepDone s
def execSidebandRead (s : State) : Host.Outcome State Fault Refusal := onAlways doSidebandRead s
def execWakeAtArm (value : Word) (s : State) : Host.Outcome State Fault Refusal :=
  onHost (.wakeAtArm value) (doWakeAtArm value) s
def execPwGateQuadWrite (src : Requester) (value : Word) (s : State) : Host.Outcome State Fault Refusal :=
  onSource src (.pwGateQuadWrite src value) (doGateQuad src value) s
def execPwGateRegionWrite (src : Requester) (value : Word) (s : State) : Host.Outcome State Fault Refusal :=
  onSource src (.pwGateRegionWrite src value) (doGateRegion src value) s
def execGovernorTick (s : State) : Host.Outcome State Fault Refusal := onDev doGovernorTick s
def execDomainPowerGood (d : DomainId) (s : State) : Host.Outcome State Fault Refusal := onDev (doPowerGood d.1) s
def execDomainFault (d : DomainId) (s : State) : Host.Outcome State Fault Refusal := onDev (doDomainFault d.1) s
def execDomainOff (d : DomainId) (s : State) : Host.Outcome State Fault Refusal := onDev (doDomainOff d.1) s
def execPadHoldRelease (banks : BitVec 8) (s : State) : Host.Outcome State Fault Refusal :=
  onHost (.padHoldRelease banks) (doPadRelease banks) s
def execPwThrottleApply (src : Requester) (value : Word) (s : State) : Host.Outcome State Fault Refusal :=
  onSource src (.pwThrottleApply src value) (doThrottleApply src value) s
def execPwThrottleN (low : Bool) (s : State) : Host.Outcome State Fault Refusal := onAlways (doThrottleN low) s
def execTemperatureCrossing (celsius : BitVec 8) (s : State) : Host.Outcome State Fault Refusal :=
  onDev (doTemperature celsius) s
def execDroopTrip (tripped : Bool) (s : State) : Host.Outcome State Fault Refusal := onDev (doDroop tripped) s
def execPowerWindow (watts : BitVec 12) (s : State) : Host.Outcome State Fault Refusal := onDev (doPowerWindow watts) s
def execPwAlertN (low : Bool) (s : State) : Host.Outcome State Fault Refusal := onAlways (doAlertN low) s
def execStretchHoldExpired (s : State) : Host.Outcome State Fault Refusal := onDev doHoldExpired s
def execThermalTrip (s : State) : Host.Outcome State Fault Refusal := onAlways doThermalTrip s

end Sys2Proof.Machine
end

