-- ==== Sys2Proof/Machine/PressRegs.lean ====
section
/-!
DEFINITION. Machine/PressRegs.lean: the registers of a press block as they read and as they are written, PWR and PRD, and
the counter clears of a press (02_number_formats.md R102 to R106; 03 R142, R143; 04 R171 to R173; 05 R198, R204;
06 R241; 07 R281, R282; 08 R321; 14 R521, R522).
-/
namespace Sys2Proof.Machine

/-! ## Reading -/

/-- Register `k` of a first-error capture (R522). -/
def capRead (c : Capture) (k : Nat) : Word :=
  match k with
  | 0 => place 32 31 31 (b2n c.valid) ||| place 32 30 30 (b2n c.more) ||| place 32 15 0 c.code.toNat
  | 1 => BitVec.ofNat 32 c.time.toNat
  | 2 => BitVec.ofNat 32 (c.time.toNat / 2 ^ 32)
  | 3 => BitVec.ofNat 32 c.ticket.toNat
  | 4 => BitVec.ofNat 32 (c.ticket.toNat / 2 ^ 32)
  | 5 => place 32 31 31 (b2n c.pc.isSome) ||| place 32 30 16 ((c.pc.map BitVec.toNat).getD 0)
      ||| place 32 15 15 (b2n c.stream.isSome) ||| place 32 11 0 ((c.stream.map BitVec.toNat).getD 0)
  | 6 => c.unit
  | _ => 0

/-- An XFER or LINK at the head waits, by its descriptor's kind: a transfer, a Forron transfer or a collective (R260, R352,
R362). -/
def transferWaits (d : Device) (p : Nat) (e : QEntry) : Bool :=
  let b := nth 0 e.desc 0
  match wop e.word, dKind b with
  | 0x25, 8 => xferWaits d p (streamDesc e.pm p b)
  | 0x26, 10 => linkWaits d p b
  | 0x26, 11 => (vgetN none d.forron.engines (p / 64)).isSome
  | _, _ => false

/-- The head of the queue of press `p` cannot start (R197); an XFER or LINK by the limit of its controller and the rules of its
own chapter. -/
def headWaits (d : Device) (p : Nat) (e : QEntry) : Bool :=
  let x := press d p
  let y := getPlaten x (platenOf e)
  match wop e.word with
  | 0x20 | 0x21 => !stageRoom y
  | 0x22 => y.drain.isSome
  | 0x23 | 0x24 => !unitTakes x
  | 0x28 => !pointReached d e.slot (nth 0 e.vals 0).toNat
  | 0x2A => (tokenTake (forme d (p / 8)) (fieldN e.word 15 10) (fieldN e.word 7 0)).isNone
  | 0x29 | 0x2B => !queueDrained d p
  | 0x25 | 0x26 => transferWaits d p e
  | _ => false

/-- Why the head of a queue holds: PS_Q_STATUS.hold (R204); 0 where it does not. A head that the press may not dispatch at all,
as while it is preempted, holds for none of these reasons. -/
def holdReason (d : Device) (p : Nat) : Nat :=
  match headOf d p (fun _ => true) with
  | none => 0
  | some e =>
    if !headWaits d p e then 0
    else match wop e.word with
      | 0x20 | 0x21 | 0x22 => 1
      | 0x23 | 0x24 => 2
      | 0x28 => 3
      | 0x2A => 4
      | 0x29 | 0x2B => 5
      | _ => 7

/-- R129's code of a bank state. -/
def bankCode : BankState → Nat
  | .invalid => 0 | .loading => 1 | .ready => 2 | .busy => 3 | .held => 4 | .draining => 5

/-- Register `k` of a platen (R142, R143). -/
def platenRead (y : Platen) (k : Nat) : Word :=
  match k with
  | 1 => place 32 15 15 (b2n (y.passes.any (·.phase = .feeding))) ||| place 32 12 12 (b2n y.fault)
      ||| place 32 10 8 (bankCode y.bank1.state) ||| place 32 6 4 (bankCode y.bank0.state)
      ||| place 32 0 0 (b2n (atBoundary y))
  | 2 => y.passCount
  | 3 => y.feedCycles
  | 4 => y.interlockWait
  | 5 => y.intWrap
  | _ => 0

def poolRead (q : Pool) : Word := place 32 31 31 (b2n q.isOpen) ||| place 32 23 0 q.free

/-- PS_FMT_CTRL as it reads (R103). -/
def fmtCtrlRead (r : FmtRegs) : Word :=
  place 32 6 6 (b2n r.nan) ||| place 32 5 4 r.ovf.toNat ||| place 32 2 0 r.rnd.toNat

/-- An instruction holds the inking unit: an INK, a JUSTIFY, or a converting DRAIN that has begun (R159, R171). -/
def unitHeld (x : Press) : Bool :=
  let drains (y : Platen) : Bool := match y.drain with | some o => o.started && !o.save | none => false
  !unitFree x || drains x.plA || drains x.plB

/-- The register at offset `off` of a press block; an offset without a register reads as zero (R241). -/
def pressRead (d : Device) (p off : Nat) : Word :=
  let x := press d p
  match off with
  | 0x200 => fmtCtrlRead x.fmt
  | 0x204 => x.fmt.overflow
  | 0x208 => x.fmt.underflow
  | 0x20C => x.fmt.saturate
  | 0x210 => x.fmt.vanish
  | 0x214 => x.fmt.squash
  | 0x404 => place 32 21 16 (x.opens.filter (·.begun)).length ||| place 32 0 0 (b2n (unitHeld x))
  | 0x408 => x.ink.ops
  | 0x504 => place 32 15 8 x.ink.satLimit.toNat ||| place 32 7 0 x.ink.vanLimit.toNat
  | 0x508 => x.ink.fallback
  | 0x50C => x.ink.slugs
  | 0x510 => x.ink.promoted
  | 0x514 => x.ink.zeroRows
  | 0x600 => place 32 19 16 (holdReason d p) ||| place 32 8 0 x.queue.length
  | 0x700 => x.stalls.feedGalley
  | 0x704 => x.stalls.feedFill
  | 0x708 => x.stalls.drainInk
  | 0x70C => x.stalls.reserveWait
  | 0x710 => x.stalls.linkWait
  | 0x714 => x.stalls.scheduleWait
  | 0x718 => x.stalls.throttle
  | 0x71C => x.stalls.preempt
  | 0x740 => place 32 11 8 (x.transfers.length + x.ftransfers.length) ||| place 32 2 2 (b2n x.pressWait)
      ||| place 32 1 1 (b2n (decide (x.sideAt = some d.now)))
      ||| place 32 0 0 (b2n x.chaseSide)
  | 0x744 => poolRead (vgetN {} x.pools 0)
  | 0x748 => poolRead (vgetN {} x.pools 1)
  | 0x780 => x.block
  | 0x784 => x.sdCe
  | 0x788 => x.sdUe
  | 0xF44 => place 32 31 24 x.recovery.powerCycles.toNat ||| place 32 23 16 x.recovery.resets.toNat
      ||| place 32 5 3 x.recovery.lastCause.toNat ||| place 32 2 0 (recStep (recNow d.now x.recovery))
  | _ =>
    if 0x300 ≤ off && off < 0x318 then platenRead x.plA ((off - 0x300) / 4)
    else if 0x340 ≤ off && off < 0x358 then platenRead x.plB ((off - 0x340) / 4)
    else if 0xF00 ≤ off && off < 0xF1C then capRead x.cap ((off - 0xF00) / 4)
    else 0

/-! ## Clears (R103, R142, R171, R282) -/

def fmtClear (r : FmtRegs) : FmtRegs := { r with overflow := 0, underflow := 0, saturate := 0, vanish := 0, squash := 0 }
def plClear (y : Platen) : Platen := { y with passCount := 0, feedCycles := 0, interlockWait := 0, intWrap := 0 }
def inClear (r : InkRegs) : InkRegs := { r with ops := 0 }
def juClear (r : InkRegs) : InkRegs := { r with slugs := 0, promoted := 0, zeroRows := 0 }

/-! ## Writing (R103, R172, R198) -/

/-- PS_FMT_CTRL.round, ovf_mode and nan_mode take a written value (R103). -/
def fmtCtrlWrite (v : Word) (r : FmtRegs) : FmtRegs :=
  { r with rnd := if fieldN v 2 0 < 6 then field v 2 0 else r.rnd,
           ovf := if fieldN v 5 4 < 3 then field v 5 4 else r.ovf, nan := bit v 6 }

/-- JU_VANISH_LIMIT takes a written value (R172). -/
def limitWrite (v : Word) (r : InkRegs) : InkRegs := { r with satLimit := field v 15 8, vanLimit := field v 7 0 }

/-- The registers that a PWR may write, with what it writes (R198); none for any other offset. -/
def pwrWrite (off : Nat) (v : Word) : Option (Press → Press) :=
  match off with
  | 0x200 => some fun x =>
      let r := fmtCtrlWrite v x.fmt
      { x with fmt := if bit v 8 then fmtClear r else r }
  | 0x300 => some fun x => if bit v 0 then { x with plA := plClear x.plA } else x
  | 0x340 => some fun x => if bit v 0 then { x with plB := plClear x.plB } else x
  | 0x400 => some fun x => if bit v 0 then { x with ink := inClear x.ink } else x
  | 0x500 => some fun x => if bit v 0 then { x with ink := juClear x.ink } else x
  | 0x504 => some fun x => { x with ink := limitWrite v x.ink }
  | 0x508 => some fun x => { x with ink := fallbackWrite v x.ink }
  | _ => none

/-! ## PWR and PRD (R197, R198, R241) -/

/-- The byte offset that a PWR or PRD names. -/
def regOffset (e : QEntry) : Nat := 4 * fieldN e.word 10 0

def doPwr (p : Nat) : Device → Device :=
  atHead (fun o => o = 0x2C) p fun e d =>
    match pwrWrite (regOffset e) (nth 0 e.vals 0) with
    | some g => modPress p g (popHead p d)
    | none => faultEntry p 1 e codePressReg none d

/-- The first pending mark of a physical register is taken away. -/
def dropPend (r : Fin 32) (l : List (Fin 32)) : List (Fin 32) := l.erase r

/-- PRD: the value goes to the g register named at issue; g0 discards it (R179, R225, R241). -/
def doPrd (p : Nat) : Device → Device :=
  atHead (fun o => o = 0x2D) p fun e d =>
    let v := pressRead d p (regOffset e)
    modForme (p / 8) (fun x =>
      if fieldN e.word 15 11 = 0 then x
      else { x with regs := { x.regs with g := vset x.regs.g e.dest v }, pend := dropPend e.dest x.pend })
      (popHead p d)

/-! ## The commands -/

def execPwrDispatch (p : PressId) (s : State) : Host.Outcome State Fault Refusal := onDev (doPwr p.1) s
def execPrdDispatch (p : PressId) (s : State) : Host.Outcome State Fault Refusal := onDev (doPrd p.1) s

/-- A host write of 1 to a counter clear of a press block: discarded, with PS_FENCED, while its frisket is closed
(R509). -/
def clearPress (p : Nat) (g : Press → Press) (d : Device) : Device :=
  if fenced d p then logPress p 0x0A01 false d else modPress p g d

def execFmtClearCounts (p : PressId) (s : State) : Host.Outcome State Fault Refusal :=
  onHost (.fmtClearCounts p) (clearPress p.1 fun x => { x with fmt := fmtClear x.fmt }) s
def execPlClearCounts (p : PressId) (pl : PlatenId) (s : State) : Host.Outcome State Fault Refusal :=
  onHost (.plClearCounts p pl) (clearPress p.1 fun x => setPlaten x pl (plClear (getPlaten x pl))) s
def execInClearCounts (p : PressId) (s : State) : Host.Outcome State Fault Refusal :=
  onHost (.inClearCounts p) (clearPress p.1 fun x => { x with ink := inClear x.ink }) s
def execJuClearCounts (p : PressId) (s : State) : Host.Outcome State Fault Refusal :=
  onHost (.juClearCounts p) (clearPress p.1 fun x => { x with ink := juClear x.ink }) s
def execPsStallClearCounts (p : PressId) (s : State) : Host.Outcome State Fault Refusal :=
  onHost (.psStallClearCounts p) (clearPress p.1 fun x => { x with stalls := {} }) s

end Sys2Proof.Machine
end

