-- ==== Sys2Proof/Machine/PressTime.lean ====
section
/-!
DEFINITION. Machine/PressTime.lean: the time inputs, the count and its states (01_press_time.md R21 to R35, R59 to R61),
one command for each event, and the passing of one point.
-/
namespace Sys2Proof.Machine

/-- A TIME record goes to the errata queue (R30, R34, R488 to R490). -/
def timeRec (code : BitVec 16) (sheetStep phaseStep : Int) (d : Device) : Device :=
  postRec d.host.errataPq.toNat
    { type := 0x0010, severity := 0, unit := unitMk, time := d.time.count, code := code,
      detail := dput 32 (BitVec.ofInt 32 sheetStep).toNat (dput 36 (BitVec.ofInt 32 phaseStep).toNat 0) } d

/-- Every open ticket fails with PT_LOST and its table entries are cleared (R32, R33). -/
def loseTickets (d : Device) : Device :=
  d.mkr.tickets.foldl (fun d t => releaseEntries t (abortTicket t 0x0103 unitMk d)) d

/-- A signed value held in 16 bits, saturating (R61). -/
def sat16 (v : Int) : BitVec 16 := BitVec.ofInt 16 (max (-0x8000) (min 0x7FFF v))

/-- PT_STEP records a step or an adoption. -/
def recordStep (sheetStep : Int) (d : Device) : Device :=
  modTime (fun t => { t with resyncCount := satAdd t.resyncCount 1, lastStep := sat16 sheetStep }) d

/-- The part enters Locked on an edge (R28, R60): the sheet that it begins has carried no frame yet, and after a backward
phase step the edge belongs to a boundary that the count has already left. -/
def enterLocked (d : Device) : Device :=
  modTime (fun t => { t with state := .locked, holdoverSheets := 0, syncOk := true,
                             edgePlaced := decide (t.count.toNat % 4096 = 0), frameLocal := false,
                             missedEdges := 0, missedFrames := 0, mismatch := none }) d

/-- The count moves by whole sheets and forward points; backward points suppress ticks (R34). -/
def moveCount (sheetStep phaseStep : Int) (d : Device) : Device :=
  modTime (fun t => { t with
    count := BitVec.ofInt 64 (t.count.toNat + 4096 * sheetStep + max 0 phaseStep),
    suppress := (max 0 (-phaseStep)).toNat }) d

/-- Step the count (R34): skipped entries fire late, a TIME record is written, PT_STEP records. -/
def stepCount (sheetStep phaseStep : Int) (d : Device) : Device :=
  recordStep sheetStep (timeRec 0x0104 sheetStep phaseStep (fireSkipped (moveCount sheetStep phaseStep d)))

/-- Adopt the external count (R32): `next` is the sheet that begins at this edge. -/
def adoptCount (next : Nat) (sheetStep phaseStep : Int) (d : Device) : Device :=
  let d := modTime (fun t => { t with count := BitVec.ofNat 64 (4096 * next), suppress := 0 }) (loseTickets d)
  recordStep sheetStep (timeRec 0x0104 sheetStep phaseStep d)

/-- The number of the local sheet whose boundary is nearest, given the phase. -/
def nearSheet (d : Device) (phase : Int) : Int := ((d.now : Int) + phase) / 4096

/-- The restoration condition (R31). -/
def restorable (t : PressTime) : Bool :=
  4096 ≤ t.refPoints && 4 ≤ t.edgeRun && (!t.codeRequired || (4 ≤ t.frameRun && t.frameSeen))

/-- Time is restored at this edge (R31, R32). -/
def restoreTime (phase : Int) (d : Device) : Device :=
  let t := d.time
  let next := ((t.lastFrame.map BitVec.toNat).getD 0)
  match t.state with
  | .holdover | .lost =>
    let step : Int := if t.codeRequired then next - nearSheet d phase else 0
    if phase.natAbs ≤ 256 ∧ step.natAbs ≤ 16 then enterLocked (stepCount step phase d)
    else enterLocked (adoptCount (if t.codeRequired then next else d.sheet + 1) step phase d)
  | _ =>
    enterLocked (modTime (fun t => { t with
      count := if t.codeRequired then BitVec.ofNat 64 (4096 * next) else 0, suppress := 0 }) d)

/-- Each edge counts toward the restoration condition by its spacing (R24, R31). -/
def noteEdge (sinceLast : Nat) (d : Device) : Device :=
  modTime (fun t => { t with edgeRun := if sinceLast = 1600 then t.edgeRun + 1 else 1,
                             frameRun := if t.frameSeen then t.frameRun else 0, frameSeen := false }) d

/-- A correctly placed edge while Locked: the resynchronisation that a mismatching frame announced (R34). -/
def placedEdge (d : Device) : Device :=
  let mis := d.time.mismatch
  let d := modTime (fun t => { t with syncOk := true, edgePlaced := true, missedEdges := 0, mismatch := none }) d
  match mis with
  | none => d
  | some n =>
    let step : Int := n.toNat - d.sheet
    if step.natAbs ≤ 16 then stepCount step 0 d else enterLocked (adoptCount n.toNat step 0 d)

/-- PT_SYNC_EDGE (R24, R31, R32, R34): `sinceLast` reference cycles after the edge before, `phase` points before the
nearer local sheet boundary. An edge that comes after a sheet without one begins the run of R31 again. -/
def doPtSyncEdge (sinceLast : Nat) (phase : Int) (d : Device) : Device :=
  if !d.time.refOk || ((d.point : Int) + phase) % 4096 ≠ 0 then d
  else if d.time.state = .locked then
    if phase = 0 then noteEdge sinceLast (placedEdge d)
    else modTime (fun t => { t with syncSlips := satAdd t.syncSlips 1 }) d
  else if restorable d.time && sinceLast = 1600 then noteEdge sinceLast (restoreTime phase d)
  else noteEdge sinceLast d

/-- A frame is valid (R22, R23); the first bit sent is the most significant. -/
def frameValid (f : BitVec 100) : Bool :=
  let bits : List Bool := (List.range 56).map fun k => f.getLsbD (91 - k)
  fieldN f 99 92 = 0x7E && fieldN f 38 36 = 0 && (crc16 bits).toNat = fieldN f 35 20

def frameNext (f : BitVec 100) : BitVec 52 := f.extractLsb' 40 52

/-- PT_CODE_FRAME (R22, R23, R34, R59). -/
def doPtCodeFrame (f : BitVec 100) (d : Device) : Device :=
  if !d.time.refOk || !d.time.codeRequired then d
  else if frameValid f then
    let n := frameNext f
    modTime (fun t => { t with
      codeOk := true, srcHoldover := bit f 39, frameSeen := true, frameLocal := true, lastFrame := some n,
      frameRun := if t.lastFrame = some (n - 1) then t.frameRun + 1 else 1,
      mismatch := if t.state = .locked && n.toNat ≠ d.sheet + 1 then some n else t.mismatch }) d
  else modTime (fun t => { t with codeOk := false, codeErrors := satAdd t.codeErrors 1, frameRun := 0 }) d

/-- A Locked part enters Holdover (R30). -/
def enterHoldover (d : Device) : Device :=
  if d.time.state = .locked then
    timeRec 0x0102 0 0 (modTime (fun t => { t with state := .holdover, mismatch := none }) d)
  else d

/-- INPUT_LOST (R28, R30). -/
def doInputLost (i : TimeInput) (d : Device) : Device :=
  match i with
  | .refclk =>
    enterHoldover (modTime (fun t => { t with refOk := false, refPoints := 0, edgeRun := 0, frameRun := 0 }) d)
  | .sync => if 2 ≤ d.time.missedEdges then enterHoldover d else d
  | .code => if d.time.codeRequired && 4 ≤ d.time.missedFrames then enterHoldover d else d

/-- REFCLK_IN_TOLERANCE (R27). -/
def doRefclkInTolerance (d : Device) : Device :=
  if d.time.refOk then d
  else modTime (fun t => { t with refOk := true, refPoints := 0,
                                  state := if t.state = .unsynced then .acquiring else t.state }) d

/-- HOLDOVER_EXPIRED (R33). -/
def doHoldoverExpired (d : Device) : Device :=
  if d.time.state = .holdover && 1024 ≤ d.time.holdoverSheets.toNat then
    loseTickets (modTime (fun t => { t with state := .lost }) d)
  else d

/-- PT_CLEAR_COUNTS (R59). -/
def doPtClearCounts (d : Device) : Device := modTime (fun t => { t with syncSlips := 0, codeErrors := 0 }) d

/-! ## The passing of a point (R25, R26) -/

/-- The count leaves point 0: the boundary had its edge, or not (R28, R60). -/
def leaveBoundary (t : PressTime) : PressTime :=
  if t.count.toNat % 4096 = 0 then
    if t.edgePlaced then { t with edgePlaced := false, mismatch := none }
    else { t with missedEdges := t.missedEdges + 1, syncOk := false, mismatch := none }
  else t

/-- A new sheet begins (R28, R33, R60). -/
def enterSheet (t : PressTime) : PressTime :=
  { t with holdoverSheets := if t.state = .holdover || t.state = .lost then satAdd t.holdoverSheets 1
                             else t.holdoverSheets,
           missedFrames := if t.frameLocal then 0 else t.missedFrames + 1, frameLocal := false }

/-- One point passes on the count. -/
def tickTime (t : PressTime) : PressTime :=
  let t := { t with refPoints := if t.refOk then min 4096 (t.refPoints + 1) else 0 }
  if t.suppress ≠ 0 then { t with suppress := t.suppress - 1 }
  else
    let t := leaveBoundary t
    let t := { t with count := t.count + 1 }
    if t.count.toNat % 4096 = 0 then enterSheet t else t

/-- One point of Press Time passes; at a sheet boundary a session loses one of its sheets (R557). -/
def tick (d : Device) : Device :=
  if asleep d then d
  else
    let t := tickTime d.time
    let newSheet := t.count ≠ d.time.count && t.count.toNat % 4096 = 0
    let d := stretchPoint { d with time := t }
    let d := if newSheet then placeWakeAt d else d
    if newSheet && d.trust.session && d.trust.sheets ≠ 0 then modTrust (fun x => { x with sheets := x.sheets - 1 }) d else d

/-! ## The commands -/

def execRefclkInTolerance (s : State) : Host.Outcome State Fault Refusal := onDev doRefclkInTolerance s
def execPtSyncEdge (sinceLast : Nat) (phase : Int) (s : State) : Host.Outcome State Fault Refusal :=
  onDev (doPtSyncEdge sinceLast phase) s
def execPtCodeFrame (frame : BitVec 100) (s : State) : Host.Outcome State Fault Refusal := onDev (doPtCodeFrame frame) s
def execInputLost (input : TimeInput) (s : State) : Host.Outcome State Fault Refusal := onDev (doInputLost input) s
def execHoldoverExpired (s : State) : Host.Outcome State Fault Refusal := onDev doHoldoverExpired s
def execPtClearCounts (s : State) : Host.Outcome State Fault Refusal :=
  onHost .ptClearCounts doPtClearCounts s

end Sys2Proof.Machine
end

