-- ==== Sys2Proof/Machine/Trust.lean ====
section
/-!
DEFINITION. Machine/Trust.lean: the mailbox and its commands, sessions, the Colophon store and log, firmware slots, and
the quote (16_roles_and_trust.md R551 to R578).
-/
namespace Sys2Proof.Machine

/-! ## The mailbox (R554, R555) -/

/-- `n` bytes of TR_MBOX from offset `off`. -/
def mboxRead (d : Device) (off n : Nat) : List Byte := (rangeFrom off n).map fun i => smapGet 0 d.trust.mbox i

/-- Put bytes into TR_MBOX from offset 0. -/
def mboxPut (l : List Byte) (m : List (Nat × Byte)) : List (Nat × Byte) :=
  (l.foldl (fun (a : List (Nat × Byte) × Nat) b => (smapSet 0 a.1 a.2 b, a.2 + 1)) (m, 0)).1

/-- An action of R570: its code, its target and its detail. -/
structure Act where
  action : Nat
  target : Nat
  detail : BitVec 256
  deriving DecidableEq, Repr

/-- The address of TR_CMD. -/
def addrTrCmd : Nat := 4

/-- A command fails: its errata record, and its log entry where it is an action (R575). -/
def reportTrust (a : Option Act) (outcome : Nat) (code : BitVec 16) (d : Device) : Device :=
  match a with
  | some x => logRefused x.action (reqRole d .pf0) outcome code 0 x.target x.detail d
  | none => logPlain unitTrust code 0 d

/-- A command of `op` runs: what it will post. -/
def startCmd (op : Nat) (code : BitVec 16) (output : List Byte) (store : Bool) (d : Device) : Device :=
  modTrust (fun t => { t with cmd := some ⟨op, code, output, store⟩ }) d

/-- A mailbox command: discarded while another runs, ended with a code by the first check that fails, or run. -/
def mailbox (op : Nat) (act : Option Act) (checks : List (Bool × Nat × BitVec 16)) (run : Device → Device) (d : Device) :
    Device :=
  if d.trust.cmd.isSome then reportTrust act 2 0x0905 d
  else match checks.find? (·.1) with
    | some (_, outcome, code) => startCmd op code [] false (reportTrust act outcome code d)
    | none => run d

/-- Checks, as the failing condition with its outcome and code. -/
def needFirmware (d : Device) : Bool × Nat × BitVec 16 := (d.trust.running.isNone, 2, 0x090A)
def needInstaller (d : Device) : Bool × Nat × BitVec 16 := (!d.trust.session, 1, 0x0901)
def needForm (ok : Bool) : Bool × Nat × BitVec 16 := (!ok, 2, 0x0906)
def needIdentity (d : Device) : Bool × Nat × BitVec 16 := (!d.trust.identity, 2, 0x0905)
def needStore (d : Device) : Bool × Nat × BitVec 16 := (storeBusy d, 2, 0x0905)
/-- The log entry of an action that changes the store, the firmware or the ownership can be written (R571). -/
def needLog (d : Device) : Bool × Nat × BitVec 16 := (d.trust.logFails, 2, 0x0908)

/-- An action done by the mailbox's user. -/
def actDone (a : Act) (d : Device) : Device := logAct a.action (reqRole d .pf0) 0 0 0 a.target a.detail d

/-- An action that changes the store: logged in flash first, then its write begins (R560, R571). -/
def beginJob (op : Nat) (a : Act) (j : StoreJob) (d : Device) : Device :=
  let d := logFlushed (actDone a d)
  startCmd op 0 [] true (modTrust (fun t => { t with job := some j, jobLog := t.log.getLast? }) d)

/-! ## The keys (R558, R562) -/

/-- The primes of the key that a label names. -/
def keyPrimes (label : List Byte) : Nat × Nat :=
  let s := drbgSeed (beBytes 32 Config.seed.toNat ++ label)
  Config.drawPrimes s.1 s.2

/-- The labels "identity" and "wrap". -/
def identityLabel : List Byte := [0x69, 0x64, 0x65, 0x6E, 0x74, 0x69, 0x74, 0x79]
def wrapLabel : List Byte := [0x77, 0x72, 0x61, 0x70]

/-- The modulus of a key, and its private exponent under the public exponent 65,537. -/
def keyModulus (label : List Byte) : Nat := (keyPrimes label).1 * (keyPrimes label).2
def keyExponent (label : List Byte) : Nat :=
  invMod 65537 (Nat.lcm ((keyPrimes label).1 - 1) ((keyPrimes label).2 - 1))

/-- `m` with the identity key's signature over it, in the scheme of R427, with a fresh salt. -/
def signed (m : List Byte) (d : Device) : List Byte × Device :=
  let s := takeFree 512 d
  (m ++ pssSign (keyModulus identityLabel) (keyExponent identityLabel) m (leBytes 64 s.1.toNat), s.2)

/-- What the wrap key decrypts. -/
def unwrap (c : List Byte) : Option (List Byte) := oaepDecrypt (keyModulus wrapLabel) (keyExponent wrapLabel) c

/-! ## Identity (R554, R558, R559, R572 to R574) -/

def doGetCert (n : BitVec 14) (d : Device) : Device :=
  mailbox 1 none [needFirmware d, needForm (n = 0)] (startCmd 1 0 (Config.certificate.take 4096) false) d

def doGetWrapKey (n : BitVec 14) (d : Device) : Device :=
  mailbox 2 none [needFirmware d, needForm (n = 0), needIdentity d] (fun d =>
    let (out, d) := signed (beBytes 512 (keyModulus wrapLabel) ++ beBytes 4 65537) d
    startCmd 2 0 out false d) d

/-- One item of the store digest: its number, its length, its bytes. -/
def digestItem (n : Nat) (l : List Byte) : List Byte := BitVec.ofNat 8 n :: leBytes 4 l.length ++ l

/-- An item whose bytes the spec leaves open. -/
def openItem (n : Nat) (l : List Nat) : List Byte := digestItem n (Config.storeItem n l)

/-- The values that item `n` of the store holds (R561). -/
def itemValues (s : Store) (n : Nat) : List Nat :=
  match n with
  | 1 => match s.installer with
    | some (m, e) => [m.toNat, e.toNat]
    | none => []
  | 2 => [s.generation.toNat]
  | 3 => [s.locks.toNat]
  | 4 => [s.policy.toNat]
  | 5 => [s.enForron.toNat, s.enFount.toNat, s.enRegion.toNat, s.enEngine.toNat]
  | 6 => [s.rollback.toNat]
  | 7 => [s.powerOns]
  | 0x10 => [s.keyEnable.toNat]
  | 0x11 => s.power.toList.map (·.toNat)
  | 0x12 => [s.sideband.toNat]
  | _ => match vgetN none s.keys (n - 8) with
    | some k => [k.toNat]
    | none => []

/-- The store as R574 digests it. The bytes of the items whose layout R561 does not give (02h to 07h) are open. -/
def storeBytes (s : Store) : List Byte :=
  digestItem 1 (match s.installer with | some (m, e) => beBytes 512 m.toNat ++ beBytes 4 e.toNat | none => [])
    ++ ((rangeFrom 2 6).map fun n => openItem n (itemValues s n)).flatten
    ++ ((List.range 8).map fun k => digestItem (8 + k) [BitVec.ofNat 8 (b2n (vgetN none s.keys k).isSome)]).flatten
    ++ digestItem 0x10 (leBytes 1 s.keyEnable.toNat)
    ++ digestItem 0x11 (s.power.toList.map fun v => leBytes 2 v.toNat).flatten
    ++ digestItem 0x12 (leBytes 1 s.sideband.toNat)

/-- TR_OWNER (R577). -/
def trOwner (s : Store) : Nat := 2 ^ 31 * b2n s.installer.isSome + s.generation.toNat

def timeStateCode : TimeState → Nat
  | .unsynced => 0 | .acquiring => 1 | .locked => 2 | .holdover => 3 | .lost => 4

/-- Bytes 0 to 511 of a quote (R573). -/
def quoteBytes (nonce : List Byte) (d : Device) : List Byte :=
  let t := d.trust
  let image := t.running
  let digest := match image with | some i => (i.digest.getD Config.factoryDigest).toNat | none => 0
  let body := leBytes 4 0x51544758 ++ leBytes 2 1 ++ leBytes 2 0x9480 ++ leBytes 8 Config.serial.toNat
    ++ leBytes 8 imprint.toNat ++ leBytes 8 d.now ++ nonce ++ leBytes 64 digest
    ++ leBytes 4 ((image.map (·.version.toNat)).getD 0) ++ leBytes 4 ((image.map (·.svn.toNat)).getD 0)
    ++ leBytes 4 t.store.rollback.toNat ++ leBytes 4 (trOwner t.store) ++ sha512 (storeBytes t.store)
    ++ leBytes 8 t.seq ++ leBytes 64 (chainAt t t.seq).toNat ++ leBytes 2 d.forron.inc.toNat
    ++ leBytes 1 (timeStateCode d.time.state)
  body ++ bytesOf (512 - body.length) 0

def doQuote (n : BitVec 14) (d : Device) : Device :=
  mailbox 3 none [needFirmware d, needForm (n = 64), needIdentity d] (fun d =>
    let (out, d) := signed (quoteBytes (mboxRead d 0 64) d) d
    startCmd 3 0 out false d) d

/-- A log range is held whole. -/
def rangeHeld (t : Trust) (f n : Nat) : Bool := (rangeFrom f n).all fun s => t.log.any (·.seq = s)

/-- A readout without its signature (R572). -/
def readoutBytes (nonce : List Byte) (f n : Nat) (d : Device) : List Byte :=
  let t := d.trust
  leBytes 4 0x474C4758 ++ leBytes 2 1 ++ leBytes 2 n ++ leBytes 8 Config.serial.toNat ++ leBytes 8 f
    ++ leBytes 64 (chainAt t (f - 1)).toNat ++ leBytes 64 (chainAt t (f + n - 1)).toNat ++ nonce ++ leBytes 8 d.now
    ++ bytesOf 32 0 ++ ((t.log.filter fun e => decide (f ≤ e.seq) && decide (e.seq < f + n)).map logBytes).flatten

def doLogRead (len : BitVec 14) (d : Device) : Device :=
  let f := leNat (mboxRead d 64 8)
  let n := leNat (mboxRead d 72 2)
  mailbox 4 none [needFirmware d, needForm (len = 74 && 1 ≤ n && n ≤ 64), needIdentity d,
      (!rangeHeld d.trust f n, 2, 0x090C)] (fun d =>
    let (out, d) := signed (readoutBytes (mboxRead d 0 64) f n d) d
    startCmd 4 0 out false d) d

/-- IDENTITY_DERIVED. -/
def doIdentity (d : Device) : Device :=
  if d.trust.running.isSome then modTrust (fun t => { t with identity := true }) d else d

/-! ## Ownership and sessions (R556, R557) -/

/-- The first 32 bytes of the SHA-512 of a new key (R570). -/
def keyDetail (k : List Byte) : BitVec 256 := BitVec.ofNat 256 (leNat ((sha512 k).take 32))

/-- The installer public key that CLAIM and TRANSFER carry: modulus and exponent, most significant byte first. -/
def keyJob (k : List Byte) : StoreJob :=
  .installer (BitVec.ofNat 4096 (beNat (k.take 512))) (BitVec.ofNat 32 (beNat (k.drop 512)))

def doClaim (n : BitVec 14) (d : Device) : Device :=
  let k := mboxRead d 0 516
  let a : Act := ⟨2, 1, keyDetail k⟩
  mailbox 0x10 (some a) [needFirmware d, needForm (n = 516), (d.trust.store.installer.isSome, 2, 0x0907), needStore d, needLog d]
    (beginJob 0x10 a (keyJob k)) d

def doTransfer (n : BitVec 14) (d : Device) : Device :=
  let k := mboxRead d 0 516
  let a : Act := ⟨2, 1, keyDetail k⟩
  mailbox 0x13 (some a) [needFirmware d, needInstaller d, needForm (n = 516), needStore d, needLog d] (beginJob 0x13 a (keyJob k)) d

/-- The detail of a session's entry: sheets granted, and the cause of its end. -/
def sessionDetail (sheets cause : Nat) : BitVec 256 := dput 32 sheets (dput 36 cause 0)

/-- The session ends; the end is logged with its cause (R557). -/
def endSession (role source cause : Nat) (d : Device) : Device :=
  if d.trust.session then
    modTrust (fun t => { t with session := false, sheets := 0, granted := 0 })
      (logAct 3 role 0 0 source addrTrCmd (sessionDetail d.trust.granted.toNat cause) d)
  else d

/-- A grant passes the checks of R556. -/
def grantGood (g : List Byte) (d : Device) : Bool :=
  match d.trust.store.installer with
  | none => false
  | some (m, e) =>
    let n := leAt g 4 4
    decide (leAt g 0 4 = 0x5452474F) && decide (1 ≤ n) && decide (n ≤ 16777216)
      && decide (leAt g 8 8 = Config.serial.toNat) && decide (leAt g 16 64 = d.trust.challenge.toNat)
      && ((g.drop 80).take 432).all (· == 0#8)
      && pssVerify m.toNat e.toNat (g.take 512) (g.drop 512)

/-- 64 new random bytes for the challenge. -/
def newChallenge (d : Device) : Device :=
  let (c, d) := takeFree 512 d
  modTrust (fun t => { t with challenge := c }) d

/-- OPEN: a good grant opens a session; every OPEN replaces the challenge. -/
def doOpen (n : BitVec 14) (d : Device) : Device :=
  if d.trust.cmd.isSome then reportTrust (some ⟨3, addrTrCmd, 0⟩) 2 0x0905 d
  else
    let g := mboxRead d 0 1024
    let sheets := leAt g 4 4
    let a : Act := ⟨3, addrTrCmd, sessionDetail sheets 0⟩
    newChallenge (mailbox 0x11 (some a)
      [(d.trust.store.installer.isNone, 1, 0x0901), needForm (n = 1024), (!grantGood g d, 2, 0x0902)] (fun d =>
        startCmd 0x11 0 [] false (modTrust (fun t =>
          { t with session := true, sheets := BitVec.ofNat 25 sheets, granted := BitVec.ofNat 25 sheets })
            (actDone a d))) d)

def doClose (n : BitVec 14) (d : Device) : Device :=
  mailbox 0x12 (some ⟨3, addrTrCmd, sessionDetail 0 1⟩) [needInstaller d, needForm (n = 0)] (fun d =>
    startCmd 0x12 0 [] false (endSession 2 0 1 d)) d

/-- RELEASE: the session ends at once, the store items when the write completes. -/
def doRelease (n : BitVec 14) (d : Device) : Device :=
  let a : Act := ⟨2, 1, 0⟩
  mailbox 0x14 (some a) [needFirmware d, needInstaller d, needForm (n = 0), needStore d, needLog d] (fun d =>
    endSession 2 0 2 (beginJob 0x14 a .release d)) d

/-- SESSION_EXPIRED: TR_SESSION has reached 0. -/
def doSessionExpired (d : Device) : Device := if d.trust.sheets = 0 then endSession 0 4 0 d else d

/-! ## The Colophon store (R560 to R564) -/

/-- What a STORE_WRITE of `item` with `data` would write; none where the item or the value is not of the table. A key
slot's data is still wrapped, or empty. -/
def storeItem (item : Nat) (data : List Byte) : Option StoreJob :=
  if 8 ≤ item && item ≤ 15 then
    if data = [] then some (.key (item - 8) none)
    else if data.length ≠ 512 then none
    else match unwrap data with
      | some (s :: k) =>
        if s.toNat = item - 8 && k.length = 32 then some (.key (item - 8) (some (BitVec.ofNat 256 (leNat k)))) else none
      | _ => none
  else if item = 0x11 then
    if data.length = 10 && (List.range 5).all (fun s => (nth 0 data (2 * s + 1)).toNat < 4) then some (.power data) else none
  else if item = 0x12 then
    match data with
    | [b] => if 0x08 ≤ b.toNat && b.toNat ≤ 0x77 then some (.sideband (BitVec.ofNat 7 b.toNat)) else none
    | _ => none
  else none

def doStoreWrite (n : BitVec 14) (d : Device) : Device :=
  let item := leNat (mboxRead d 0 1)
  let job := storeItem item (mboxRead d 4 (n.toNat - 4))
  let a : Act := ⟨4, item, BitVec.ofNat 256 item⟩
  let key := decide (8 ≤ item) && decide (item ≤ 15)
  mailbox 0x15 (some a) [needFirmware d, needInstaller d,
      needForm (4 ≤ n.toNat && mboxRead d 1 3 = [0, 0, 0]), (key && !d.trust.identity, 2, 0x0905), needStore d,
      needForm job.isSome, needLog d] (fun d =>
    match job with
    | some j => beginJob 0x15 a j d
    | none => d) d

/-- The items after RELEASE: the unowned values of R561; generation, rollback counter and power-on count are kept. -/
def releasedStore (s : Store) : Store :=
  { generation := s.generation + 1, rollback := s.rollback, powerOns := s.powerOns }

/-- The store after a job's write. -/
def applyJob (j : StoreJob) (s : Store) : Store :=
  match j with
  | .locks v => { s with locks := v }
  | .policy v => { s with policy := v }
  | .keyEnable v => { s with keyEnable := v }
  | .enForron v => { s with enForron := v }
  | .enFount v => { s with enFount := v }
  | .enRegion v => { s with enRegion := v }
  | .enEngine v => { s with enEngine := v }
  | .installer m e => { s with installer := some (m, e), generation := s.generation + 1 }
  | .release => releasedStore s
  | .key k v => { s with keys := vmodN s.keys k fun _ => v }
  | .power l => { s with power := Vector.ofFn fun i => BitVec.ofNat 16 (leAt l (2 * i.1) 2) }
  | .sideband v => { s with sideband := v }
  | .rollback v => { s with rollback := v }

/-- The items that a job writes. -/
def jobItems : StoreJob → List Nat
  | .locks _ => [3]
  | .policy _ => [4]
  | .keyEnable _ => [0x10]
  | .enForron _ | .enFount _ | .enRegion _ | .enEngine _ => [5]
  | .installer _ _ => [1, 2]
  | .release => [1, 2, 3, 4, 5] ++ rangeFrom 8 11
  | .key k _ => [8 + k]
  | .power _ => [0x11]
  | .sideband _ => [0x12]
  | .rollback _ => [6]

/-- The older copy of an item has been programmed, and is current: the other then holds `old`. -/
def copyWritten (old : List Nat) (c : StoreCopies) : StoreCopies :=
  { counts := if c.second then (c.counts.2 + 1, c.counts.2) else (c.counts.1, c.counts.1 + 1), second := !c.second,
    other := old, otherGood := true }

/-- A write of items ends: programmed, with the store as `g` leaves it, or not, with a copy that fails its check (R560). -/
def writeItems (items : List Nat) (g : Store → Store) (programmed : Bool) (t : Trust) : Trust :=
  if programmed then
    { t with store := g t.store,
             copies := items.foldl (fun c n => vmodN c (n - 1) (copyWritten (itemValues t.store n))) t.copies }
  else { t with copies := items.foldl (fun c n => vmodN c (n - 1) fun x => { x with otherGood := false }) t.copies }

/-- The next power-on count: its low 16 bits are never 0 (R336). -/
def nextCount (n : Nat) : Nat := if (n + 1) % 65536 = 0 then n + 2 else n + 1

/-- The ports of the part begin to train. -/
def trainAll (d : Device) : Device := (List.range 24).foldl (fun d q => beginTraining q d) d

/-- The store write in progress ends. Quads and regions follow changed enables (R564). -/
def endJob (j : StoreJob) (programmed : Bool) (d : Device) : Device :=
  let code : BitVec 16 := if programmed then 0 else 0x0908
  let d := if programmed then d
           else logPlain unitTrust 0x0908 ((d.trust.jobLog.map logHead).getD 0) d
  let d := modTrust (fun t =>
    { writeItems (jobItems j) (applyJob j) programmed t with
             job := none, jobLog := none,
             cmd := t.cmd.map fun c => if c.store then { c with store := false, code := code } else c }) d
  (rangeFrom 152 48).foldl regate d

/-- STORE_WRITE_DONE: first the power-on count of R336, then the job in progress. Where the count cannot be programmed its write has
ended, and the ports stay Down. -/
def doStoreDone (programmed : Bool) (d : Device) : Device :=
  if d.forron.countPending && !d.forron.countFailed then
    let d := modTrust (writeItems [7] (fun s => { s with powerOns := nextCount s.powerOns }) programmed) d
    if programmed then trainAll (modForron (fun f => { f with countPending := false }) d)
    else logPlain unitTrust 0x0908 0 (modForron (fun f => { f with countFailed := true }) d)
  else match d.trust.job with
    | some j => endJob j programmed d
    | none => d

/-! ## Firmware (R565 to R568) -/

/-- `n` bytes of a slot from offset `off`; erased flash reads as ones. -/
def slotBytes (m : List (Nat × Byte)) (off n : Nat) : List Byte := (rangeFrom off n).map fun i => smapGet 0xFF m i

/-- Check the image in a slot against R566: its data, or the code of the failure. -/
def checkImage (slot : Nat) (rollback : BitVec 32) (s : FwSlot) : Except (BitVec 16) FwImage :=
  match s with
  | .erased => .error 0x0903
  | .factory v n => if rollback.toNat ≤ n.toNat then .ok ⟨slot, v, n, none⟩ else .error 0x0904
  | .written m =>
    let h := slotBytes m 0 1024
    let len := leAt h 16 4
    let svn := BitVec.ofNat 32 (leAt h 12 4)
    let fields := decide (leAt h 0 4 = 0x57464758) && decide (leAt h 4 2 = 1) && decide (leAt h 6 2 = 0x9480)
      && decide (64 ≤ len) && decide (len ≤ 1047552) && decide (len % 64 = 0) && decide (leAt h 20 4 = 0)
      && ((h.drop 88).take 424).all (· == 0#8)
    if !fields then .error 0x0903
    else
      let body := slotBytes m 1024 len
      if sha512 body ≠ (h.drop 24).take 64 || !pssVerify Config.makerModulus.toNat 65537 (h.take 512) (h.drop 512) then
        .error 0x0903
      else if svn.toNat < rollback.toNat then .error 0x0904
      else .ok ⟨slot, BitVec.ofNat 32 (leAt h 8 4), svn, some (BitVec.ofNat 512 (leNat (sha512 (h ++ body))))⟩

/-- The image in slot 0 (A) or 1 (B). -/
def checkSlot (d : Device) (slot : Nat) : Except (BitVec 16) FwImage :=
  checkImage slot d.trust.store.rollback (vgetN .erased d.trust.slots slot)

/-- The active slot's number. -/
def activeSlot (d : Device) : Nat := b2n d.trust.activeB

/-- The version and svn that a slot's header states, where a header is there. -/
def slotHead : FwSlot → Nat × Nat
  | .erased => (0, 0)
  | .factory v n => (v.toNat, n.toNat)
  | .written m => (leNat (slotBytes m 8 4), leNat (slotBytes m 12 4))

/-- The entry of a boot: the image that is started (R570). -/
def logStart (i : FwImage) : Device → Device := logAct 6 0 0 0 4 i.slot (dput 32 i.slot (dput 36 i.svn.toNat 0))

/-- The boot ROM's check: the image that it starts, or none; each failing slot is logged (R567, R570). -/
def bootCheck (d : Device) : Device :=
  let a := activeSlot d
  let fail (slot : Nat) (code : BitVec 16) (d : Device) : Device :=
    logRefused 6 0 2 code 4 slot (dput 32 slot (dput 36 (slotHead (vgetN .erased d.trust.slots slot)).2 0)) d
  let start (i : FwImage) (d : Device) : Device :=
    modTrust (fun t => { t with booting := some i, running := none, loading := false }) (logStart i d)
  match checkSlot d a with
  | .ok i => start i d
  | .error c =>
    let d := fail a c d
    match checkSlot d (1 - a) with
    | .ok i => start i d
    | .error c =>
      let d := fail (1 - a) c d
      modTrust (fun t => { t with booting := none, running := none, loading := false })
        (logAct 6 0 2 0 4 0xFF (BitVec.ofNat 256 0xFF) d)

/-- FW_LOAD: data into the inactive slot; the first after an activation or a reset erases it. -/
def doFwLoad (n : BitVec 14) (d : Device) : Device :=
  let off := leNat (mboxRead d 0 4)
  let len := leNat (mboxRead d 4 4)
  let ok := decide (off % 64 = 0) && decide (1 ≤ len) && decide (len ≤ 8128) && decide (n.toNat = 8 + len)
    && decide (off + len ≤ 1048576)
  let noRight : Option Act :=
    if d.trust.session then none else some ⟨1, addrTrCmd, BitVec.ofNat 256 (65536 * n.toNat + 0x16)⟩
  mailbox 0x16 noRight [needInstaller d, needForm ok] (fun d =>
    let s := 1 - activeSlot d
    let old : List (Nat × Byte) := match vgetN FwSlot.erased d.trust.slots s with
      | .written m => if d.trust.loading then m else []
      | _ => []
    let data := mboxRead d 8 len
    let new := (data.foldl (fun (a : List (Nat × Byte) × Nat) b => (smapSet 0xFF a.1 a.2 b, a.2 + 1)) (old, off)).1
    startCmd 0x16 0 [] false (modTrust (fun t =>
      { t with loading := true, slots := vmodN t.slots s fun _ => .written new }) d)) d

/-- The detail of a firmware action: version, svn, and the rollback counter after it. -/
def fwDetail (version svn counter : Nat) : BitVec 256 := dput 32 version (dput 36 svn (dput 40 counter 0))

/-- FW_ACTIVATE: an acceptable image in the inactive slot becomes the active one; with no Foreman it starts at once. -/
def doFwActivate (n : BitVec 14) (d : Device) : Device :=
  let s := 1 - activeSlot d
  let counter := d.trust.store.rollback.toNat
  let r := checkSlot d s
  let bad : Option (BitVec 16) := match r with | .error c => some c | .ok _ => none
  let head := slotHead (vgetN .erased d.trust.slots s)
  let a : Act := ⟨5, s, fwDetail head.1 head.2 counter⟩
  mailbox 0x17 (some a) [needInstaller d, needForm (n = 0), (bad.isSome, 2, bad.getD 0), needLog d] (fun d =>
    match r with
    | .error _ => d
    | .ok i =>
      let d := logFlushed (actDone a d)
      let d := modTrust (fun t => { t with activeB := decide (s = 1), loading := false }) d
      let d := if d.trust.running.isNone then modTrust (fun t => { t with booting := some i }) (logStart i d) else d
      startCmd 0x17 0 [] false d) d

/-- ROLLBACK_ADVANCE: the counter rises to the svn of the running image. -/
def doRollback (n : BitVec 14) (d : Device) : Device :=
  let i := d.trust.running.getD ⟨0, 0, 0, none⟩
  let v := BitVec.ofNat 32 (max d.trust.store.rollback.toNat i.svn.toNat)
  let a : Act := ⟨5, 6, fwDetail i.version.toNat i.svn.toNat v.toNat⟩
  mailbox 0x18 (some a) [needFirmware d, needInstaller d, needForm (n = 0), needStore d, needLog d]
    (beginJob 0x18 a (.rollback v)) d

/-! ## Ends (R554, R571) -/

/-- MAILBOX_COMMAND_DONE: the running command, whose store write is done, posts its result. -/
def doMailboxDone (d : Device) : Device :=
  match d.trust.cmd with
  | none => d
  | some c =>
    if c.store then d
    else modTrust (fun t => { t with cmd := none, result := c.code, outLen := BitVec.ofNat 14 c.output.length,
                                     mbox := mboxPut c.output t.mbox }) d

/-- Mark the oldest entry that has not reached flash. -/
def firstDurable : List LogEntry → List LogEntry
  | [] => []
  | e :: r => if e.durable then e :: firstDurable r else { e with durable := true } :: r

/-- LOG_ENTRY_DURABLE: an entry reaches flash, or cannot be programmed. -/
def doLogDurable (programmed : Bool) (d : Device) : Device :=
  modTrust (fun t => { t with log := if programmed then firstDurable t.log else t.log, logFails := !programmed }) d

/-! ## The commands -/

def execGetCert (inLen : BitVec 14) (s : State) : Host.Outcome State Fault Refusal :=
  onHost (.getCert inLen) (doGetCert inLen) s
def execGetWrapKey (inLen : BitVec 14) (s : State) : Host.Outcome State Fault Refusal :=
  onHost (.getWrapKey inLen) (doGetWrapKey inLen) s
def execQuote (inLen : BitVec 14) (s : State) : Host.Outcome State Fault Refusal :=
  onHost (.quote inLen) (doQuote inLen) s
def execLogRead (inLen : BitVec 14) (s : State) : Host.Outcome State Fault Refusal :=
  onHost (.logRead inLen) (doLogRead inLen) s
def execClaim (inLen : BitVec 14) (s : State) : Host.Outcome State Fault Refusal :=
  onHost (.claim inLen) (doClaim inLen) s
def execOpenSession (inLen : BitVec 14) (s : State) : Host.Outcome State Fault Refusal :=
  onHost (.openSession inLen) (doOpen inLen) s
def execCloseSession (inLen : BitVec 14) (s : State) : Host.Outcome State Fault Refusal :=
  onHost (.closeSession inLen) (doClose inLen) s
def execTransferOwner (inLen : BitVec 14) (s : State) : Host.Outcome State Fault Refusal :=
  onHost (.transferOwner inLen) (doTransfer inLen) s
def execReleaseOwner (inLen : BitVec 14) (s : State) : Host.Outcome State Fault Refusal :=
  onHost (.releaseOwner inLen) (doRelease inLen) s
def execStoreWrite (inLen : BitVec 14) (s : State) : Host.Outcome State Fault Refusal :=
  onHost (.storeWrite inLen) (doStoreWrite inLen) s
def execFwLoad (inLen : BitVec 14) (s : State) : Host.Outcome State Fault Refusal :=
  onHost (.fwLoad inLen) (doFwLoad inLen) s
def execFwActivate (inLen : BitVec 14) (s : State) : Host.Outcome State Fault Refusal :=
  onHost (.fwActivate inLen) (doFwActivate inLen) s
def execRollbackAdvance (inLen : BitVec 14) (s : State) : Host.Outcome State Fault Refusal :=
  onHost (.rollbackAdvance inLen) (doRollback inLen) s
def execSessionExpired (s : State) : Host.Outcome State Fault Refusal := onDev doSessionExpired s
def execStoreWriteDone (programmed : Bool) (s : State) : Host.Outcome State Fault Refusal := onDev (doStoreDone programmed) s
def execIdentityDerived (s : State) : Host.Outcome State Fault Refusal := onDev doIdentity s
def execLogEntryDurable (s : State) (programmed : Bool := true) : Host.Outcome State Fault Refusal :=
  onDev (doLogDurable programmed) s
def execMailboxCommandDone (s : State) : Host.Outcome State Fault Refusal := onDev doMailboxDone s

end Sys2Proof.Machine
end

