-- ==== Sys2Proof/Machine/Reset.lean ====
section
/-!
DEFINITION. Machine/Reset.lean: device reset and start-up, the wake from Deep, and the resets of the three functions
(17_package_and_maps.md R587 to R590; 15 R536; 13 R493; 14 R518; and the reset rule of every chapter).
-/
namespace Sys2Proof.Machine

/-! ## Device reset (R336, R550, R560, R578, R587, R590) -/

/-- The part is held in device reset. -/
def inReset (d : Device) : Bool := d.trust.porLow || d.trust.railsBad

/-- A store write that the reset cuts off leaves the item whole, old or new: a free value says which (R560). -/
def cutStoreWrites (d : Device) : Device :=
  let (b, d) := takeFree 2 d
  let d := match d.trust.job with
    | some j => modTrust (writeItems (jobItems j) (applyJob j) (bit b 0)) d
    | none => d
  if d.forron.countPending && !d.forron.countFailed then
    modTrust (writeItems [7] (fun s => { s with powerOns := nextCount s.powerOns }) (bit b 1)) d
  else d

/-- An abrupt loss of power may lose the newest log entries that have not reached flash: a free value says how many (R590). -/
def loseLog (d : Device) : Device :=
  let (n, d) := takeFree 14 d
  modTrust (fun t =>
    let lost := min n.toNat (t.log.reverse.takeWhile fun e => !e.durable).length
    { t with log := t.log.take (t.log.length - lost) }) d

/-- Quads and fount regions that are disabled under R564 stay Off after a device reset (R594). -/
def gatedOff (d : Device) : Device :=
  ((rangeFrom 152 48).filter (domainGated d)).foldl (fun r n => modDomain n (fun x => { x with dstate := .off }) r) d

/-- What a device reset leaves: everything at its reset value, but for what flash and the always-on domain keep, and what has
left the block; the slots that HB_REFRESH asked for take effect (R292, R322, R542, R550, R578). -/
def wiped (d : Device) : Device :=
  let t : Trust :=
    { store := d.trust.store, copies := d.trust.copies, logFails := d.trust.logFails, slots := d.trust.slots, activeB := d.trust.activeB, log := d.trust.log,
      chain := d.trust.chain, seq := d.trust.seq, booting := none, porLow := d.trust.porLow, railsBad := d.trust.railsBad }
  let w : Power :=
    { resetPower d.part with padArm := d.power.padArm, padHeld := d.power.padHeld, pads := d.power.pads, sbAddr := d.power.sbAddr,
                             tripped := d.power.tripped, vccio := d.power.vccio, pinLow := d.power.pinLow,
                             alert := d.power.alert }
  let st : Vector Stack 8 := Vector.ofFn fun i =>
    { resetStack d.part i.1 with slotPoint := (stack d i.1).point, slotSpan := (stack d i.1).span,
                                 slotShares := (stack d i.1).shares }
  gatedOff { Device.fresh d.part with out := d.out, free := d.free, trust := t, power := w, hbmStacks := st }

/-- Everything that entering device reset does, before the state is lost. -/
def beforeReset (d : Device) : Device := cutStoreWrites (endSession 0 4 4 d)

/-- The part enters device reset; `rails` says that supplies are out of order. -/
def enterReset (rails : Bool) (d : Device) : Device :=
  let set (d : Device) : Device :=
    modTrust (fun t => { t with porLow := t.porLow || !rails, railsBad := t.railsBad || rails }) d
  if inReset d then set d
  else
    let d := beforeReset d
    set (wiped (if rails then loseLog d else d))

/-- Power has been removed: what only power-on clears is cleared, and the sideband address is loaded (R537, R542, R585). -/
def powerCycled (d : Device) : Device :=
  { d with power := { d.power with padArm := 0, padHeld := 0, pads := Vector.replicate 8 {}, tripped := false, sbAddr := d.trust.store.sideband },
           hbmStacks := resetStacks d.part }

/-- Start-up from reset values: the new incarnation, the challenge, the boot ROM's check, and CF_DONE low (R336, R443,
R556, R567, R588). The fills are in the reset values. Input pins that are low act again (R581). -/
def startUp (d : Device) : Device :=
  let d := modTrust (fun t => { t with porLow := false, railsBad := false }) d
  let d := modForron (fun f => { f with inc := BitVec.ofNat 16 (nextCount d.trust.store.powerOns), countPending := true }) d
  let d := emit (.cfDone true) (bootCheck (logAct 0xA 0 0 0 4 0 0xFF (newChallenge d)))
  updateStretch (rebudget 0x10 2 .powerUnit d)

/-- DEVICE_RESET: POR_N low, supplies removed and out of tolerance, or both back in order. -/
def doDeviceReset (k : ResetKind) (d : Device) : Device :=
  match k with
  | .porLow => enterReset false d
  | .railsBad => powerCycled (enterReset true d)
  | .release => if inReset d && !d.power.tripped then startUp d else d

/-- RAIL_FAULT: a monitored rail has been below tolerance for more than 16 points. -/
def doRailFault (d : Device) : Device := enterReset true d

/-! ## The wake from Deep (R294, R295, R536, R537) -/

/-- Bytes of a stack that a fraction retains. -/
def retainedBytes (fraction : BitVec 3) : Nat :=
  match fraction.toNat with
  | 0 => 0x1000000000
  | 1 => 0x800000000
  | 2 => 0x400000000
  | 3 => 0x200000000
  | _ => 0

/-- A device reset whose stacks keep what partial self-refresh retained. -/
def wakeFromDeep (d : Device) : Device :=
  let r := modPower (fun w => { w with deepWake := true }) (startUp (wiped (beforeReset d)))
  (List.range 8).foldl (fun r n =>
    let x := stack d n
    if x.state = .partialRefresh then
      modStack n (fun y => { y with mem := memKeepBelow (retainedBytes x.fraction) x.mem }) r
    else r) r

/-- SIDEBAND_ADDRESS_MATCH: the address is acknowledged, and each data byte written is answered with NACK. It is a wake event
in Stand, in Deep and during entry. -/
def doSideband (written : Nat) (d : Device) : Device :=
  if inReset d || d.power.tripped then d
  else
    let d := times (emit (.sideband none)) written (emit .sidebandAck d)
    if d.power.state = .deep && d.power.change.isNone then wakeFromDeep d
    else wakeEvent 1 none .sideband d

/-- LATCHED_WAKE: entry has completed, and the wake that came during it begins (R533). -/
def doLatchedWake (d : Device) : Device :=
  if inReset d || d.power.tripped || d.power.change.isSome then d
  else match d.power.latched with
    | none => d
    | some (src, asked) =>
      match d.power.state with
      | .stand => beginWake src.toNat (asked.getD (wakeTarget d)) (if src = 1 then .sideband else .host) d
      | .deep => wakeFromDeep d
      | _ => d

/-! ## Start of Foreman (R267, R290, R518, R588) -/

/-- The REFRESH system entry of stack `n`: it first fires at the next point of the slot in force. -/
def refreshEntry (d : Device) (n : Nat) : BitVec 128 :=
  let x := stack d n
  let s := if d.point < x.slotPoint.toNat then d.sheet else d.sheet + 1
  place 128 127 108 s ||| place 128 107 96 x.slotPoint.toNat ||| place 128 95 92 4 ||| place 128 91 80 0xFFF
    ||| place 128 79 60 x.slotSpan.toNat ||| place 128 47 44 1 ||| place 128 43 32 n
    ||| place 128 31 24 x.slotShares.toNat
    ||| place 128 23 8 1 ||| 1#128

/-- FOREMAN_STARTED: the chosen image runs. After a device reset the route tables and refresh entries are written. -/
def doForemanStarted (d : Device) : Device :=
  match d.trust.booting with
  | none => d
  | some i =>
    let d := modTrust (fun t => { t with running := some i, booting := none }) d
    let d := modPower (fun w => { w with deepWake := false }) d
    let d := modErrata (fun e => { e with paused := false }) d
    if d.chase.routed then d
    else
      let es := ((List.range 8).filter (stackPresent d.part)).map (refreshEntry d)
      modChase (fun c => { c with routed := true })
        (writeEntries ((freeIndices (65536 + d.mkr.table.length) 0 d.mkr.table es.length).zip es) d)

/-! ## Function Level Reset of PF1 (R66, R106, R144, R174, R202, R283, R322, R336, R372, R493, R518, R523) -/

/-- The counters of a platen cleared. -/
def clearPlaten (x : Platen) : Platen := { x with passCount := 0, feedCycles := 0, interlockWait := 0, intWrap := 0 }

/-- A press's counters and capture cleared. -/
def clearCounters (x : Press) : Press :=
  { x with plA := clearPlaten x.plA, plB := clearPlaten x.plB,
           fmt := { x.fmt with overflow := 0, underflow := 0, saturate := 0, vanish := 0, squash := 0 },
           ink := { x.ink with ops := 0, slugs := 0, promoted := 0, zeroRows := 0 },
           stalls := {}, sdCe := 0, sdUe := 0, cap := {} }

/-- A recovery in progress is abandoned (R516); an offline press is power cycled, and comes back if the cycle completes
(R513, R518). -/
def recallPress (p : Nat) (d : Device) : Device :=
  match (press d p).recovery.state with
  | .inService => d
  | .offline =>
    let d := modErrata (fun e => { e with offline := e.offline &&& ~~~BitVec.ofNat 128 (2 ^ p) }) d
    beginCycle p d
  | _ => modRecovery p (fun r => { r with state := .inService, fencedLog := [], cycled := false }) d

/-- One press under the reset of PF1. -/
def flrPress (d : Device) (p : Nat) : Device :=
  recallPress p (modPress p clearCounters (resetPress p (flushMem (.galley p) 0 0 (stopPress d p)).1))

/-- One forme: its compositor is Idle, its pools are closed, its counters and capture cleared. -/
def flrForme (d : Device) (f : Nat) : Device :=
  closePools f (modForme f (fun x =>
    { x with state := if x.state = .off then .off else .idle, task := none, pmask := 0, pend := [],
             tokens := Vector.replicate 64 0, instrs := 0, issueStall := 0, interlock := 0, sdCe := 0, sdUe := 0,
             cap := {} }) d)

/-- One quad: its port goes Down and trains again; its counters are cleared. -/
def flrQuad (d : Device) (q : Nat) : Device :=
  let d := if (quad d q).mode = 1 && (quad d q).state ≠ .prbs then beginTraining (portOf d q) (takeDown q d) else d
  modQuad q (fun x => { x with prbsErr := Vector.replicate 4 0, fecCorr := 0, fecUncorr := 0, crcErr := 0, retry := 0,
                               retrainCount := 0, staleDrop := 0 }) d

/-- A function's configuration space at its Function Level Reset: the Command register and the BARs as PCI Express has them reset
(PRESUMED, log 104); the AER status is kept; the reset is in progress, and the held high words are gone (R11, R496). -/
def flrFunction (fn : FnId) (h : HostIf) : HostIf :=
  let n := fnIndex fn
  let hold := match fn with
    | .pf0 => { h.hold with pf0 := [] }
    | .pf1 => { h.hold with pf1 := [] }
    | .pf2 => { h.hold with pf2 := [] }
  { h with command := vmodN h.command n fun _ => 0, bars := vmodN h.bars n fun _ => Vector.replicate 4 0, hold := hold,
           flr := setField h.flr n n 1 }

/-- The host interface after a reset of PF1: every register of PF1 BAR0 at its reset value, nothing queued. -/
def flrHost (h : HostIf) : HostIf :=
  let z : HostIf := {}
  flrFunction .pf1 { h with
           rings := z.rings, pqs := z.pqs, window := 0, errataPq := 0, apSel := 0, aperture := z.aperture,
           msix := z.msix, msixEnable := false, fnMask := false, doorbells := [], reading := none }

/-- Makeready after a reset of PF1: system entries stay. DESIGN CHOICE: a ticket whose read or admission is in progress is not
open, and is dropped without an answer (log 83). -/
def flrMakeready (m : Makeready) : Makeready :=
  { m with table := m.table.filter fun ie => eSlot ie.2 = 0xFFF, tickets := [], admission := none,
           accepted := 0, refused := 0, broken := 0 }

def flrPf1 (d : Device) : Device :=
  let d := (List.range 128).foldl flrPress d
  let d := (List.range 16).foldl flrForme d
  let d := modForron (fun f =>
    { f with inc := if f.inc = 0xFFFF then 1 else f.inc + 1, inbox := [], rx := [],
             engines := Vector.replicate 2 none }) d
  let d := (List.range 24).foldl flrQuad d
  let d := (List.range 8).foldl (fun d n =>
    modStack n (fun x => { x with ce := 0, ue := 0, replays := 0, fatal := 0 }) d) d
  settleDomains (modMk flrMakeready (modHost flrHost d))

/-! ## Function Level Reset of PF2 (R422, R449, R451, R463, R493) -/

/-- With no load open: every configured region is held, its flip-flops initial, and released again (R446, R451). -/
def stagedReset (d : Device) : Device :=
  if d.cf.regions = 0 then d
  else modCf (fun c => { c with held := c.held ||| c.regions, state := .releasing, release := some (0, c.regions, 0) })
    (restartFlops d.cf.regions d)

def flrPf2 (d : Device) : Device :=
  let d := if d.cf.load.isSome then doCfAbort d else stagedReset d
  let d := if d.cf.capState = .timedOut then d else modCf cancelCapture d
  let d := d.host.user.foldl (fun d q => withdrawUser q d) d
  let d := modFount (fun f => { f with feedWait := Vector.replicate 32 0, slips := Vector.replicate 24 0 }) d
  modHost (fun h => flrFunction .pf2 { h with user := [] }) d

/-! ## Function Level Reset of PF0 (R11, R493, R518, R555, R557, R567, R578) -/

def flrPf0 (role source : Nat) (d : Device) : Device :=
  let d := bootCheck (endSession role source 3 d)
  let d := modTrust (fun t => { t with cmd := none }) d
  let d := modErrata (fun e => { e with paused := true }) d
  modHost (flrFunction .pf0) d

/-- A Function Level Reset is logged (R570). -/
def logFlr (role source fn : Nat) (d : Device) : Device := logAct 0xA role 0 0 source 0 (BitVec.ofNat 256 fn) d

def doFlrPf0 (d : Device) : Device := flrPf0 (reqRole d .pf0) 0 (logFlr (reqRole d .pf0) 0 0 d)
def doFlrPf1 (d : Device) : Device := flrPf1 (logFlr 1 1 1 d)
def doFlrPf2 (d : Device) : Device := flrPf2 (logFlr 1 2 2 d)

/-- HOT_RESET: all three functions at once; one log entry for the part. -/
def doHotReset (d : Device) : Device := flrPf0 0 4 (flrPf2 (flrPf1 (logFlr 0 4 0xFF d)))

/-! ## The commands -/

def execDeviceReset (kind : ResetKind) (s : State) : Host.Outcome State Fault Refusal := onAlways (doDeviceReset kind) s
def execRailFault (s : State) : Host.Outcome State Fault Refusal := onAlways doRailFault s
def execSidebandAddressMatch (s : State) (written : BitVec 8 := 0) : Host.Outcome State Fault Refusal :=
  onAlways (doSideband written.toNat) s
def execLatchedWake (s : State) : Host.Outcome State Fault Refusal := onAlways doLatchedWake s
def execForemanStarted (s : State) : Host.Outcome State Fault Refusal := onDev doForemanStarted s
def execFlrPf0 (s : State) : Host.Outcome State Fault Refusal := onDev doFlrPf0 s
def execFlrPf1 (s : State) : Host.Outcome State Fault Refusal := onDev doFlrPf1 s
def execFlrPf2 (s : State) : Host.Outcome State Fault Refusal := onDev doFlrPf2 s
def execHotReset (s : State) : Host.Outcome State Fault Refusal := onDev doHotReset s

end Sys2Proof.Machine
end

