-- ==== Sys2Proof/Machine/Registers.lean ====
section
/-!
DEFINITION. Machine/Registers.lean: a write of a register whose fields have no command of their own, by address, and which
registers hold 64-bit quantities (00_scope.md R8 to R13; 13 R470; 17 R591, R592; the register tables of every
chapter). The fields of one register that have commands of their own are left alone here.
-/
namespace Sys2Proof.Machine

/-! ## Access codes (R12, R13, R552, R553, R560) -/

/-- The guarded fields of a register whose written value differs from what they hold: each is an attempt of its own (R13). -/
def changes (l : List Bool) : Nat := (l.filter (·)).length

/-- A write of guarded fields: one log entry for each of the `k` fields that the written value would change; without the
right each is reported, and the write discarded (R13, R553). -/
def guarded (right : Bool) (r : Requester) (addr : Nat) (v : Word) (k : Nat) (act : Device → Device) (d : Device) :
    Device :=
  if k = 0 then d else withRight right r addr v act (times (withRight right r addr v id) (k - 1) d)

/-- RWI fields of a register: `l` says of each whether the written value differs. -/
def rwi (r : Requester) (addr : Nat) (v : Word) (l : List Bool) (act : Device → Device) (d : Device) : Device :=
  guarded (installer d r) r addr v (changes l) act d

/-- RWM fields of a register. -/
def rwm (r : Requester) (addr : Nat) (v : Word) (l : List Bool) (act : Device → Device) (d : Device) : Device :=
  guarded (r = .foreman) r addr v (changes l) act d

/-- Store-backed RWI fields: their write goes to flash, and is discarded while another store write is in progress. -/
def rwiStore (r : Requester) (addr : Nat) (v : Word) (l : List Bool) (j : StoreJob) (d : Device) : Device :=
  let detail := BitVec.ofNat 256 v.toNat
  let n := changes l
  let fail (outcome : Nat) (code : BitVec 16) : Device :=
    times (fun d => logRefused 1 (reqRole d r) outcome code (reqSource r) addr detail d) n d
  if n = 0 then d
  else if !installer d r then fail 1 0x0901
  else if storeBusy d then fail 2 0x0905
  else if d.trust.logFails then fail 2 0x0908
  else
    let d := logFlushed (times (fun d => logAct 1 (reqRole d r) 0 0 (reqSource r) addr detail d) n d)
    modTrust (fun t => { t with job := some j, jobLog := t.log.getLast? }) d

/-! ## Trust (R576, R577) -/

/-- Mask of the present quads. -/
def quadMask (p : Part) : BitVec 24 := BitVec.ofNat 24 (((List.range 24).filter (quadPresent p)).foldl (fun a q => a + 2 ^ q) 0)

/-- Opcodes of R554. -/
def mboxOps : List Nat := [1, 2, 3, 4, 0x10, 0x11, 0x12, 0x13, 0x14, 0x15, 0x16, 0x17, 0x18]

/-- A write of TR_CMD with an opcode that R554 does not give; the others are commands of their own (R555). -/
def writeTrCmd (v : Word) (d : Device) : Device :=
  let op := fieldN v 7 0
  if mboxOps.contains op then d
  else mailbox op none [needFirmware d, needForm false] id d

def writeTrust (r : Requester) (a : Nat) (v : Word) (d : Device) : Device :=
  let s := d.trust.store
  match a with
  | 0x04 => writeTrCmd v d
  | 0x20 => rwiStore r a v [field v 5 0 ≠ s.locks] (.locks (field v 5 0)) d
  | 0x24 => rwiStore r a v [bit v 1 ≠ bit s.policy 1, bit v 0 ≠ bit s.policy 0] (.policy (field v 1 0)) d
  | 0x28 => rwiStore r a v [field v 15 8 ≠ s.keyEnable] (.keyEnable (field v 15 8)) d
  | 0x2C => rwiStore r a v [field v 23 0 &&& quadMask d.part ≠ s.enForron &&& quadMask d.part] (.enForron (field v 23 0)) d
  | 0x30 => rwiStore r a v [field v 23 0 &&& quadMask d.part ≠ s.enFount &&& quadMask d.part] (.enFount (field v 23 0)) d
  | 0x34 => rwiStore r a v [field v 23 0 ≠ s.enRegion] (.enRegion (field v 23 0)) d
  | 0x38 => rwiStore r a v [field v 1 0 ≠ s.enEngine] (.enEngine (field v 1 0)) d
  | _ =>
    if 0x1000 ≤ a && a < 0x3000 then
      modTrust (fun t => { t with mbox :=
        ((leBytes 4 v.toNat).foldl (fun (x : List (Nat × Byte) × Nat) b => (smapSet 0 x.1 x.2 b, x.2 + 1))
          (t.mbox, a - 0x1000)).1 }) d
    else d

/-! ## Press Time and Makeready (R58 to R65) -/

def writeTime (r : Requester) (a : Nat) (v : Word) (d : Device) : Device :=
  match a with
  | 0x100000 =>
    rwi r a v [bit v 1 ≠ d.time.codeRequired] (modTime fun t => { t with codeRequired := bit v 1 }) d
  | 0x100040 => modMk (fun m => { m with search := field v 28 16, lead := field v 11 8, admitting := bit v 0 }) d
  | 0x10004C =>
    rwi r a v [field v 8 0 ≠ d.mkr.budget]
      (fun d => rebudget 0x20 1 .host (modMk (fun m => { m with budget := field v 8 0 }) d)) d
  | 0x100080 => modMk (fun m => { m with tableIndex := field v 15 0 }) d
  | _ =>
    if 0x100060 ≤ a && a < 0x100070 then
      let n := (a - 0x100060) / 4
      let formes := if fieldN v 4 0 ≤ 16 then field v 4 0 else vgetN 0 d.mkr.classFormes n
      rwi r a v [field v 24 16 ≠ vgetN 0 d.mkr.classPower n, field v 4 0 ≠ vgetN 0 d.mkr.classFormes n]
        (modMk fun m => { m with classPower := vmodN m.classPower n fun _ => field v 24 16,
                                 classFormes := vmodN m.classFormes n fun _ => formes }) d
    else d

/-! ## Errata (R521) -/

def writeErrata (a : Nat) (v : Word) (d : Device) : Device :=
  match a with
  | 0x200000 => modErrata (fun e => { e with spill := bit v 0 }) d
  | 0x200008 => if bit v 31 then modErrata (fun e => { e with overflow := false }) d else d
  | 0x20000C => modErrata (fun e => { e with readIndex := field v 9 0 }) d
  | 0x200050 => modErrata (fun e => { e with drainPt := field v 27 16, abortPt := field v 11 0 }) d
  | _ => d

/-! ## Power (R549) -/

/-- PW_GOVERNOR.cap as a write leaves it. -/
def capWritten (v : Word) (w : Power) : BitVec 8 := if 4 ≤ fieldN v 15 8 then field v 15 8 else w.cap

/-- PW_LIMITS.temp_throttle as a write leaves it. -/
def limitWritten (v : Word) (w : Power) : BitVec 8 :=
  if 60 ≤ fieldN v 7 0 && fieldN v 7 0 ≤ 105 then field v 7 0 else w.tempThrottle

def writePower (r : Requester) (a : Nat) (v : Word) (d : Device) : Device :=
  match a with
  | 0x300000 => if fieldN v 5 4 = 3 then d else modPower (fun w => { w with wakeTo := field v 5 4 }) d
  | 0x300030 => modPower (fun w => { w with domainSel := field v 7 0 }) d
  | 0x300040 =>
    rwi r a v [field v 15 8 ≠ d.power.cap, field v 7 0 ≠ d.power.rate]
      (modPower fun w => { w with cap := capWritten v w, rate := field v 7 0 }) d
  | 0x300048 => modPower (fun w => { w with wakeAtLo := v }) d
  | 0x300050 =>
    if bit v 31 then d
    else withRight (lockable d r 3) r a v (modPower fun w => { w with opBudget := field v 24 16, lead := field v 7 0 }) d
  | 0x300054 =>
    rwi r a v [field v 24 16 ≠ d.power.pinBudget, field v 7 0 ≠ d.power.tempThrottle]
      (fun d => rebudget 0x20 2 .host
        (modPower (fun w => tempJudge w.temp { w with pinBudget := field v 24 16, tempThrottle := limitWritten v w }) d)) d
  | 0x300080 => modPower (fun w => { w with padArm := field v 7 0 }) d
  | _ =>
    if 0x300010 ≤ a && a < 0x300020 then
      let n := (a - 0x300010) / 4
      withRight (lockable d r 2) r a v (fun d =>
        settleDomains (modPower (fun w => { w with trimMask := vmodN w.trimMask n fun _ => v }) d)) d
    else d

/-! ## HBM (R318 to R320) -/

/-- HB_REFRESH takes a written value: a span below 1,024, or a share count outside 1 to 16, leaves it unchanged. -/
def refreshWrite (v : Word) (x : Stack) : Stack :=
  if 1024 ≤ fieldN v 19 8 && 1 ≤ fieldN v 7 3 && fieldN v 7 3 ≤ 16 then
    { x with point := field v 31 20, span := field v 19 8, shares := field v 7 3 }
  else x

/-- Registers of the block of stack `n`. -/
def writeStack (r : Requester) (n a off : Nat) (v : Word) (d : Device) : Device :=
  let x := stack d n
  match off with
  | 0x08 =>
    rwm r a v [field v 31 20 ≠ x.point, field v 19 8 ≠ x.span, field v 7 3 ≠ x.shares] (modStack n (refreshWrite v)) d
  | 0x0C =>
    rwi r a v [field v 2 0 ≠ x.fraction]
      (modStack n fun x => { x with fraction := if fieldN v 2 0 ≤ 4 then field v 2 0 else x.fraction }) d
  | 0x104 => if n = 0 && bit v 16 then modHbm (fun h => { h with overflow := false }) d else d
  | 0x110 => if n = 0 then modHbm (fun h => { h with retireIndex := field v 10 0 }) d else d
  | 0x114 =>
    if n = 0 then
      modHbm (fun h => { h with retire := smapSet 0 h.retire h.retireIndex.toNat (v &&& 0x87FFFFFF#32) }) d
    else d
  | _ => d

/-! ## The Forron link (R369 to R371) -/

/-- FL_QUAD_CTRL.bond: both ports of the pair go Down and train again (R324). -/
def writeBond (q : Nat) (v : Word) (d : Device) : Device :=
  if q % 2 = 1 || bit v 2 = (quad d q).bond then d
  else resetPair q (modQuad q fun x => { x with bond := bit v 2 }) d

/-- Every port is Down. -/
def portsDown (d : Device) : Bool := d.quads.toList.all fun x => x.mode ≠ 1 || x.state = .down

/-- Word `k` of a ring entry takes a written value. -/
def ringWrite (k : Nat) (v : Word) (e : RingEntry) : RingEntry :=
  match k with
  | 0 => { e with valid := bit v 31, sizeM1 := field v 16 0 }
  | 1 => { e with position := field v 16 0 }
  | 2 => { e with successor := field v 26 0 }
  | _ => { e with predecessor := field v 26 0 }

/-- Device-wide registers, in the block of LQ00. -/
def writeForron (r : Requester) (a off : Nat) (v : Word) (d : Device) : Device :=
  match off with
  | 0x100 => modForron (fun f => { f with grantHold := field v 31 16, retryTimeout := field v 15 4, retryLimit := field v 3 0 }) d
  | 0x104 =>
    withRight (lockable d r 5) r a v (fun d =>
      if portsDown d then modForron (fun f => { f with quire := field v 16 9, device := field v 8 0 }) d else d) d
  | 0x110 => modForron (fun f => { f with ringSel := field v 4 0 }) d
  | 0x124 => modForron (fun f => { f with orouteSel := field v 10 0 }) d
  | _ =>
    if 0x114 ≤ off && off ≤ 0x120 then
      withRight (lockable d r 5) r a v (modForron fun f =>
        { f with rings := vmodN f.rings (b2n (bit f.ringSel 4)) fun x =>
            vmodN x (fieldN f.ringSel 3 0) (ringWrite ((off - 0x114) / 4) v) }) d
    else d

/-- Registers of the block of quad `q`. -/
def writeQuad (r : Requester) (q a off : Nat) (v : Word) (d : Device) : Device :=
  match off with
  | 0x00 => writeBond q v d
  | 0x0C => withRight (lockable d r 5) r a v (modQuad q fun x => { x with expect := v &&& 0xFFFFFE00#32 }) d
  | 0x80 => modQuad q (fun x => { x with routeIndex := field v 9 0 }) d
  | _ => if q = 0 then writeForron r a off v d else d

/-! ## The chase (R282) -/

def writeChase (a : Nat) (v : Word) (d : Device) : Device :=
  match a with
  | 0x800000 => modChase (fun c => { c with grantDeadline := field v 11 0 }) d
  | 0x800004 => modChase (fun c => { c with routeNi := field v 25 16, routeIndex := field v 9 0 }) d
  | _ => d

/-! ## Formes and presses (R102 to R105, R172, R282, R321, R509, R592) -/

/-- A register of a press block that holds a stored field, or one that a written 1 clears: what a write changes. Counter clears are commands of their own. -/
def pressWrite (off : Nat) (v : Word) : Option (Press → Press) :=
  match off with
  | 0x200 => some fun x => { x with fmt := fmtCtrlWrite v x.fmt }
  | 0x304 => some fun x => { x with plA := { x.plA with fault := x.plA.fault && !bit v 12 } }
  | 0x344 => some fun x => { x with plB := { x.plB with fault := x.plB.fault && !bit v 12 } }
  | 0x504 => some fun x => { x with ink := limitWrite v x.ink }
  | 0x508 => some fun x => { x with ink := fallbackWrite v x.ink }
  | 0x780 => some fun x => { x with block := v }
  | _ => none

/-- A host write to a press block: discarded, with PS_FENCED, while the frisket is closed. -/
def writePress (p off : Nat) (v : Word) (d : Device) : Device :=
  if fenced d p then (if off = 0xF40 then d else logPress p 0x0A01 false d)
  else match pressWrite off v with
    | some g => modPress p g d
    | none => d

/-- Registers of the block of forme `f`. -/
def writeForme (f off : Nat) (v : Word) (d : Device) : Device :=
  if off < 0x20000 then writePress (8 * f + off / 0x4000) (off % 0x4000) v d
  else match off with
    | 0x20240 => modForme f (fun x => { x with block := setField x.block 31 0 v.toNat }) d
    | 0x20244 => modForme f (fun x => { x with block := setField x.block 63 32 v.toNat }) d
    | _ => d

/-! ## Configuration and the fount (R421, R461, R462) -/

def writeConf (a : Nat) (v : Word) (d : Device) : Device :=
  match a with
  | 0xD00000 => modCf (fun c => { c with frameCheck := bit v 3 }) d
  | 0xD0001C => modCf (fun c => { c with gap := field v 15 0 }) d
  | 0xD00020 => modCf (fun c => { c with peerTimeout := v }) d
  | 0xD00030 => modCf (fun c => { c with capTree := field v 4 0 }) d
  | 0xD00034 => modCf (fun c => { c with capRegions := field v 23 0 }) d
  | 0xD00038 => modCf (fun c => { c with capAtLo := v }) d
  | 0xD0003C => modCf (fun c => { c with capAtHi := v }) d
  | 0xD00054 => if bit v 31 then modCf (fun c => { c with upset := false }) d else d
  | _ => d

/-- The three taps of FT_TXEQnn do not exceed full swing (R421). -/
def tapsFit (v : Word) : Bool := (sextN 6 (fieldN v 17 12)).natAbs + fieldN v 11 6 + (sextN 6 (fieldN v 5 0)).natAbs ≤ 32

def writeFount (a : Nat) (v : Word) (d : Device) : Device :=
  if a = 0xE00000 then modFount (fun f => { f with treeOver := f.treeOver &&& ~~~v }) d
  else if 0xE00400 ≤ a && a < 0xE00460 then
    let q := (a - 0xE00400) / 4
    if quadPresent d.part q && tapsFit v then
      modFount (fun f => { f with txeq := vmodN f.txeq q fun _ => v &&& 0x3FFFF#32 }) d
    else d
  else d

/-! ## PF1 BAR0 (R494, R495) -/

/-- The page base of a 64-bit host address: bits [63:12]; `hi` says which word is written. -/
def baseWrite (hi : Bool) (v : Word) (b : BitVec 64) : BitVec 64 :=
  if hi then setField b 63 32 v.toNat else setField b 31 0 (v &&& 0xFFFFF000#32).toNat

/-- A page of ring `r`: its base, while it is disabled (R482). -/
def writeRing (r off : Nat) (v : Word) (d : Device) : Device :=
  if (vgetN {} d.host.rings r).enable then d
  else match off with
    | 0x00 => modRing r (fun x => { x with base := baseWrite false v x.base }) d
    | 0x04 => modRing r (fun x => { x with base := baseWrite true v x.base }) d
    | _ => d

/-- A page of proof queue `q`. -/
def writePq (q off : Nat) (v : Word) (d : Device) : Device :=
  match off with
  | 0x00 => modPq q (fun x => { x with base := baseWrite false v x.base }) d
  | 0x04 => modPq q (fun x => { x with base := baseWrite true v x.base }) d
  | 0x14 => if bit v 31 then modPq q (fun x => { x with overflow := false }) d else d
  | _ => d

def modAperture (g : Aperture → Aperture) (d : Device) : Device :=
  modHost (fun h => { h with aperture := vmodN h.aperture h.apSel.toNat g }) d

/-- The last GiB at which the window may begin (R495). -/
def windowMax : Part → Nat
  | .xg9480 => 448
  | .xg9460 => 320

/-- The device page. -/
def writeDevPage (off : Nat) (v : Word) (d : Device) : Device :=
  match off with
  | 0x00 => if fieldN v 8 0 ≤ windowMax d.part then modHost (fun h => { h with window := field v 8 0 }) d else d
  | 0x04 => modHost (fun h => { h with errataPq := field v 2 0 }) d
  | 0x10 => modHost (fun h => { h with apSel := field v 5 0 }) d
  | 0x14 => modAperture (fun x => { x with base := baseWrite false v x.base }) d
  | 0x18 => modAperture (fun x => { x with base := baseWrite true v x.base }) d
  | 0x1C =>
    if fieldN v 22 0 ≤ 4194304 then modAperture (fun x => { x with valid := bit v 31, pages := field v 22 0 }) d else d
  | _ => d

/-- A vector whose message is pending sends it, where nothing masks it any more (R491). -/
def releaseVector (n : Nat) (d : Device) : Device :=
  let x := vgetN {} d.host.msix n
  if x.pending && !x.masked && !d.host.fnMask then
    sendVector n (modHost (fun h => { h with msix := vmodN h.msix n fun x => { x with pending := false } }) d)
  else d

/-- Word `k` of MSI-X vector `n`. Unmasking a vector whose message is pending sends it (R491). -/
def writeMsix (n k : Nat) (v : Word) (d : Device) : Device :=
  let set (g : MsixVector → MsixVector) (d : Device) : Device := modHost (fun h => { h with msix := vmodN h.msix n g }) d
  match k with
  | 0 => set (fun x => { x with addr := setField x.addr 31 0 (v &&& 0xFFFFFFFC#32).toNat }) d
  | 1 => set (fun x => { x with addr := setField x.addr 63 32 v.toNat }) d
  | 2 => set (fun x => { x with data := v }) d
  | _ =>
    releaseVector n (set (fun x => { x with masked := bit v 0 }) d)

/-- PF1 BAR0 by offset. -/
def writePf1 (a : Nat) (v : Word) (d : Device) : Device :=
  if !fnServes d .pf1 then d
  else if a < 0x40000 then writeRing (a / 0x1000) (a % 0x1000) v d
  else if a < 0x48000 then writePq ((a - 0x40000) / 0x1000) (a % 0x1000) v d
  else if 0x50000 ≤ a && a < 0x51000 then writeDevPage (a - 0x50000) v d
  else if 0x60000 ≤ a && a < 0x60400 then writeMsix ((a - 0x60000) / 16) ((a - 0x60000) % 16 / 4) v d
  else d

/-! ## By address (R591) -/

/-- PF0 BAR0 by address. Blocks of absent units, and offsets without a register, discard writes (R2, R470). -/
def writePf0 (r : Requester) (a : Nat) (v : Word) (d : Device) : Device :=
  if a < 0x100000 then writeTrust r a v d
  else if a < 0x200000 then writeTime r a v d
  else if a < 0x300000 then writeErrata a v d
  else if a < 0x400000 then writePower r a v d
  else if a < 0x600000 then
    let n := (a - 0x400000) / 0x40000
    if stackPresent d.part n then writeStack r n a (a % 0x40000) v d else d
  else if a < 0x780000 then
    let q := (a - 0x600000) / 0x10000
    if quadPresent d.part q then writeQuad r q a (a % 0x10000) v d else d
  else if a < 0x800000 then d
  else if a < 0x900000 then writeChase a v d
  else if a < 0xD00000 then writeForme ((a - 0x900000) / 0x40000) ((a - 0x900000) % 0x40000) v d
  else if a < 0xE00000 then writeConf a v d
  else if a < 0xF00000 then writeFount a v d
  else d

/-- REGISTER_WRITE: without all four byte enables the write is discarded (R9). -/
def doRegisterWrite (r : Requester) (a : RegAddr) (v : Word) (be : BitVec 4) (d : Device) : Device :=
  if be ≠ 0xF then d
  else match r with
    | .pf1 => writePf1 a.toNat v d
    | .pf2 => d
    | _ => writePf0 r a.toNat v d

/-- A write that covers several registers acts on each, in ascending address (R470). -/
def doRegisters (r : Requester) (a : RegAddr) : List (Word × BitVec 4) → Device → Device
  | [], d => d
  | (v, be) :: rest, d => doRegisters r (a + 4) rest (doRegisterWrite r a v be d)

/-! ## Configuration space (R464, R466, R469, R484, R491) -/

/-- The word `new`, in the bytes that the enables name, else `old`. -/
def mergeWord (be : BitVec 4) (old new : Word) : Word :=
  let m : Word := (BitVec.ofNat 32 ((List.range 4).foldl (fun a k => a + b2n (bit be k) * (255 * 2 ^ (8 * k))) 0))
  (old &&& ~~~m) ||| (new &&& m)

/-- The writable bits of word `k` of a function's BARs: those above its size (R469). -/
def barMask : FnId → Nat → Word
  | .pf0, 0 => 0xFE000000#32
  | .pf0, 1 => 0xFFFFFFFF#32
  | .pf1, 0 => 0xFFF00000#32
  | .pf1, 1 => 0xFFFFFFFF#32
  | .pf1, 3 => 0xFFFFFFF0#32
  | .pf2, 0 => 0xF0000000#32
  | .pf2, 1 => 0xFFFFFFFF#32
  | .pf2, 2 => 0xFFFC0000#32
  | .pf2, 3 => 0xFFFFFFFF#32
  | _, _ => 0

/-- A write to the configuration space of function `fn`: the Command register, the BARs, the power state, MSI-X control and the AER
status. Its offsets are PCI Express's (PRESUMED, log 104). -/
def doConfigWrite (fn : FnId) (off : Nat) (v : Word) (be : BitVec 4) (d : Device) : Device :=
  let n := fnIndex fn
  match off with
  | 0x04 =>
    modHost (fun h => { h with command := vmodN h.command n fun c =>
      (mergeWord be (c.setWidth 32) v).setWidth 16 &&& 0x0546#16 }) d
  | 0x44 =>
    if !bit be 0 then d
    else if fieldN v 1 0 = 3 then doD3hot (BitVec.ofNat 3 (2 ^ n)) d
    else if fieldN v 1 0 = 0 && bit d.host.d3hot n then doFunctionD0 n d
    else d
  | 0x90 =>
    if fn ≠ .pf1 || !bit be 3 then d
    else
      let release := d.host.msixEnable && d.host.fnMask && bit v 31 && !bit v 30
      let d := modHost (fun h => { h with msixEnable := bit v 31, fnMask := bit v 30 }) d
      if release then (List.range 64).foldl (fun d k => releaseVector k d) d else d
  | 0x124 => modHost (fun h => { h with aer := vmodN h.aer n fun w => w &&& ~~~(mergeWord be 0 v) }) d
  | _ =>
    if 0x10 ≤ off && off < 0x20 then
      let k := (off - 0x10) / 4
      modHost (fun h => { h with bars := vmodN h.bars n fun b => vmodN b k fun w => mergeWord be w v &&& barMask fn k }) d
    else d

/-- A write request to configuration space: it is answered by a completion without data. -/
def doConfigRequest (fn : FnId) (off : Nat) (v : Word) (be : BitVec 4) (d : Device) : Device :=
  if !d.host.linkUp then d else emit (.completion fn (.data [])) (doConfigWrite fn off v be d)

/-! ## Low words (R11) -/

/-- The 64-bit quantity whose low word is at an address of PF0 BAR0, where there is one. -/
def quantity0 (d : Device) (a : Nat) : Option (BitVec 64) :=
  let cap (c : Capture) (off : Nat) : Option (BitVec 64) :=
    match off with
    | 0xF04 => some c.time
    | 0xF0C => some c.ticket
    | _ => none
  match a with
  | 0x40 => some imprint
  | 0x48 => some Config.serial
  | 0x50 => some (BitVec.ofNat 64 d.trust.seq)
  | 0x100008 => some d.time.count
  | 0x300048 => some (d.power.wakeAtHi ++ d.power.wakeAtLo)
  | 0xD00038 => some (d.cf.capAtHi ++ d.cf.capAtLo)
  | _ =>
    if 0x400000 ≤ a && a < 0x600000 then
      let n := (a - 0x400000) / 0x40000
      if stackPresent d.part n then cap (stack d n).cap (a % 0x40000) else none
    else if 0x600000 ≤ a && a < 0x780000 then
      let q := (a - 0x600000) / 0x10000
      if quadPresent d.part q then cap (quad d q).cap (a % 0x10000) else none
    else if 0x800000 ≤ a && a < 0x900000 then cap d.errata.chaseCap (a - 0x800000)
    else if 0x900000 ≤ a && a < 0xD00000 then
      let f := (a - 0x900000) / 0x40000
      let off := (a - 0x900000) % 0x40000
      if off < 0x20000 then cap (press d (8 * f + off / 0x4000)).cap (off % 0x4000)
      else cap (forme d f).cap (off - 0x20000)
    else none

/-- The same of PF1 BAR0. -/
def quantity1 (d : Device) (a : Nat) : Option (BitVec 64) :=
  if a < 0x40000 then (if a % 0x1000 = 0 then some (vgetN {} d.host.rings (a / 0x1000)).base else none)
  else if a < 0x48000 then (if a % 0x1000 = 0 then some (pqueue d ((a - 0x40000) / 0x1000)).base else none)
  else if a = 0x50014 then some (vgetN {} d.host.aperture d.host.apSel.toNat).base
  else none

/-- The quantity that a function reads at an address. -/
def quantity (d : Device) (fn : FnId) (a : Nat) : Option (BitVec 64) :=
  match fn with
  | .pf0 => quantity0 d a
  | .pf1 => quantity1 d a
  | .pf2 => none

/-- A function's held copy of the high word at an address, or none. DESIGN CHOICE: R11 speaks of a holding register and of the
function's copy; the model keeps one copy for each 64-bit quantity that the function has read low word first. -/
def setHold (fn : FnId) (a : Nat) (w : Option Word) (h : HoldRegs) : HoldRegs :=
  match fn with
  | .pf0 => { h with pf0 := smapSet none h.pf0 a w }
  | .pf1 => { h with pf1 := smapSet none h.pf1 a w }
  | .pf2 => { h with pf2 := smapSet none h.pf2 a w }

/-! ## The commands -/

/-- The effect of REGISTER_WRITE. -/
def registerEffect (src : Requester) (addr : RegAddr) (value : Word) (be : BitVec 4) (more : List (Word × BitVec 4))
    (poisoned config : Bool) : Device → Device :=
  hostWrite (reqFn src) poisoned
    (if config then doConfigRequest (reqFn src) addr.toNat value be else doRegisters src addr ((value, be) :: more))

def execRegisterWrite (src : Requester) (addr : RegAddr) (value : Word) (be : BitVec 4) (s : State)
    (more : List (Word × BitVec 4) := []) (poisoned : Bool := false) (config : Bool := false) :
    Host.Outcome State Fault Refusal :=
  onSource src (.registerWrite src addr value be more poisoned config)
    (registerEffect src addr value be more poisoned config) s

end Sys2Proof.Machine
end

