-- ==== Sys2Proof/Machine/Replay.lean ====
section
/-!
DEFINITION. Machine/Replay.lean: pause and resume: the save image, its writing and its restoring
(10_bit_identity_and_replay.md R385 to R393).
R388 names the content of the compositor's, the presses' and the queue's areas and not its layout there. The model keeps
the content in the order of R388 and stores each byte XOR `Config.saveMask`, so that nothing is known of a stored byte
and a restore gives back exactly what was saved (DESIGN CHOICE).
-/
namespace Sys2Proof.Machine

/-! ## Areas of an open layout -/

/-- Fields of given byte widths, one after the other. -/
def packFields : List (Nat × Nat) → List Byte
  | [] => []
  | (w, v) :: r => leBytes w v ++ packFields r

/-- The values of fields of these widths. -/
def unpackFields : List Nat → List Byte → List Nat
  | [], _ => []
  | w :: r, l => leNat (l.take w) :: unpackFields r (l.drop w)

/-- Exactly `n` bytes: cut, or followed by zeros. -/
def fitBytes (n : Nat) (l : List Byte) : List Byte := (l ++ bytesOf (n - l.length) 0).take n

def maskArea (area : Nat) (l : List Byte) : List Byte := l.mapIdx fun i b => b ^^^ Config.saveMask area i

/-- Values of a vector as fields of `w` bytes. -/
def vecFields {k n : Nat} (w : Nat) (v : Vector (BitVec k) n) : List (Nat × Nat) := v.toList.map fun x => (w, x.toNat)

/-- A vector from consecutive values. -/
def vecFrom (k n : Nat) (l : List Nat) (at_ : Nat) : Vector (BitVec k) n :=
  Vector.ofFn fun i => BitVec.ofNat k (l.getD (at_ + i.1) 0)

def poolFields (q : Pool) : List (Nat × Nat) :=
  [(1, b2n q.isOpen), (4, q.head), (4, q.tail), (4, q.free), (4, q.base), (4, q.size), (1, b2n q.lsig), (1, q.ltok),
   (4, q.committed)]

def poolFrom (l : List Nat) (i : Nat) : Pool :=
  let g (k : Nat) : Nat := l.getD (i + k) 0
  ⟨g 0 = 1, g 1, g 2, g 3, g 4, g 5, g 6 = 1, g 7, g 8⟩

def coCode : CoState → Nat
  | .off => 0 | .idle => 1 | .loading => 2 | .running => 3 | .finishing => 4 | .faulted => 5
def coOf (n : Nat) : CoState :=
  if n ≤ 1 then .idle else if n = 3 then .running else if n = 4 then .finishing else .faulted

/-! ## Compositor state (offset 0 of a forme section) -/

def formeFields (x : Forme) : List (Nat × Nat) :=
  let r := x.regs
  vecFields 4 r.g ++ vecFields 5 r.acc ++ vecFields 2 r.x ++ vecFields 2 r.y ++ vecFields 4 r.mx ++ vecFields 4 r.my
    ++ vecFields 32 r.t
    ++ [(2, r.trip.toNat), (3, r.iter.toNat), (1, r.depth.toNat), (1, r.rstep.toNat), (1, r.rbase.toNat), (4, r.cr.toNat),
        (4, r.sr.toNat)]
    ++ vecFields 2 x.tokens ++ (x.pools.toList.map poolFields).flatten ++ [(2, r.pc.toNat), (1, coCode x.state)]

def formeWidths : List Nat := (formeFields {}).map (·.1)

/-- Put saved compositor state into a forme. -/
def formeFrom (l : List Nat) (x : Forme) : Forme :=
  let n (i : Nat) : Nat := l.getD i 0
  { x with
    regs := { g := vecFrom 32 32 l 0, acc := vecFrom 40 2 l 32, x := vecFrom 16 4 l 34, y := vecFrom 16 4 l 38,
              mx := vecFrom 32 4 l 42, my := vecFrom 32 4 l 46, t := vecFrom 256 16 l 50,
              trip := BitVec.ofNat 16 (n 66), iter := BitVec.ofNat 17 (n 67), depth := BitVec.ofNat 4 (n 68),
              rstep := BitVec.ofNat 2 (n 69), rbase := BitVec.ofNat 4 (n 70), cr := BitVec.ofNat 32 (n 71),
              sr := BitVec.ofNat 32 (n 72), pc := BitVec.ofNat 15 (n 209) },
    tokens := vecFrom 16 64 l 73,
    pools := Vector.ofFn fun i => poolFrom l (137 + 9 * i.1),
    state := coOf (n 210) }

/-! ## Press state and queue (offsets 0 and 147,456 of a press section) -/

def bankStateCode : BankState → Nat
  | .invalid => 0 | .loading => 1 | .ready => 2 | .busy => 3 | .held => 4 | .draining => 5
def bankStateOf (n : Nat) : BankState := if n = 2 then .ready else if n = 4 then .held else .invalid

def openFields (o : OpenDest) : List (Nat × Nat) :=
  [(1, b2n o.inCase), (4, o.addr), (1, b2n o.tile), (1, o.fmt), (2, o.rows), (2, o.cols), (4, o.stride),
   (4, o.writer.toNat), (8, o.step.toNat), (1, b2n o.sr), (4, o.quoin.toNat), (4, o.slug), (2, o.van), (2, o.sat),
   (1, b2n o.begun)]

def openFrom (slot : Nat) (l : List Nat) (i : Nat) : OpenDest :=
  let g (k : Nat) : Nat := l.getD (i + k) 0
  { inCase := g 0 = 1, addr := g 1, tile := g 2 = 1, slot := slot, fmt := g 3, rows := g 4, cols := g 5, stride := g 6,
    writer := BitVec.ofNat 32 (g 7), step := BitVec.ofNat 64 (g 8), sr := g 9 = 1, quoin := BitVec.ofNat 32 (g 10),
    slug := g 11, van := g 12, sat := g 13, begun := g 14 = 1 }

def noOpen : OpenDest :=
  { inCase := false, addr := 0, tile := false, slot := 0, fmt := 0, rows := 0, cols := 0, stride := 0, writer := 0,
    step := 0, sr := false, quoin := 0, slug := 0, van := 0, sat := 0 }

/-- At most 32 destinations are open (R168). The last field says how many queue entries are in use. -/
def pressFields (x : Press) : List (Nat × Nat) :=
  [(1, x.fmt.rnd.toNat), (1, x.fmt.ovf.toNat), (1, b2n x.fmt.nan), (1, x.ink.satLimit.toNat), (1, x.ink.vanLimit.toNat),
   (4, x.ink.fallback.toNat), (3, x.srCount.toNat), (32, x.ink.k1.toNat), (32, x.ink.k2.toNat), (32, x.ink.k3.toNat),
   (1, bankStateCode x.plA.bank0.state), (1, bankStateCode x.plA.bank1.state), (1, bankStateCode x.plB.bank0.state),
   (1, bankStateCode x.plB.bank1.state)]
    ++ (x.pools.toList.map poolFields).flatten
    ++ [(1, x.opens.length)] ++ ((List.range 32).map fun i => openFields (x.opens.getD i noOpen)).flatten
    ++ [(2, min 256 x.queue.length)]

def pressWidths : List Nat := (pressFields {}).map (·.1)

def entryFields (e : QEntry) : List (Nat × Nat) :=
  [(4, e.word.toNat), (2, e.pc.toNat), (1, b2n e.pm), (1, e.pmask.toNat), (1, e.vforme), (1, e.dest.1),
   (1, e.vals.length), (1, e.desc.length)] ++ e.vals.map (fun v => (4, v.toNat)) ++ e.desc.map (fun v => (32, v.toNat))

def entryBytes (e : QEntry) : List Byte := maskArea 2 (fitBytes 256 (packFields (entryFields e)))

def entryFrom (slot : Nat) (l : List Byte) : QEntry :=
  let l := maskArea 2 l
  let nv := leAt l 10 1
  { word := BitVec.ofNat 32 (leAt l 0 4), pc := BitVec.ofNat 15 (leAt l 4 2), slot := slot, pm := leAt l 6 1 = 1,
    pmask := BitVec.ofNat 8 (leAt l 7 1), vforme := leAt l 8 1, dest := Fin.ofNat 32 (leAt l 9 1),
    vals := (List.range nv).map fun i => BitVec.ofNat 32 (leAt l (12 + 4 * i) 4),
    desc := (List.range (leAt l 11 1)).map fun i => BitVec.ofNat 256 (leAt l (12 + 4 * nv + 32 * i) 32) }

/-! ## Sections (R388) -/

def pressSize : Nat := 2310144
def sectionSize : Nat := 35524608

def bankBytes (b : Bank) : List Byte := imageBytes b (if b.state = .invalid then 0xFF else b2n b.int)

/-- Lane registers l0 to l7: 256 binary32 lanes each. -/
def laneBytes (r : InkRegs) : List Byte := ((List.range 2048).map fun i => leBytes 4 (smapGet 0 r.lanes i).toNat).flatten

/-- The state area of a press section; its last byte tells it from that of a section that is all zero. -/
def pressArea (x : Press) : List Byte := maskArea 1 (fitBytes 4095 (packFields (pressFields x))) ++ [1#8]

/-- What a state area holds: nothing, where the section is that of a press outside the mask (R388). -/
def areaFields (l : List Byte) : List Byte := if leAt l 4095 1 = 0 then bytesOf 4095 0 else maskArea 1 (l.take 4095)

/-- The bytes of a press section before the galley. Its queue follows the four bank images. -/
def pressHead (x : Press) : List Byte :=
  pressArea x ++ laneBytes x.ink
    ++ bankBytes x.plA.bank0 ++ bankBytes x.plA.bank1 ++ bankBytes x.plB.bank0 ++ bankBytes x.plB.bank1
    ++ bytesOf 2816 0
    ++ fitBytes 65536 ((x.queue.take 256).map entryBytes).flatten

/-- A saving: the device, and what its reads have failed with. -/
abbrev Saving := Device × List Byte × Option (MemId × MemEv)

/-- Append a whole memory to what is saved; nothing is read any more once a read has failed (R308, R386). -/
def saveMem (id : MemId) (n : Nat) (s : Saving) : Saving :=
  if s.2.2.isSome then s
  else
    let (d, v, bad) := readMem id 0 n 0xFF none s.1
    (d, s.2.1 ++ v, bad.map fun e => (id, e))

def saveBytes (v : List Byte) (s : Saving) : Saving := (s.1, s.2.1 ++ v, s.2.2)

/-- The presses of forme `f` that the ticket of `slot` holds, by the masks of its START and HOLD reservations (R39, R387). -/
def heldMask (d : Device) (slot f : Nat) : BitVec 8 :=
  (if (forme d f).task = some slot then (forme d f).pmask else 0) ||| BitVec.ofNat 8 (d.mkr.table.foldl (fun m ie =>
    let e := ie.2
    if eSlot e = slot && (eAction e = 1 || eAction e = 8) && eClass e = 0 && eIndex e = f && eFired e then m ||| eQty e else m) 0)

/-- Append the section of press `k` of forme `f`: all zero outside the mask. -/
def savePress (f : Nat) (mask : BitVec 8) (s : Saving) (k : Nat) : Saving :=
  if bit mask k then saveMem (.galley (8 * f + k)) 0x200000 (saveBytes (pressHead (press s.1 (8 * f + k))) s)
  else saveBytes (bytesOf pressSize 0) s

/-- Append the section of forme `f`, of which the ticket holds the presses of the mask. -/
def saveForme (s : Saving) (fm : Nat × BitVec 8) : Saving :=
  let f := fm.1
  let s := saveBytes (maskArea 0 (fitBytes 4096 (packFields (formeFields (forme s.1 f))))) s
  let s := saveMem (.imem f) 0x20000 s
  let s := saveMem (.xmem f) 0x10000 s
  let s := saveMem (.ymem f) 0x10000 s
  (List.range 8).foldl (savePress f fm.2) (saveMem (.case f) 0x1000000 s)

/-- Write part of an image: what lies past the end of HBM or in a retired granule is discarded, the latter with its
record (R286, R310). -/
def writeImage (a : Nat) (v : List Byte) (d : Device) : Device :=
  (granules (v.length / 4096 + 2) a v.length).foldl (fun d ak =>
    if hbmBytes d.part < ak.1 + ak.2 then d
    else if hbmRetired d ak.1 ak.2 then logRetired ak.1 0xFF d
    else writeHbm ak.1 ((v.drop (ak.1 - a)).take ak.2) 0xFF none none d) d

/-- The formes that a ticket holds, by START or by HOLD, virtual and physical, in order of virtual forme (R387). -/
def savedFormes (d : Device) (t : Ticket) : List (Nat × Nat) :=
  ((List.range 16).map fun v => t.formes.filter fun vf => vf.1 = v && formeHeld d t.slot vf.2).flatten

/-- Bytes 0 to 47 of the header (R387). -/
def headerHead (t : Ticket) (fs : List (Nat × Nat)) (elapsed : Nat) : List Byte :=
  leBytes 2 1 ++ leBytes 1 (1 + 2 * b2n t.relocated) ++ leBytes 1 fs.length ++ bytesOf 4 0
    ++ leBytes 8 imprint.toNat ++ leBytes 8 t.id.toNat ++ leBytes 8 t.seed.toNat ++ leBytes 8 t.step.toNat
    ++ leBytes 4 elapsed ++ leBytes 2 ((fs.map fun vf => 2 ^ vf.1).foldl (· + ·) 0) ++ bytesOf 2 0

/-! ## SAVE_DONE (R385, R386) -/

/-- Every press and every compositor of the task has stopped as a pause asks (R135, R385). -/
def pauseReached (d : Device) (slot : Nat) : Bool :=
  (taskPresses d slot).all (fun p => (press d p).preempt = .preempted && pressIdle (press d p) && engineIdle d p)
    && (taskFormes d slot).all fun f => (forme d f).state ≠ .loading

/-- Step 4: every merge buffer of the task is flushed. -/
def flushTask (slot : Nat) (d : Device) : Device × Bool :=
  let ids := (taskPresses d slot).map MemId.galley
    ++ ((taskFormes d slot).map fun f => [MemId.case f, MemId.xmem f, MemId.ymem f]).flatten
  ids.foldl (fun s id =>
    let (d, bad) := flushMem id 0xFF slot s.1
    (d, s.2 || bad)) (d, false)

/-- The lowest bank of a galley or a case that its mask blocks. -/
def lowestBlocked {w : Nat} (mask : BitVec w) : Option Nat := (List.range w).find? mask.getLsbD

/-- A galley or case that a save or a restore of these formes, with these presses, touches, and the first byte in it that lies in a
blocked bank (R311). -/
def blockedImage (d : Device) (fs : List (Nat × BitVec 8)) : Option (MemId × Nat) :=
  fs.findSome? fun fm =>
    match lowestBlocked (forme d fm.1).block with
    | some b => some (.case fm.1, 0x40000 * b)
    | none => (maskPresses fm.1 fm.2.toNat).findSome? fun p =>
      (lowestBlocked (press d p).block).map fun b => (.galley p, 0x10000 * b)

/-- A press that a paused ticket leaves holds nothing of its task. -/
def leavePress (d : Device) (p : Nat) : Device :=
  modPress p (fun x => { x with queue := [], plA := stopPlaten x.plA, plB := stopPlaten x.plB, opens := [],
                                preempt := .none }) d

/-- Step 6: the reservations are released and the pause's record is posted. -/
def endPause (t : Ticket) (addr elapsed : Nat) (d : Device) : Device :=
  let ps := taskPresses d t.slot
  let fs := taskFormes d t.slot
  let d := pausedRec t addr elapsed true (releaseEntries t d)
  dropTicket t.slot (fs.foldl freeForme (ps.foldl leavePress d))

/-- Steps 4 to 6 for a task that has stopped. A flush that fails is its writer's fault (R304). -/
def saveTask (t : Ticket) (addr : Nat) (d : Device) : Device :=
  match flushTask t.slot d with
  | (d, true) => d
  | (d, false) =>
    let fs := savedFormes d t
    let elapsed := d.sheet + 1 + t.elapsed - t.start
    let head := headerHead t fs elapsed
    let held := fs.map fun vf => (vf.2, heldMask d t.slot vf.2)
    match blockedImage d held with
    | some (id, a) => faultBlocked t.slot id a 0xFF none { phase := 3 } d
    | none =>
    match held.foldl saveForme (d, [], none) with
    | (d, _, some (id, e)) =>
      faultTask t.slot 0x0A52 (memUnit id) { phase := 3 } none (logStored id 0xFF none e d)
    | (d, v, none) =>
      let rest := bytesOf 4032 0
      let header := head ++ leBytes 8 (tally (rest ++ v)).toNat ++ bytesOf 8 0 ++ rest
      endPause t addr elapsed (writeImage addr header (writeImage (addr + 4096) v d))

def doSaveDone (id : BitVec 64) (d : Device) : Device :=
  match ticketById d id with
  | none => d
  | some t => match t.pause, t.abort with
    | some s, none => if pauseReached d t.slot && busesIssue d then saveTask t s.addr d else d
    | _, _ => d

/-! ## RESTORE_DONE (R390, R391) -/

/-- The sections of a header's fmask that come before virtual forme `v`. -/
def sectionsBefore (fmask v : Nat) : Nat := ((List.range v).filter fun i => fmask.testBit i).length

/-- Offset of bank image `i` (2 * platen + bank) in the section of press `k`. -/
def bankOffset (k i : Nat) : Nat := 17043456 + pressSize * k + 12288 + 33088 * i

/-- A kind byte of the section is none of 00h, 01h and FFh (R390). -/
def badKind (sec : List Byte) : Bool :=
  (List.range 8).any fun k => (List.range 4).any fun i =>
    let b := leAt sec (bankOffset k i + 33056) 1
    b ≠ 0 && b ≠ 1 && b ≠ 0xFF

/-- The checks of R390, the code of the first that fails. -/
def imageFault (t : Ticket) (v : Nat) (h body : List Byte) : Option (BitVec 16) :=
  let fmask := leAt h 44 2
  let sec := (body.drop (sectionSize * sectionsBefore fmask v)).take sectionSize
  if leAt h 0 2 ≠ 1 || leAt h 2 1 % 2 ≠ 1 || (tally (h.drop 64 ++ body)).toNat ≠ leAt h 48 8
      || t.formes.any (fun vf => !fmask.testBit vf.1) || badKind sec then some 0x0A50
  else if leAt h 8 8 ≠ imprint.toNat then some 0x0A51
  else none

def restoreBank (sec : List Byte) (k i code : Nat) : Bank :=
  let l := (sec.drop (bankOffset k i)).take 33088
  if imageKind l = 0xFF then {} else imageBank l (bankStateOf code)

/-- Put the section of press `k` back; every restored memory has right check words. -/
def restorePress (slot : Nat) (sec : List Byte) (k : Nat) (x : Press) : Press :=
  let s := (sec.drop (17043456 + pressSize * k)).take pressSize
  let l := unpackFields pressWidths (areaFields (s.take 4096))
  let n (i : Nat) : Nat := l.getD i 0
  let pl (y : Platen) (b c0 c1 : Nat) : Platen :=
    { y with bank0 := restoreBank sec k b c0, bank1 := restoreBank sec k (b + 1) c1, passes := [], drain := none }
  let q := (s.drop 147456).take 65536
  { x with
    fmt := { x.fmt with rnd := BitVec.ofNat 3 (n 0), ovf := BitVec.ofNat 2 (n 1), nan := n 2 = 1 },
    ink := { x.ink with satLimit := BitVec.ofNat 8 (n 3), vanLimit := BitVec.ofNat 8 (n 4),
                        fallback := BitVec.ofNat 32 (n 5), k1 := BitVec.ofNat 256 (n 7), k2 := BitVec.ofNat 256 (n 8),
                        k3 := BitVec.ofNat 256 (n 9),
                        lanes := (List.range 2048).foldl (fun a i =>
                          smapSet 0 a i (BitVec.ofNat 32 (leAt s (4096 + 4 * i) 4))) [] },
    srCount := BitVec.ofNat 24 (n 6),
    plA := pl x.plA 0 (n 10) (n 11), plB := pl x.plB 2 (n 12) (n 13),
    pools := Vector.ofFn fun i => poolFrom l (14 + 9 * i.1),
    opens := (List.range (min 32 (n 32))).map fun i => openFrom slot l (33 + 15 * i),
    queue := (List.range (min 256 (n 513))).map fun i => entryFrom slot ((q.drop (256 * i)).take 256),
    galley := memOf ((s.drop 212992).take 0x200000) }

/-- Put the section of forme `f` back, and its presses. -/
def restoreForme (f : Nat) (t : Ticket) (sec : List Byte) (d : Device) : Device :=
  let at_ (o n : Nat) : Mem := memOf ((sec.drop o).take n)
  let ks := (List.range 8).filter fun k => bit (forme d f).pmask k
  let d := ks.foldl (fun d k => modPress (8 * f + k) (restorePress t.slot sec k) d) d
  let pend := (ks.map fun k => ((press d (8 * f + k)).queue.filter fun e => wop e.word = 0x2D && fieldN e.word 15 11 ≠ 0).map (·.dest)).flatten
  modForme f (fun x =>
    { formeFrom (unpackFields formeWidths (maskArea 0 (sec.take 4096))) x with
      imem := at_ 4096 0x20000, xmem := at_ 135168 0x10000, ymem := at_ 200704 0x10000, case := at_ 266240 0x1000000,
      pend := pend }) d

/-- An image that cannot be used faults the task. -/
def imageBad (f : Nat) (t : Ticket) (code : BitVec 16) (d : Device) : Device :=
  faultTask t.slot code (unitForme f) { phase := 3, issuer := unitForme f, vforme := (forme d f).vforme } none d

def restoreTask (f : Nat) (t : Ticket) (d : Device) : Device :=
  if hbmBytes d.part < t.program + 4096 then imageBad f t 0x0A50 d
  else match readLoad f t.program 4096 d with
    | (d, none) => d
    | (d, some h) =>
      let n := sectionSize * leAt h 3 1
      if leAt h 3 1 = 0 || 16 < leAt h 3 1 || hbmBytes d.part < t.program + 4096 + n then imageBad f t 0x0A50 d
      else match readLoad f (t.program + 4096) n d with
        | (d, none) => d
        | (d, some body) =>
          let v := (forme d f).vforme
          match imageFault t v h body with
          | some c => imageBad f t c d
          | none => match blockedImage d [(f, (forme d f).pmask)] with
          | some (id, a) => faultBlocked t.slot id a 0xFF none { phase := 3, issuer := unitForme f, vforme := v } d
          | none =>
            let sec := (body.drop (sectionSize * sectionsBefore (leAt h 44 2) v)).take sectionSize
            let d := modTicket t.slot (fun t =>
              { t with seed := BitVec.ofNat 64 (leAt h 24 8), step := BitVec.ofNat 64 (leAt h 32 8),
                       elapsed := leAt h 40 4 }) d
            restoreForme f t sec d

def doRestoreDone (f : Nat) (d : Device) : Device :=
  let x := forme d f
  match x.task.bind (ticketOf d) with
  | none => d
  | some t =>
    if x.state = .loading && t.resume && t.abort.isNone && busesIssue d && (maskPresses f x.pmask.toNat).all (domainOn d) then
      restoreTask f t d
    else d

/-! ## The commands -/

def execSaveDone (ticketId : BitVec 64) (s : State) : Host.Outcome State Fault Refusal := onDev (doSaveDone ticketId) s
def execRestoreDone (f : FormeId) (s : State) : Host.Outcome State Fault Refusal := onDev (doRestoreDone f.1) s

end Sys2Proof.Machine
end

