-- ==== Sys2Proof/Machine/RegRead.lean ====
section
/-!
DEFINITION. Machine/RegRead.lean: a read of a register, by address: its live value, the held high words, the copied table
and log entries, and the bytes that a read of fewer than four returns (00_scope.md R2, R8 to R12; 13 R470; 17 R591, R592;
the register tables of every chapter). Write-only fields, reserved bits and offsets without a register read as zero.
-/
namespace Sys2Proof.Machine

/-- Bit `b` of a word, or nothing. -/
def flagAt (b : Nat) (x : Bool) : Word := place 32 b b (b2n x)

/-- The low and the high word of a 64-bit quantity. -/
def lowWord (q : BitVec 64) : Word := field q 31 0
def highWord (q : BitVec 64) : Word := field q 63 32

/-! ## Trust (R577) -/

/-- Key slots that hold a key. -/
def keysPresent (s : Store) : Nat :=
  ((List.range 8).filter fun k => (vgetN none s.keys k).isSome).foldl (fun a k => a + 2 ^ k) 0

/-- The mailbox word at offset `o`. -/
def mboxWord (t : Trust) (o : Nat) : Word :=
  BitVec.ofNat 32 (leNat ((List.range 4).map fun k => smapGet 0 t.mbox (o + k)))

def readTrust (d : Device) (a : Nat) : Word :=
  let t := d.trust
  let s := t.store
  match a with
  | 0x00 => flagAt 2 (storeBusy d) ||| flagAt 1 t.identity ||| flagAt 0 t.session
  | 0x08 => flagAt 31 t.cmd.isSome ||| place 32 29 16 t.outLen.toNat ||| place 32 15 0 t.result.toNat
  | 0x0C => place 32 24 0 t.sheets.toNat
  | 0x10 => flagAt 31 s.installer.isSome ||| place 32 30 0 s.generation.toNat
  | 0x14 => flagAt 2 t.activeB ||| place 32 1 0 ((t.running.map fun i => i.slot + 1).getD 0)
  | 0x18 => (t.running.map (·.version)).getD 0
  | 0x1C => s.rollback
  | 0x20 => place 32 5 0 s.locks.toNat
  | 0x24 => place 32 1 0 s.policy.toNat
  | 0x28 => place 32 15 8 s.keyEnable.toNat ||| place 32 7 0 (keysPresent s)
  | 0x2C => place 32 23 0 (s.enForron &&& quadMask d.part).toNat
  | 0x30 => place 32 23 0 (s.enFount &&& quadMask d.part).toNat
  | 0x34 => place 32 23 0 s.enRegion.toNat
  | 0x38 => place 32 1 0 s.enEngine.toNat
  | 0x40 => lowWord imprint
  | 0x44 => highWord imprint
  | 0x48 => lowWord Config.serial
  | 0x4C => highWord Config.serial
  | 0x50 => lowWord (BitVec.ofNat 64 t.seq)
  | 0x54 => highWord (BitVec.ofNat 64 t.seq)
  | _ =>
    if 0x80 ≤ a && a < 0xC0 then BitVec.ofNat 32 (t.challenge.toNat / 2 ^ (8 * (a - 0x80)))
    else if 0x1000 ≤ a && a < 0x3000 then mboxWord t (a - 0x1000)
    else 0

/-! ## Press Time and Makeready (R59 to R65) -/

/-- PT_STATUS.state. -/
def timeCode : TimeState → Nat
  | .unsynced => 0 | .acquiring => 1 | .locked => 2 | .holdover => 3 | .lost => 4

/-- PT_CTRL.sheet_len: points per sheet, fixed (R59). -/
def sheetLen : Nat := 0x1000

def readTime (d : Device) (a : Nat) : Word :=
  let t := d.time
  let m := d.mkr
  match a with
  | 0x100000 => place 32 31 16 sheetLen ||| flagAt 1 t.codeRequired
  | 0x100004 => place 32 31 16 t.holdoverSheets.toNat ||| flagAt 10 t.codeOk ||| flagAt 9 t.syncOk ||| flagAt 8 t.refOk
      ||| place 32 2 0 (timeCode t.state)
  | 0x100008 => lowWord t.count
  | 0x10000C => highWord t.count
  | 0x100010 => place 32 31 16 t.syncSlips.toNat ||| place 32 15 0 t.codeErrors.toNat
  | 0x100014 => place 32 31 16 t.resyncCount.toNat ||| place 32 15 0 t.lastStep.toNat
  | 0x100040 => place 32 28 16 m.search.toNat ||| place 32 11 8 m.lead.toNat ||| flagAt 0 m.admitting
  | 0x100044 => place 32 28 16 m.tickets.length ||| flagAt 1 (m.table.any fun ie => eOverrun ie.2)
      ||| flagAt 0 m.admission.isSome
  | 0x100048 => place 32 16 0 (freeEntries d)
  | 0x10004C => place 32 24 16 (effectiveNow d) ||| place 32 8 0 m.budget.toNat
  | 0x100070 => m.accepted
  | 0x100074 => m.refused
  | 0x100078 => m.broken
  | 0x100080 => place 32 15 0 m.tableIndex.toNat
  | 0x100084 => field (getEntry d m.tableIndex.toNat) 31 0
  | 0x100088 => field m.tableCopy 63 32
  | 0x10008C => field m.tableCopy 95 64
  | 0x100090 => field m.tableCopy 127 96
  | _ =>
    if 0x100060 ≤ a && a < 0x100070 then
      let n := (a - 0x100060) / 4
      place 32 24 16 (vgetN 0 m.classPower n).toNat ||| place 32 4 0 (vgetN 0 m.classFormes n).toNat
    else 0

/-! ## Errata and captures (R521, R522) -/

/-- The entry that ER_READ_INDEX names, as 64 bytes. -/
def errataEntryBytes (d : Device) : List Byte := recBytes (smapGet {} d.errata.ring d.errata.readIndex.toNat) false

def readErrata (d : Device) (a : Nat) : Word :=
  let e := d.errata
  match a with
  | 0x200000 => flagAt 0 e.spill
  | 0x200004 => place 32 26 16 e.unspilled ||| place 32 9 0 e.next.toNat
  | 0x200008 => flagAt 31 e.overflow ||| place 32 30 0 e.lost.toNat
  | 0x20000C => place 32 9 0 e.readIndex.toNat
  | 0x200010 => BitVec.ofNat 32 (leAt (errataEntryBytes d) 0 4)
  | 0x200050 => place 32 27 16 e.drainPt.toNat ||| place 32 11 0 e.abortPt.toNat
  | _ =>
    if 0x200014 ≤ a && a < 0x200050 then BitVec.ofNat 32 (e.readCopy.toNat / 2 ^ (8 * (a - 0x200010)))
    else if 0x200060 ≤ a && a < 0x200070 then BitVec.ofNat 32 (e.offline.toNat / 2 ^ (8 * (a - 0x200060)))
    else 0

/-- A capture block at 0F00h of a block. -/
def readCapture (c : Capture) (off : Nat) : Word :=
  if 0xF00 ≤ off && off < 0xF1C then capRead c ((off - 0xF00) / 4) else 0

/-! ## Power (R549) -/

def dstateCode : DState → Nat
  | .off => 0 | .waking => 1 | .on => 2 | .goingOff => 3 | .selfRefresh => 4 | .partialRefresh => 5

/-- PW_DOMAIN_STATUS of the selected domain; a number above 203 reads zero. -/
def domainStatus (d : Device) : Word :=
  let n := d.power.domainSel.toNat
  if n < 204 then
    let x := domain d n
    flagAt 31 x.failed ||| flagAt 30 x.held ||| place 32 2 0 (dstateCode x.dstate)
  else 0

def readPower (d : Device) (a : Nat) : Word :=
  let w := d.power
  match a with
  | 0x300000 => place 32 5 4 w.wakeTo.toNat
  | 0x300004 => pwStatus w
  | 0x300020 => place 32 23 0 w.gateQuad.toNat
  | 0x300024 => place 32 23 0 w.gateRegion.toNat
  | 0x300030 => place 32 7 0 w.domainSel.toNat
  | 0x300034 => domainStatus d
  | 0x300040 => place 32 31 24 w.tokens.toNat ||| place 32 23 16 (min 255 w.queue.length) ||| place 32 15 8 w.cap.toNat
      ||| place 32 7 0 w.rate.toNat
  | 0x300048 => w.wakeAtLo
  | 0x30004C => w.wakeAtHi
  | 0x300050 => place 32 24 16 w.opBudget.toNat ||| place 32 7 0 w.lead.toNat
  | 0x300054 => place 32 24 16 w.pinBudget.toNat ||| place 32 7 0 w.tempThrottle.toNat
  | 0x300058 => place 32 31 16 w.stretchCount.toNat ||| place 32 1 0 (stretchLevel w)
  | 0x30005C => w.stretchPoints
  | 0x300060 => place 32 31 24 w.temp.toNat ||| place 32 11 0 w.power.toNat
  | 0x300070 => place 32 9 8 w.assist.toNat ||| place 32 7 0 w.bias.toNat
  | 0x300074 => place 32 6 0 w.sbAddr.toNat
  | 0x300080 => place 32 7 0 w.padArm.toNat
  | 0x300084 => place 32 7 0 w.padHeld.toNat
  | _ => if 0x300010 ≤ a && a < 0x300020 then vgetN 0 w.trimMask ((a - 0x300010) / 4) else 0

/-! ## HBM (R319, R320) -/

def stackCode : StackState → Nat
  | .off => 0 | .filling => 1 | .ready => 2 | .selfRefresh => 3 | .partialRefresh => 4

/-- The device-wide registers, which the block of HS0 holds. -/
def readHbmCommon (h : HbmCommon) (off : Nat) : Word :=
  match off with
  | 0x100 => flagAt 31 h.bucketOn ||| place 32 27 16 h.leakSheets.toNat ||| place 32 15 0 h.threshold.toNat
  | 0x104 => flagAt 16 h.overflow ||| place 32 15 0 h.level.toNat
  | 0x110 => place 32 10 0 h.retireIndex.toNat
  | 0x114 => smapGet 0 h.retire h.retireIndex.toNat
  | 0x118 => BitVec.ofNat 32 (h.retire.filter fun e => bit e.2 31).length
  | _ => 0

def readStack (d : Device) (n off : Nat) : Word :=
  let x := stack d n
  match off with
  | 0x04 => flagAt 4 x.hot ||| place 32 2 0 (stackCode x.state)
  | 0x08 => place 32 31 20 x.point.toNat ||| place 32 19 8 x.span.toNat ||| place 32 7 3 x.shares.toNat
  | 0x0C => place 32 2 0 x.fraction.toNat
  | 0x10 => x.ce
  | 0x14 => x.ue
  | 0x18 => x.replays
  | 0x1C => x.fatal
  | _ => if off < 0xF00 then (if n = 0 then readHbmCommon d.hbm off else 0) else readCapture x.cap off

/-! ## The Forron link (R370, R371) -/

def portCode : PortState → Nat
  | .down => 0 | .signal => 1 | .hunt => 2 | .exchange => 3 | .up => 4 | .prbs => 5

/-- Word `k` of a ring entry. -/
def ringRead (k : Nat) (e : RingEntry) : Word :=
  match k with
  | 0 => flagAt 31 e.valid ||| place 32 16 0 e.sizeM1.toNat
  | 1 => place 32 16 0 e.position.toNat
  | 2 => place 32 26 0 e.successor.toNat
  | _ => place 32 26 0 e.predecessor.toNat

/-- The device-wide registers, which the block of LQ00 holds. -/
def readForron (f : Forron) (off : Nat) : Word :=
  match off with
  | 0x100 => place 32 31 16 f.grantHold.toNat ||| place 32 15 4 f.retryTimeout.toNat ||| place 32 3 0 f.retryLimit.toNat
  | 0x104 => place 32 16 9 f.quire.toNat ||| place 32 8 0 f.device.toNat
  | 0x108 => place 32 15 0 f.inc.toNat
  | 0x110 => place 32 4 0 f.ringSel.toNat
  | 0x124 => place 32 10 0 f.orouteSel.toNat
  | 0x128 =>
    let i := f.orouteSel.toNat % 1024
    if i < 768 then smapGet 0 (vgetN [] f.oroutes (f.orouteSel.toNat / 1024)) i else 0
  | _ =>
    if 0x114 ≤ off && off ≤ 0x120 then
      ringRead ((off - 0x114) / 4) (vgetN {} (vgetN (Vector.replicate 16 {}) f.rings (b2n (bit f.ringSel 4)))
        (fieldN f.ringSel 3 0))
    else 0

/-- FL_QUAD_STATUS: every quad of a port shows the port's state (R333). -/
def quadStatus (d : Device) (q : Nat) : Word :=
  let x := quad d q
  let p := portOf d q
  place 32 15 12 x.laneLock.toNat ||| place 32 11 8 (if portUp d p then portWidth d p else 0)
    ||| flagAt 3 (isUpper d q) ||| place 32 2 0 (portCode x.state)

def readQuad (d : Device) (q off : Nat) : Word :=
  let x := quad d q
  match off with
  | 0x00 => place 32 5 4 x.prbs.toNat ||| flagAt 2 (x.bond && q % 2 = 0) ||| place 32 1 0 x.mode.toNat
  | 0x04 => quadStatus d q
  | 0x08 => x.partner
  | 0x0C => x.expect
  | 0x10 => place 32 15 0 x.peerInc.toNat
  | 0x30 => x.fecCorr
  | 0x34 => x.fecUncorr
  | 0x38 => x.crcErr
  | 0x3C => x.retry
  | 0x40 => x.retrainCount
  | 0x44 => x.staleDrop
  | 0x80 => place 32 9 0 x.routeIndex.toNat
  | 0x84 => if x.routeIndex.toNat < 768 then smapGet 0 x.routes x.routeIndex.toNat else 0
  | _ =>
    if 0x20 ≤ off && off < 0x30 then vgetN 0 x.prbsErr ((off - 0x20) / 4)
    else if off < 0xF00 then (if q = 0 then readForron d.forron off else 0)
    else readCapture x.cap off

/-! ## The chase, formes and presses (R204, R282, R321) -/

def readChase (d : Device) (a : Nat) : Word :=
  match a with
  | 0x800000 => place 32 11 0 d.chase.grantDeadline.toNat
  | 0x800004 => place 32 25 16 d.chase.routeNi.toNat ||| place 32 9 0 d.chase.routeIndex.toNat
  | 0x800008 => routeEntry d d.chase.routeNi.toNat d.chase.routeIndex.toNat
  | _ => readCapture d.errata.chaseCap (a - 0x800000)

/-- FM_CO_STATUS.pc: the index of the instruction issuing, or of the last one issued once the core no longer runs. -/
def statusPc (x : Forme) : BitVec 15 := if x.state = .running then x.regs.pc else x.issuedPc

/-- A forme's own registers, from offset 20000h of its block. -/
def readFormeOwn (x : Forme) (off : Nat) : Word :=
  match off with
  | 0x20004 => place 32 30 16 (statusPc x).toNat ||| place 32 2 0 (coCode x.state)
  | 0x20008 => x.instrs
  | 0x2000C => x.issueStall
  | 0x20010 => x.interlock
  | 0x20240 => field x.block 31 0
  | 0x20244 => field x.block 63 32
  | 0x20248 => x.sdCe
  | 0x2024C => x.sdUe
  | _ =>
    if 0x20100 ≤ off && off < 0x20200 then place 32 15 0 (vgetN 0 x.tokens ((off - 0x20100) / 4)).toNat
    else if 0x20200 ≤ off && off < 0x20220 then poolRead (vgetN {} x.pools ((off - 0x20200) / 4))
    else readCapture x.cap (off - 0x20000)

def readForme (d : Device) (f off : Nat) : Word :=
  if off < 0x20000 then pressRead d (8 * f + off / 0x4000) (off % 0x4000) else readFormeOwn (forme d f) off

/-! ## Configuration and the fount (R421, R461, R462) -/

def cfCode : CfState → Nat
  | .unconfigured => 0 | .opened => 1 | .verifying => 2 | .loadFull => 3 | .loadPartial => 4 | .waitPeers => 5
  | .releasing => 6 | .clearing => 7 | .configured => 8

def capCode : CaptureState → Nat
  | .idle => 0 | .armed => 1 | .copying => 2 | .held => 3 | .timedOut => 4

def readConf (c : Conf) (a : Nat) : Word :=
  match a with
  | 0xD00000 => flagAt 3 c.frameCheck
  | 0xD00004 => flagAt 10 c.commitPending ||| flagAt 9 c.doneDriven ||| flagAt 8 (c.doneLine && !c.doneDriven)
      ||| place 32 3 0 (cfCode c.state)
  | 0xD00008 => place 32 23 0 c.regions.toNat
  | 0xD0000C => c.loadReg
  | 0xD00010 => c.errorReg
  | 0xD00014 => c.errorFar
  | 0xD00018 => c.words
  | 0xD0001C => place 32 15 0 c.gap.toNat
  | 0xD00020 => c.peerTimeout
  | 0xD00024 => flagAt 1 c.stopped ||| flagAt 0 c.stop
  | 0xD00030 => place 32 4 0 c.capTree.toNat
  | 0xD00034 => place 32 23 0 c.capRegions.toNat
  | 0xD00038 => c.capAtLo
  | 0xD0003C => c.capAtHi
  | 0xD00040 => place 32 2 0 (capCode c.capState)
  | 0xD00050 => flagAt 31 c.readOk ||| place 32 30 29 c.readSource.toNat ||| place 32 19 0 c.readFrame.toNat
  | 0xD00054 => flagAt 31 c.upset ||| place 32 19 0 c.upsetFrame.toNat
  | 0xD00058 => place 32 23 0 c.lock.toNat
  | _ => 0

/-- FT_QUADnn. -/
def fountQuad (d : Device) (q : Nat) : Word :=
  place 32 23 8 (vgetN 0 d.fount.slips q).toNat ||| place 32 7 4 (vgetN 0 d.fount.cdrLock q).toNat
    ||| flagAt 3 (quadTreeOk d q) ||| flagAt 0 ((quad d q).mode = 2)

def readFount (d : Device) (a : Nat) : Word :=
  let f := d.fount
  match a with
  | 0xE00000 => f.treeOver
  | 0xE00004 => f.treeRun
  | 0xE00008 => place 32 7 0 f.pllLock.toNat
  | _ =>
    if 0xE00100 ≤ a && a < 0xE00180 then vgetN 0 f.feedMap ((a - 0xE00100) / 4)
    else if 0xE00200 ≤ a && a < 0xE00280 then vgetN 0 f.feedWait ((a - 0xE00200) / 4)
    else if 0xE00300 ≤ a && a < 0xE00360 then
      let q := (a - 0xE00300) / 4
      if quadPresent d.part q then fountQuad d q else 0
    else if 0xE00400 ≤ a && a < 0xE00460 then
      let q := (a - 0xE00400) / 4
      if quadPresent d.part q then vgetN 0 f.txeq q else 0
    else 0

/-! ## The host interface (R494 to R496) -/

/-- HI_LINK to HI_POISON_IN. -/
def readHostOwn (h : HostIf) (a : Nat) : Word :=
  match a with
  | 0xF00000 => place 32 15 12 h.linkRate.toNat ||| place 32 11 8 h.linkWidth.toNat ||| flagAt 1 h.linkFlit
      ||| flagAt 0 h.linkUp
  | 0xF00004 => place 32 6 4 h.d3hot.toNat ||| place 32 2 0 h.flr.toNat
  | 0xF00008 => h.poisonOut
  | 0xF0000C => h.poisonIn
  | _ => 0

def readRing (x : Ring) (off : Nat) : Word :=
  match off with
  | 0x00 => lowWord x.base
  | 0x04 => highWord x.base
  | 0x08 => flagAt 31 x.enable ||| place 32 18 16 x.pq.toNat ||| place 32 12 0 x.size.toNat
  | 0x0C => place 32 11 0 x.tail.toNat
  | 0x10 => place 32 11 0 x.head.toNat
  | _ => 0

def readPq (x : ProofQueue) (off : Nat) : Word :=
  match off with
  | 0x00 => lowWord x.base
  | 0x04 => highWord x.base
  | 0x08 => flagAt 31 x.enable ||| place 32 29 24 x.vector.toNat ||| place 32 20 16 x.log2size.toNat
      ||| place 32 15 0 x.holdoff.toNat
  | 0x0C => place 32 15 0 x.head.toNat
  | 0x10 => flagAt 31 x.phase ||| place 32 15 0 x.tail.toNat
  | 0x14 => flagAt 31 x.overflow ||| place 32 30 0 x.lost.toNat
  | _ => 0

/-- The device page of PF1 BAR0. -/
def readDevPage (h : HostIf) (off : Nat) : Word :=
  let x := vgetN {} h.aperture h.apSel.toNat
  match off with
  | 0x00 => place 32 8 0 h.window.toNat
  | 0x04 => place 32 2 0 h.errataPq.toNat
  | 0x08 => place 32 6 0 h.doorbells.length
  | 0x10 => place 32 5 0 h.apSel.toNat
  | 0x14 => lowWord x.base
  | 0x18 => highWord x.base
  | 0x1C => flagAt 31 x.valid ||| place 32 22 0 x.pages.toNat
  | _ => 0

/-- Word `k` of an MSI-X vector. -/
def readMsix (x : MsixVector) (k : Nat) : Word :=
  match k with
  | 0 => lowWord x.addr
  | 1 => highWord x.addr
  | 2 => x.data
  | _ => flagAt 0 x.masked

/-- Word `k` of the MSI-X pending bits. -/
def readPending (h : HostIf) (k : Nat) : Word :=
  BitVec.ofNat 32 ((List.range 32).foldl (fun a i => a + b2n (vgetN {} h.msix (32 * k + i)).pending * 2 ^ i) 0)

def readPf1 (d : Device) (a : Nat) : Word :=
  let h := d.host
  if a < 0x40000 then readRing (vgetN {} h.rings (a / 0x1000)) (a % 0x1000)
  else if a < 0x48000 then readPq (pqueue d ((a - 0x40000) / 0x1000)) (a % 0x1000)
  else if 0x50000 ≤ a && a < 0x51000 then readDevPage h (a - 0x50000)
  else if 0x60000 ≤ a && a < 0x60400 then readMsix (vgetN {} h.msix ((a - 0x60000) / 16)) (a % 16 / 4)
  else if 0x61000 ≤ a && a < 0x61008 then readPending h ((a - 0x61000) / 4)
  else 0

/-- PF0 BAR0 by address (R591); the block of an absent unit reads as zero (R2). -/
def readPf0 (d : Device) (a : Nat) : Word :=
  if a < 0x100000 then readTrust d a
  else if a < 0x200000 then readTime d a
  else if a < 0x300000 then readErrata d a
  else if a < 0x400000 then readPower d a
  else if a < 0x600000 then
    let n := (a - 0x400000) / 0x40000
    if stackPresent d.part n then readStack d n (a % 0x40000) else 0
  else if a < 0x780000 then
    let q := (a - 0x600000) / 0x10000
    if quadPresent d.part q then readQuad d q (a % 0x10000) else 0
  else if a < 0x800000 then 0
  else if a < 0x900000 then readChase d a
  else if a < 0xD00000 then readForme d ((a - 0x900000) / 0x40000) ((a - 0x900000) % 0x40000)
  else if a < 0xE00000 then readConf d.cf a
  else if a < 0xF00000 then readFount d a
  else readHostOwn d.host a

/-- BAR2 of PF2 (R423): the read window; its stream window and its reserved range read as zero. -/
def readPort (c : Conf) (a : Nat) : Word :=
  if 0x10000 ≤ a && a < 0x10200 then BitVec.ofNat 32 (c.readData.toNat / 2 ^ (8 * (a - 0x10000)))
  else if a = 0x10200 then lowWord c.readCheck
  else if a = 0x10204 then highWord c.readCheck
  else 0

/-- The live value of the register at a word address of a function's BAR0, or of PF2's BAR2. -/
def regLive (d : Device) (fn : FnId) (a : Nat) : Word :=
  match fn with
  | .pf0 => readPf0 d a
  | .pf1 => readPf1 d a
  | .pf2 => readPort d.cf a

/-! ## What a read returns, and what it changes (R9, R11, R65, R501) -/

/-- The copies that a function holds. -/
def holdOf (h : HoldRegs) : FnId → List (Nat × Option Word)
  | .pf0 => h.pf0
  | .pf1 => h.pf1
  | .pf2 => h.pf2

/-- The 64-bit quantity whose high word is at an address, where there is one. -/
def highQuantity (d : Device) (fn : FnId) (a : Nat) : Option (BitVec 64) := if a < 4 then none else quantity d fn (a - 4)

/-- The value that a function's read of word address `a` gets: of a high word the held copy, where the function read the low
word last; else the live value. -/
def regValue (d : Device) (fn : FnId) (a : Nat) : Word :=
  match quantity d fn a, highQuantity d fn a with
  | some q, _ => lowWord q
  | none, some q => (smapGet none (holdOf d.host.hold fn) a).getD (highWord q)
  | none, none => regLive d fn a

/-- A function's copies after a read: a low word's read holds its high word; that of the high word it reads is used up. -/
def holdAfter (d : Device) (fn : FnId) (a : Nat) (h : HoldRegs) : HoldRegs :=
  match quantity d fn a, highQuantity d fn a with
  | some q, _ => setHold fn (a + 4) (some (highWord q)) h
  | none, some _ => setHold fn a none h
  | none, none => h

/-- The side effects of a read, whatever its length: the held high words, and the whole entry that a read of MK_TABLE_DATA0
or ER_READ_DATA0 copies. -/
def readEffect (fn : FnId) (a : Nat) (d : Device) : Device :=
  let d := match fn, a with
    | .pf0, 0x100084 => modMk (fun m => { m with tableCopy := getEntry d m.tableIndex.toNat }) d
    | .pf0, 0x200010 => modErrata (fun e => { e with readCopy := BitVec.ofNat 512 (leNat (errataEntryBytes d)) }) d
    | _, _ => d
  modHost (fun h => { h with hold := holdAfter d fn a h.hold }) d

/-- The bytes of a word that the byte enables address (R9). -/
def enabledBytes (be : BitVec 4) (w : Word) : List Byte :=
  ((List.range 4).filter (bit be ·)).map fun k => BitVec.ofNat 8 (w.toNat / 2 ^ (8 * k))

/-- Reads of whole registers in ascending address (R470): the bytes that they answer, and what they change. -/
def readWords (fn : FnId) : Nat → List (BitVec 4) → List Byte → Device → List Byte × Device
  | _, [], l, d => (l, d)
  | a, be :: rest, l, d => readWords fn (a + 4) rest (l ++ enabledBytes be (regValue d fn a)) (readEffect fn a d)

/-- A read of registers by a function: the addressed bytes are answered. During an FLR of the function it completes with
Unsupported Request (R493 says so of PF1; PRESUMED of the others, log 93). -/
def doRegRead (fn : FnId) (a : Nat) (be : List (BitVec 4)) (d : Device) : Device :=
  if !d.host.linkUp then d
  else if bit d.host.flr (fnIndex fn) then complete fn .unsupported d
  else
    let x := readWords fn (a / 4 * 4) be [] d
    complete fn (.data x.1) x.2

/-- MK_TABLE_READ: a read of MK_TABLE_DATA0 copies the whole entry and answers its low word. -/
def doMkTableRead (be : BitVec 4) (d : Device) : Device := doRegRead .pf0 0x100084 [be] d

/-- ER_READ: a read of ER_READ_DATA0 copies the whole entry and answers its first word. -/
def doErRead (be : BitVec 4) (d : Device) : Device := doRegRead .pf0 0x200010 [be] d

/-! ## Configuration space (R466, R467) -/

/-- Vendor and device ID of a function (R466). -/
def functionIds (p : Part) (fn : FnId) : Word :=
  let dev := match p with
    | .xg9480 => 0x9480
    | .xg9460 => 0x9460
  place 32 31 16 (dev + fnIndex fn) ||| 0x1F3A#32

/-- Revision ID (the imprint's stepping) and class code. -/
def functionClass (fn : FnId) : Word :=
  let cls := match fn with
    | .pf0 => 0x088000
    | _ => 0x120000
  place 32 31 8 cls ||| place 32 7 0 (fieldN imprint 47 40)

/-- The word at offset `off` of a function's Designated Vendor-Specific Extended Capability (R467): its first word is the
capability ID and version that PCI Express gives a DVSEC. -/
def dvsecRead (fn : FnId) (off : Nat) : Word :=
  match off with
  | 0x00 => 0x12010023#32
  | 0x04 => place 32 31 20 0x18 ||| 0x1F3A#32
  | 0x08 => 1#32
  | 0x0C => place 32 7 0 (fnIndex fn)
  | 0x10 => lowWord imprint
  | 0x14 => highWord imprint
  | _ => 0

/-- The type bits of word `k` of a function's BARs: 64-bit, and prefetchable for PF1 BAR2 (R469). -/
def barType : FnId → Nat → Word
  | .pf1, 2 => 0xC#32
  | .pf2, 2 => 4#32
  | _, 0 => 4#32
  | _, _ => 0

/-- A word of a function's configuration space (R464, R466, R467, R469): its identification, Command register and BARs; its power
management, PCI Express and, in PF1, MSI-X capability; its DVSEC and its AER capability. The offsets of the capabilities, and what their
words hold that the rules do not give, are PCI Express's (PRESUMED, log 104). -/
def configRead (d : Device) (fn : FnId) (off : Nat) : Word :=
  let h := d.host
  let n := fnIndex fn
  match off with
  | 0x00 => functionIds d.part fn
  | 0x04 => place 32 31 16 0x0010 ||| place 32 15 0 (vgetN 0 h.command n).toNat
  | 0x08 => functionClass fn
  | 0x0C => 0x00800000#32
  | 0x34 => 0x40#32
  | 0x40 => 0x00035001#32
  | 0x44 => flagAt 3 true ||| place 32 1 0 (3 * b2n (bit h.d3hot n))
  | 0x50 => if fn = .pf1 then 0x00029010#32 else 0x00020010#32
  | 0x54 => flagAt 28 true ||| flagAt 15 true ||| flagAt 5 true ||| 2#32
  | 0x90 => if fn = .pf1 then flagAt 31 h.msixEnable ||| flagAt 30 h.fnMask ||| place 32 26 16 63 ||| 0x11#32 else 0
  | 0x94 => if fn = .pf1 then 0x60000#32 else 0
  | 0x98 => if fn = .pf1 then 0x61000#32 else 0
  | 0x120 => 0x00020001#32
  | 0x124 => vgetN 0 h.aer n
  | _ =>
    if 0x10 ≤ off && off < 0x20 then
      vgetN 0 (vgetN (Vector.replicate 4 0) h.bars n) ((off - 0x10) / 4) ||| barType fn ((off - 0x10) / 4)
    else if 0x100 ≤ off && off < 0x118 then dvsecRead fn (off - 0x100)
    else 0

/-- A read request to configuration space. -/
def doConfigRead (fn : FnId) (off : Nat) (be : BitVec 4) (d : Device) : Device :=
  if !d.host.linkUp then d else complete fn (.data (enabledBytes be (configRead d fn (off / 4 * 4)))) d

/-- LOW_WORD_READ: a read of the registers from `a`; where that is the low word of a 64-bit quantity, the high word is held for
the function's next read of it. Or a read of configuration space. -/
def doLowWord (fn : FnId) (a : RegAddr) (be : BitVec 4) (more : List (BitVec 4)) (config : Bool) (d : Device) : Device :=
  if config then doConfigRead fn a.toNat be d else doRegRead fn a.toNat (be :: more) d

/-! ## The commands -/

def execLowWordRead (fn : FnId) (addr : RegAddr) (s : State) (be : BitVec 4 := 0xF) (more : List (BitVec 4) := [])
    (config : Bool := false) : Host.Outcome State Fault Refusal :=
  onHost (.lowWordRead fn addr be more config) (doLowWord fn addr be more config) s
def execMkTableRead (s : State) (be : BitVec 4 := 0xF) : Host.Outcome State Fault Refusal :=
  onHost (.mkTableRead be) (doMkTableRead be) s
def execErRead (s : State) (be : BitVec 4 := 0xF) : Host.Outcome State Fault Refusal :=
  onHost (.erRead be) (doErRead be) s

end Sys2Proof.Machine
end

