-- ==== Sys2Proof/Machine/Dispatch.lean ====
section
/-!
DEFINITION. Machine/Dispatch.lean: the effect of every command, one arm per row of the opcode table.
-/
namespace Sys2Proof.Machine

def exec (i : Instr) (s : State) : Host.Outcome State Fault Refusal :=
  match i with
  | .registerWrite src addr value be more poisoned config => Sys2Proof.Machine.execRegisterWrite src addr value be s more poisoned config
  | .lowWordRead fn addr be more config => Sys2Proof.Machine.execLowWordRead fn addr s be more config
  | .refclkInTolerance => Sys2Proof.Machine.execRefclkInTolerance s
  | .ptSyncEdge sinceLast phase => Sys2Proof.Machine.execPtSyncEdge sinceLast phase s
  | .ptCodeFrame frame => Sys2Proof.Machine.execPtCodeFrame frame s
  | .inputLost input => Sys2Proof.Machine.execInputLost input s
  | .holdoverExpired => Sys2Proof.Machine.execHoldoverExpired s
  | .ptClearCounts => Sys2Proof.Machine.execPtClearCounts s
  | .mkTableRead be => Sys2Proof.Machine.execMkTableRead s be
  | .doorbell ring tail poisoned => Sys2Proof.Machine.execDoorbell ring tail s poisoned
  | .doorbellService => Sys2Proof.Machine.execDoorbellService s
  | .ticketReadFailed poisoned => Sys2Proof.Machine.execTicketReadFailed s poisoned
  | .submit ticket => Sys2Proof.Machine.execSubmit ticket s
  | .resume ticket => Sys2Proof.Machine.execResume ticket s
  | .pause ticket => Sys2Proof.Machine.execPause ticket s
  | .abort ticket => Sys2Proof.Machine.execAbort ticket s
  | .admitTicket => Sys2Proof.Machine.execAdmitTicket s
  | .startFire entry => Sys2Proof.Machine.execStartFire entry s
  | .xferWindowOpen entry => Sys2Proof.Machine.execXferWindowOpen entry s
  | .collectiveWindowOpen entry => Sys2Proof.Machine.execCollectiveWindowOpen entry s
  | .refreshFire entry => Sys2Proof.Machine.execRefreshFire entry s
  | .powerStepFire entry => Sys2Proof.Machine.execPowerStepFire entry s
  | .wakeFire entry => Sys2Proof.Machine.execWakeFire entry s
  | .holdFire entry => Sys2Proof.Machine.execHoldFire entry s
  | .promiseFire entry => Sys2Proof.Machine.execPromiseFire entry s
  | .reservationEnd entry => Sys2Proof.Machine.execReservationEnd entry s
  | .programLoaded f => Sys2Proof.Machine.execProgramLoaded f s
  | .compositorIdle f => Sys2Proof.Machine.execCompositorIdle f s
  | .nop f => Sys2Proof.Machine.execNop f s
  | .halt f => Sys2Proof.Machine.execHalt f s
  | .aluGroup f => Sys2Proof.Machine.execAluGroup f s
  | .addi f => Sys2Proof.Machine.execAddi f s
  | .movi f => Sys2Proof.Machine.execMovi f s
  | .ld f => Sys2Proof.Machine.execLd f s
  | .st f => Sys2Proof.Machine.execSt f s
  | .amov f => Sys2Proof.Machine.execAmov f s
  | .smov f => Sys2Proof.Machine.execSmov f s
  | .ldt f => Sys2Proof.Machine.execLdt f s
  | .mtt f => Sys2Proof.Machine.execMtt f s
  | .mft f => Sys2Proof.Machine.execMft f s
  | .mpy f => Sys2Proof.Machine.execMpy f s
  | .mac f => Sys2Proof.Machine.execMac f s
  | .msu f => Sys2Proof.Machine.execMsu f s
  | .mpyr f => Sys2Proof.Machine.execMpyr f s
  | .macr f => Sys2Proof.Machine.execMacr f s
  | .accGroup f => Sys2Proof.Machine.execAccGroup f s
  | .j f => Sys2Proof.Machine.execJ f s
  | .jr f => Sys2Proof.Machine.execJr f s
  | .call f => Sys2Proof.Machine.execCall f s
  | .bcc f => Sys2Proof.Machine.execBcc f s
  | .dbnz f => Sys2Proof.Machine.execDbnz f s
  | .brc f => Sys2Proof.Machine.execBrc f s
  | .lpset f => Sys2Proof.Machine.execLpset f s
  | .pass f => Sys2Proof.Machine.execPass f s
  | .feed f => Sys2Proof.Machine.execFeed f s
  | .drain f => Sys2Proof.Machine.execDrain f s
  | .ink f => Sys2Proof.Machine.execInk f s
  | .justify f => Sys2Proof.Machine.execJustify f s
  | .xfer f => Sys2Proof.Machine.execXfer f s
  | .link f => Sys2Proof.Machine.execLink f s
  | .waitpt f => Sys2Proof.Machine.execWaitpt f s
  | .signal f => Sys2Proof.Machine.execSignal f s
  | .wait f => Sys2Proof.Machine.execWait f s
  | .fence f => Sys2Proof.Machine.execFence f s
  | .pwr f => Sys2Proof.Machine.execPwr f s
  | .prd f => Sys2Proof.Machine.execPrd f s
  | .passDispatch p => Sys2Proof.Machine.execPassDispatch p s
  | .preloadDone p pl => Sys2Proof.Machine.execPreloadDone p pl s
  | .passFeedStart p pl => Sys2Proof.Machine.execPassFeedStart p pl s
  | .passSettle p pl => Sys2Proof.Machine.execPassSettle p pl s
  | .drainDispatch p => Sys2Proof.Machine.execDrainDispatch p s
  | .drainStart p pl => Sys2Proof.Machine.execDrainStart p pl s
  | .drainDone p pl => Sys2Proof.Machine.execDrainDone p pl s
  | .inkDispatch p => Sys2Proof.Machine.execInkDispatch p s
  | .inkDone p => Sys2Proof.Machine.execInkDone p s
  | .justifyDispatch p => Sys2Proof.Machine.execJustifyDispatch p s
  | .justifyDone p => Sys2Proof.Machine.execJustifyDone p s
  | .waitptDispatch p => Sys2Proof.Machine.execWaitptDispatch p s
  | .waitDispatch p => Sys2Proof.Machine.execWaitDispatch p s
  | .signalDispatch p => Sys2Proof.Machine.execSignalDispatch p s
  | .fenceDispatch p => Sys2Proof.Machine.execFenceDispatch p s
  | .pwrDispatch p => Sys2Proof.Machine.execPwrDispatch p s
  | .prdDispatch p => Sys2Proof.Machine.execPrdDispatch p s
  | .preemptRequest p => Sys2Proof.Machine.execPreemptRequest p s
  | .preempted p => Sys2Proof.Machine.execPreempted p s
  | .xferDispatch p => Sys2Proof.Machine.execXferDispatch p s
  | .poolOpen p => Sys2Proof.Machine.execPoolOpen p s
  | .poolRelease p => Sys2Proof.Machine.execPoolRelease p s
  | .chunkRequest p transfer => Sys2Proof.Machine.execChunkRequest p transfer s
  | .chaseReserve msg cond => Sys2Proof.Machine.execChaseReserve msg cond s
  | .chaseGrant msg cond => Sys2Proof.Machine.execChaseGrant msg cond s
  | .chaseRead msg cond => Sys2Proof.Machine.execChaseRead msg cond s
  | .chaseData msg cond => Sys2Proof.Machine.execChaseData msg cond s
  | .chaseEnd msg cond => Sys2Proof.Machine.execChaseEnd msg cond s
  | .chaseAck msg cond => Sys2Proof.Machine.execChaseAck msg cond s
  | .chaseCancel msg cond => Sys2Proof.Machine.execChaseCancel msg cond s
  | .chunkCommit chunk => Sys2Proof.Machine.execChunkCommit chunk s
  | .galleySideChange p => Sys2Proof.Machine.execGalleySideChange p s
  | .multicastGrantDeadline p transfer => Sys2Proof.Machine.execMulticastGrantDeadline p transfer s
  | .streamDeadline p transfer => Sys2Proof.Machine.execStreamDeadline p transfer s
  | .hbmRequest stack req => Sys2Proof.Machine.execHbmRequest stack req s
  | .coalesceExpire mem entry => Sys2Proof.Machine.execCoalesceExpire mem entry s
  | .bucketLeak => Sys2Proof.Machine.execBucketLeak s
  | .hbBucketCtrlWrite value => Sys2Proof.Machine.execHbBucketCtrlWrite value s
  | .hbmHot stack hot => Sys2Proof.Machine.execHbmHot stack hot s
  | .cmdParityAlert stack bus => Sys2Proof.Machine.execCmdParityAlert stack bus s
  | .replayDone stack bus => Sys2Proof.Machine.execReplayDone stack bus s
  | .hbClearCounts stack => Sys2Proof.Machine.execHbClearCounts stack s
  | .fillDone unit => Sys2Proof.Machine.execFillDone unit s
  | .quadModeWrite q mode => Sys2Proof.Machine.execQuadModeWrite q mode s
  | .prbsSelect q prbs heard => Sys2Proof.Machine.execPrbsSelect q prbs s heard
  | .retrain q => Sys2Proof.Machine.execRetrain q s
  | .flClearCounts q => Sys2Proof.Machine.execFlClearCounts q s
  | .clockRecoveryLock q lanes => Sys2Proof.Machine.execClockRecoveryLock q s lanes
  | .laneLock q lane hunt => Sys2Proof.Machine.execLaneLock q lane hunt s
  | .laneLockLost q lane headers => Sys2Proof.Machine.execLaneLockLost q lane s headers
  | .trainingTimeout q => Sys2Proof.Machine.execTrainingTimeout q s
  | .trainBlock q block codewords => Sys2Proof.Machine.execTrainBlock q block s codewords
  | .flit q flit codewords => Sys2Proof.Machine.execFlit q flit codewords s
  | .retryTimeout q => Sys2Proof.Machine.execRetryTimeout q s
  | .linkDispatch p => Sys2Proof.Machine.execLinkDispatch p s
  | .collectiveDispatch p => Sys2Proof.Machine.execCollectiveDispatch p s
  | .forronChunkRequest sender => Sys2Proof.Machine.execForronChunkRequest sender s
  | .forronReserve msg => Sys2Proof.Machine.execForronReserve msg s
  | .forronGrant msg cond flit => Sys2Proof.Machine.execForronGrant msg s cond flit
  | .forronData msg => Sys2Proof.Machine.execForronData msg s
  | .receipt msg => Sys2Proof.Machine.execReceipt msg s
  | .forronCancel msg => Sys2Proof.Machine.execForronCancel msg s
  | .grantHoldExpired chunk => Sys2Proof.Machine.execGrantHoldExpired chunk s
  | .forronDeadline sender => Sys2Proof.Machine.execForronDeadline sender s
  | .flRouteDataWrite src q value => Sys2Proof.Machine.execFlRouteDataWrite src q value s
  | .flOrouteDataWrite src value => Sys2Proof.Machine.execFlOrouteDataWrite src value s
  | .saveDone ticketId => Sys2Proof.Machine.execSaveDone ticketId s
  | .restoreDone f => Sys2Proof.Machine.execRestoreDone f s
  | .treeWindow tree edges cycles user => Sys2Proof.Machine.execTreeWindow tree edges s cycles user
  | .fountPllLock pll locked => Sys2Proof.Machine.execFountPllLock pll locked s
  | .iwBeat r => Sys2Proof.Machine.execIwBeat r s
  | .rqAccept r => Sys2Proof.Machine.execRqAccept r s
  | .rdBeat r beat => Sys2Proof.Machine.execRdBeat r beat s
  | .feedBeat feed data => Sys2Proof.Machine.execFeedBeat feed data s
  | .feedMapWrite feed value => Sys2Proof.Machine.execFeedMapWrite feed value s
  | .ftClearCounts => Sys2Proof.Machine.execFtClearCounts s
  | .cfBegin src => Sys2Proof.Machine.execCfBegin src s
  | .cfAbort => Sys2Proof.Machine.execCfAbort s
  | .cfDoneRelease => Sys2Proof.Machine.execCfDoneRelease s
  | .streamWord word whole poisoned => Sys2Proof.Machine.execStreamWord word whole s poisoned
  | .headerAccepted => Sys2Proof.Machine.execHeaderAccepted s
  | .clearingDone => Sys2Proof.Machine.execClearingDone s
  | .cfNop => Sys2Proof.Machine.execCfNop s
  | .frames => Sys2Proof.Machine.execFrames s
  | .wreg => Sys2Proof.Machine.execWreg s
  | .raminit => Sys2Proof.Machine.execRaminit s
  | .tag => Sys2Proof.Machine.execTag s
  | .endCmd => Sys2Proof.Machine.execEndCmd s
  | .loadTruncated => Sys2Proof.Machine.execLoadTruncated s
  | .fullLoadComplete => Sys2Proof.Machine.execFullLoadComplete s
  | .globalRelease lineHigh level => Sys2Proof.Machine.execGlobalRelease lineHigh s level
  | .peersAbsent => Sys2Proof.Machine.execPeersAbsent s
  | .partialCommit => Sys2Proof.Machine.execPartialCommit s
  | .shadowDiscardRelease => Sys2Proof.Machine.execShadowDiscardRelease s
  | .releaseStage => Sys2Proof.Machine.execReleaseStage s
  | .captureStart tree => Sys2Proof.Machine.execCaptureStart tree s
  | .captureRelease => Sys2Proof.Machine.execCaptureRelease s
  | .captureCancel => Sys2Proof.Machine.execCaptureCancel s
  | .captureEdge => Sys2Proof.Machine.execCaptureEdge s
  | .captureCopyDone => Sys2Proof.Machine.execCaptureCopyDone s
  | .captureTimeout => Sys2Proof.Machine.execCaptureTimeout s
  | .clockStopWrite stop => Sys2Proof.Machine.execClockStopWrite stop s
  | .fountStopped => Sys2Proof.Machine.execFountStopped s
  | .fountResumed => Sys2Proof.Machine.execFountResumed s
  | .readSelWrite value => Sys2Proof.Machine.execReadSelWrite value s
  | .frameCheck => Sys2Proof.Machine.execFrameCheck s
  | .cfErrorClear => Sys2Proof.Machine.execCfErrorClear s
  | .hbmWindowRead offset len => Sys2Proof.Machine.execHbmWindowRead offset len s
  | .hbmWindowWrite offset data poisoned => Sys2Proof.Machine.execHbmWindowWrite offset data poisoned s
  | .userWindowWrite offset data poisoned => Sys2Proof.Machine.execUserWindowWrite offset data poisoned s
  | .userWindowRead offset len => Sys2Proof.Machine.execUserWindowRead offset len s
  | .userWindowTimeout req => Sys2Proof.Machine.execUserWindowTimeout req s
  | .hostReadCompletion chunk result => Sys2Proof.Machine.execHostReadCompletion chunk result s
  | .ringEnable ring value poisoned => Sys2Proof.Machine.execRingEnable ring value s poisoned
  | .pqEnable q value poisoned => Sys2Proof.Machine.execPqEnable q value s poisoned
  | .pqHeadWrite q head poisoned => Sys2Proof.Machine.execPqHeadWrite q head s poisoned
  | .holdoffEnd q => Sys2Proof.Machine.execHoldoffEnd q s
  | .d3hotEntry fns => Sys2Proof.Machine.execD3hotEntry s fns
  | .functionD0 fn => Sys2Proof.Machine.execFunctionD0 fn s
  | .flrPf0 => Sys2Proof.Machine.execFlrPf0 s
  | .flrPf1 => Sys2Proof.Machine.execFlrPf1 s
  | .flrPf2 => Sys2Proof.Machine.execFlrPf2 s
  | .hotReset => Sys2Proof.Machine.execHotReset s
  | .linkDown => Sys2Proof.Machine.execLinkDown s
  | .errataSpill => Sys2Proof.Machine.execErrataSpill s
  | .erRead be => Sys2Proof.Machine.execErRead s be
  | .erClearLost => Sys2Proof.Machine.execErClearLost s
  | .firstErrorClear unit => Sys2Proof.Machine.execFirstErrorClear unit s
  | .abortComplete ticketId => Sys2Proof.Machine.execAbortComplete ticketId s
  | .abortDeadline p => Sys2Proof.Machine.execAbortDeadline p s
  | .psResetRequested src p => Sys2Proof.Machine.execPsResetRequested src p s
  | .psInternal p platen => Sys2Proof.Machine.execPsInternal p platen s
  | .pressQuiet p => Sys2Proof.Machine.execPressQuiet p s
  | .drainBoundExpired p => Sys2Proof.Machine.execDrainBoundExpired p s
  | .pressResetDone p => Sys2Proof.Machine.execPressResetDone p s
  | .resetBoundExpired p => Sys2Proof.Machine.execResetBoundExpired p s
  | .powerCycleBoundExpired p => Sys2Proof.Machine.execPowerCycleBoundExpired p s
  | .powerStateRequest src request => Sys2Proof.Machine.execPowerStateRequest src request s
  | .stateChangeStart => Sys2Proof.Machine.execStateChangeStart s
  | .stateEntryStepDone => Sys2Proof.Machine.execStateEntryStepDone s
  | .sidebandAddressMatch written => Sys2Proof.Machine.execSidebandAddressMatch s written
  | .sidebandRead => Sys2Proof.Machine.execSidebandRead s
  | .latchedWake => Sys2Proof.Machine.execLatchedWake s
  | .wakeAtArm value => Sys2Proof.Machine.execWakeAtArm value s
  | .pwGateQuadWrite src value => Sys2Proof.Machine.execPwGateQuadWrite src value s
  | .pwGateRegionWrite src value => Sys2Proof.Machine.execPwGateRegionWrite src value s
  | .governorTick => Sys2Proof.Machine.execGovernorTick s
  | .domainPowerGood d => Sys2Proof.Machine.execDomainPowerGood d s
  | .domainFault d => Sys2Proof.Machine.execDomainFault d s
  | .domainOff d => Sys2Proof.Machine.execDomainOff d s
  | .padHoldRelease banks => Sys2Proof.Machine.execPadHoldRelease banks s
  | .pwThrottleApply src value => Sys2Proof.Machine.execPwThrottleApply src value s
  | .pwThrottleN low => Sys2Proof.Machine.execPwThrottleN low s
  | .temperatureCrossing celsius => Sys2Proof.Machine.execTemperatureCrossing celsius s
  | .droopTrip tripped => Sys2Proof.Machine.execDroopTrip tripped s
  | .powerWindow watts => Sys2Proof.Machine.execPowerWindow watts s
  | .pwAlertN low => Sys2Proof.Machine.execPwAlertN low s
  | .stretchHoldExpired => Sys2Proof.Machine.execStretchHoldExpired s
  | .thermalTrip => Sys2Proof.Machine.execThermalTrip s
  | .getCert inLen => Sys2Proof.Machine.execGetCert inLen s
  | .getWrapKey inLen => Sys2Proof.Machine.execGetWrapKey inLen s
  | .quote inLen => Sys2Proof.Machine.execQuote inLen s
  | .logRead inLen => Sys2Proof.Machine.execLogRead inLen s
  | .claim inLen => Sys2Proof.Machine.execClaim inLen s
  | .openSession inLen => Sys2Proof.Machine.execOpenSession inLen s
  | .closeSession inLen => Sys2Proof.Machine.execCloseSession inLen s
  | .transferOwner inLen => Sys2Proof.Machine.execTransferOwner inLen s
  | .releaseOwner inLen => Sys2Proof.Machine.execReleaseOwner inLen s
  | .storeWrite inLen => Sys2Proof.Machine.execStoreWrite inLen s
  | .fwLoad inLen => Sys2Proof.Machine.execFwLoad inLen s
  | .fwActivate inLen => Sys2Proof.Machine.execFwActivate inLen s
  | .rollbackAdvance inLen => Sys2Proof.Machine.execRollbackAdvance inLen s
  | .sessionExpired => Sys2Proof.Machine.execSessionExpired s
  | .storeWriteDone programmed => Sys2Proof.Machine.execStoreWriteDone programmed s
  | .identityDerived => Sys2Proof.Machine.execIdentityDerived s
  | .logEntryDurable programmed => Sys2Proof.Machine.execLogEntryDurable s programmed
  | .deviceReset kind => Sys2Proof.Machine.execDeviceReset kind s
  | .railFault => Sys2Proof.Machine.execRailFault s
  | .fmtClearCounts p => Sys2Proof.Machine.execFmtClearCounts p s
  | .plClearCounts p pl => Sys2Proof.Machine.execPlClearCounts p pl s
  | .inClearCounts p => Sys2Proof.Machine.execInClearCounts p s
  | .juClearCounts p => Sys2Proof.Machine.execJuClearCounts p s
  | .fmCoClearCounts f => Sys2Proof.Machine.execFmCoClearCounts f s
  | .psStallClearCounts p => Sys2Proof.Machine.execPsStallClearCounts p s
  | .hostLinkUp rate width flit => Sys2Proof.Machine.execHostLinkUp rate width flit s
  | .foremanStarted => Sys2Proof.Machine.execForemanStarted s
  | .partialRegionsHeld => Sys2Proof.Machine.execPartialRegionsHeld s
  | .flrComplete fn => Sys2Proof.Machine.execFlrComplete fn s
  | .mailboxCommandDone => Sys2Proof.Machine.execMailboxCommandDone s

end Sys2Proof.Machine
end

