-- ==== Sys2Proof/Machine/HostLink.lean ====
section
/-!
DEFINITION. Machine/HostLink.lean: the requests that wait on the host link, and what the block does while no command waits
(12_configuration.md R424; 13_host_interface.md R472).
-/
namespace Sys2Proof.Machine

/-- The request still has to wait: for its stacks, or for room in the stream buffer. -/
def requestWaits (d : Device) : LinkReq → Bool
  | .windowWrite o a v poisoned =>
    fnServes d .pf1 && !poisoned && windowState d (a.getD (windowAddr d o)) v.length = .waits
  | .windowRead o a n => !bit d.host.flr 1 && windowState d (a.getD (windowAddr d o)) n = .waits
  | .row (.streamWord _ whole poisoned) => whole && !poisoned && (match d.cf.load with
      | some l => !l.ended && 1024 ≤ l.header.length && 16384 ≤ l.buf.length
      | none => false)
  | .row _ => false

/-- The place of the first request that need not wait; nothing passes a posted write. -/
def linkNext (d : Device) : List LinkReq → Option Nat
  | [] => none
  | r :: rest => if !requestWaits d r then some 0 else if r.posted then none else (linkNext d rest).map (· + 1)

/-- The rows that stand for a request of the host, beside those of the HBM window, and what each does; none for any other row. -/
def rowEffect : Instr → Option (Device → Device)
  | .registerWrite src addr value be more poisoned config =>
    if src = .foreman then none else some (registerEffect src addr value be more poisoned config)
  | .lowWordRead fn addr be more config => some (doLowWord fn addr be more config)
  | .doorbell ring tail poisoned => some (hostWrite .pf1 poisoned (doDoorbell ring tail))
  | .streamWord word whole poisoned => some (hostWrite .pf2 poisoned (doStreamWord word whole))
  | .userWindowWrite offset data poisoned => some (doUserWrite offset data poisoned)
  | .userWindowRead offset len => some (doUserRead offset len.toNat)
  | .ringEnable ring value poisoned => some (hostWrite .pf1 poisoned (doRingEnable ring.1 value))
  | .pqEnable q value poisoned => some (hostWrite .pf1 poisoned (doPqEnable q.1 value))
  | .pqHeadWrite q head poisoned => some (hostWrite .pf1 poisoned (doPqHead q.1 head))
  | .ptClearCounts => some doPtClearCounts
  | .mkTableRead be => some (doMkTableRead be)
  | .hbBucketCtrlWrite value => some (doBucketCtrl value)
  | .hbClearCounts stack => some (doHbClearCounts stack.1)
  | .quadModeWrite q mode => some (doQuadMode q.1 mode)
  | .prbsSelect q prbs heard => some (doPrbsSelect q.1 prbs heard)
  | .retrain q => some (doRetrain q.1)
  | .flClearCounts q => some (doFlClearCounts q.1)
  | .flRouteDataWrite src q value => if src = .foreman then none else some (doRouteWrite src q.1 value)
  | .flOrouteDataWrite src value => if src = .foreman then none else some (doOrouteWrite src value)
  | .feedMapWrite feed value => some (doFeedMapWrite feed.1 value)
  | .ftClearCounts => some doFtClearCounts
  | .cfBegin src => if src = .foreman then none else some (doCfBegin src)
  | .cfAbort => some doCfAbort
  | .cfDoneRelease => some doDoneRelease
  | .captureStart tree => some (doCaptureStart tree.1)
  | .captureRelease => some doCaptureRelease
  | .captureCancel => some doCaptureCancel
  | .clockStopWrite stop => some (doClockStop stop)
  | .readSelWrite value => some (doReadSel value)
  | .cfErrorClear => some doCfErrorClear
  | .erRead be => some (doErRead be)
  | .erClearLost => some doErClearLost
  | .firstErrorClear unit => some (doFirstErrorClear unit)
  | .psResetRequested src p => if src = .foreman then none else some (doResetRequested src p.1)
  | .powerStateRequest src request => if src = .foreman then none else some (doStateRequest src request)
  | .wakeAtArm value => some (doWakeAtArm value)
  | .pwGateQuadWrite src value => if src = .foreman then none else some (doGateQuad src value)
  | .pwGateRegionWrite src value => if src = .foreman then none else some (doGateRegion src value)
  | .padHoldRelease banks => some (doPadRelease banks)
  | .pwThrottleApply src value => if src = .foreman then none else some (doThrottleApply src value)
  | .getCert inLen => some (doGetCert inLen)
  | .getWrapKey inLen => some (doGetWrapKey inLen)
  | .quote inLen => some (doQuote inLen)
  | .logRead inLen => some (doLogRead inLen)
  | .claim inLen => some (doClaim inLen)
  | .openSession inLen => some (doOpen inLen)
  | .closeSession inLen => some (doClose inLen)
  | .transferOwner inLen => some (doTransfer inLen)
  | .releaseOwner inLen => some (doRelease inLen)
  | .storeWrite inLen => some (doStoreWrite inLen)
  | .fwLoad inLen => some (doFwLoad inLen)
  | .fwActivate inLen => some (doFwActivate inLen)
  | .rollbackAdvance inLen => some (doRollback inLen)
  | .fmtClearCounts p => some (clearPress p.1 fun x => { x with fmt := fmtClear x.fmt })
  | .plClearCounts p pl => some (clearPress p.1 fun x => setPlaten x pl (plClear (getPlaten x pl)))
  | .inClearCounts p => some (clearPress p.1 fun x => { x with ink := inClear x.ink })
  | .juClearCounts p => some (clearPress p.1 fun x => { x with ink := juClear x.ink })
  | .fmCoClearCounts f => some (doFmCoClearCounts f.1)
  | .psStallClearCounts p => some (clearPress p.1 fun x => { x with stalls := {} })
  | .refclkInTolerance | .ptSyncEdge _ _ | .ptCodeFrame _ | .inputLost _ | .holdoverExpired | .doorbellService
  | .ticketReadFailed _ | .submit _ | .resume _ | .pause _ | .abort _ | .admitTicket | .startFire _ | .xferWindowOpen _
  | .collectiveWindowOpen _ | .refreshFire _ | .powerStepFire _ | .wakeFire _ | .holdFire _ | .promiseFire _
  | .reservationEnd _ | .programLoaded _ | .compositorIdle _ | .nop _ | .halt _ | .aluGroup _ | .addi _ | .movi _ | .ld _
  | .st _ | .amov _ | .smov _ | .ldt _ | .mtt _ | .mft _ | .mpy _ | .mac _ | .msu _ | .mpyr _ | .macr _ | .accGroup _ | .j _
  | .jr _ | .call _ | .bcc _ | .dbnz _ | .brc _ | .lpset _ | .pass _ | .feed _ | .drain _ | .ink _ | .justify _ | .xfer _
  | .link _ | .waitpt _ | .signal _ | .wait _ | .fence _ | .pwr _ | .prd _ | .passDispatch _ | .preloadDone _ _
  | .passFeedStart _ _ | .passSettle _ _ | .drainDispatch _ | .drainStart _ _ | .drainDone _ _ | .inkDispatch _ | .inkDone _
  | .justifyDispatch _ | .justifyDone _ | .waitptDispatch _ | .waitDispatch _ | .signalDispatch _ | .fenceDispatch _
  | .pwrDispatch _ | .prdDispatch _ | .preemptRequest _ | .preempted _ | .xferDispatch _ | .poolOpen _ | .poolRelease _
  | .chunkRequest _ _ | .chaseReserve _ _ | .chaseGrant _ _ | .chaseRead _ _ | .chaseData _ _ | .chaseEnd _ _ | .chaseAck _ _
  | .chaseCancel _ _ | .chunkCommit _ | .galleySideChange _ | .multicastGrantDeadline _ _ | .streamDeadline _ _
  | .hbmRequest _ _ | .coalesceExpire _ _ | .bucketLeak | .hbmHot _ _ | .cmdParityAlert _ _ | .replayDone _ _ | .fillDone _
  | .clockRecoveryLock _ _ | .laneLock _ _ _ | .laneLockLost _ _ _ | .trainingTimeout _ | .trainBlock _ _ _ | .flit _ _ _
  | .retryTimeout _ | .linkDispatch _ | .collectiveDispatch _ | .forronChunkRequest _ | .forronReserve _ | .forronGrant _ _ _
  | .forronData _ | .receipt _ | .forronCancel _ | .grantHoldExpired _ | .forronDeadline _ | .saveDone _ | .restoreDone _
  | .treeWindow _ _ _ _ | .fountPllLock _ _ | .iwBeat _ | .rqAccept _ | .rdBeat _ _ | .feedBeat _ _ | .headerAccepted
  | .clearingDone | .cfNop | .frames | .wreg | .raminit | .tag | .endCmd | .loadTruncated | .fullLoadComplete
  | .globalRelease _ _ | .peersAbsent | .partialCommit | .shadowDiscardRelease | .releaseStage | .captureEdge
  | .captureCopyDone | .captureTimeout | .fountStopped | .fountResumed | .frameCheck | .hbmWindowRead _ _
  | .hbmWindowWrite _ _ _ | .userWindowTimeout _ | .hostReadCompletion _ _ | .holdoffEnd _ | .d3hotEntry _ | .functionD0 _
  | .flrPf0 | .flrPf1 | .flrPf2 | .hotReset | .linkDown | .errataSpill | .abortComplete _ | .abortDeadline _
  | .psInternal _ _ | .pressQuiet _ | .drainBoundExpired _ | .pressResetDone _ | .resetBoundExpired _
  | .powerCycleBoundExpired _ | .stateChangeStart | .stateEntryStepDone | .sidebandAddressMatch _ | .sidebandRead
  | .latchedWake | .governorTick | .domainPowerGood _ | .domainFault _ | .domainOff _ | .pwThrottleN _
  | .temperatureCrossing _ | .droopTrip _ | .powerWindow _ | .pwAlertN _ | .stretchHoldExpired | .thermalTrip
  | .sessionExpired | .storeWriteDone _ | .identityDerived | .logEntryDurable _ | .deviceReset _ | .railFault
  | .hostLinkUp _ _ _ | .foremanStarted | .partialRegionsHeld | .flrComplete _ | .mailboxCommandDone => none

/-- The effect of a request. -/
def takeRequest : LinkReq → Device → Device
  | .windowWrite o a v poisoned => doWindowWrite o a v poisoned
  | .windowRead o a n => doWindowRead o a n
  | .row c => (rowEffect c).getD id

/-- The part takes a request from the link, where one need not wait. -/
def drainLink (d : Device) : Device :=
  if !d.host.linkUp then d
  else match linkNext d d.host.link with
    | none => d
    | some i => match d.host.link[i]? with
      | none => d
      | some r => settleLink (takeRequest r (modHost (fun h => { h with link := removeAt h.link i }) d))

/-- What a step does while no command waits: a point of Press Time passes, the link gives a request that had to wait, and what
follows at once from that happens. -/
def idle (d : Device) : Device := if asleep d then d else settled (drainLink (tick d))

end Sys2Proof.Machine
end

