-- ==== Sys2Proof/Safety.lean ====
section
/-!
DEFINITION. Safety.lean: what counts as a safe run, and the conditions in which the statements of
Certificates/Slice0/Obligations.lean speak.
-/
namespace Sys2Proof
open Sys2Proof.Machine

/-- The commands of a list are all ones that a sender can send. -/
def safeQueue (q : List Instr) : Bool := q.all Instr.wf

/-- The commands that act on the always-on domain, and so on a part that is asleep too (R527, R537, R544, R581, R587). -/
def alwaysOn : Instr → Bool
  | .sidebandRead => true
  | .sidebandAddressMatch _ => true
  | .latchedWake => true
  | .deviceReset _ => true
  | .railFault => true
  | .thermalTrip => true
  | .pwThrottleN _ => true
  | .pwAlertN _ => true
  | _ => false

/-- No abort waits to begin its step 3 (R506). -/
def abortsBegun (d : Device) : Bool := d.mkr.tickets.all fun t => !(t.abort.any (cancelDue d.now))

/-- Nothing waits to follow from the commands before: no step 3 of an abort to begin (R506), no failed access to report (R304), no
error to escalate (R515), no chunk without receive space or an engine (R257, R364), no feed map to change (R412). -/
def calm (d : Device) : Bool :=
  abortsBegun d && d.errata.failed.isEmpty && d.errata.escalate.isEmpty && d.chase.rx.all (·.granted) && d.forron.rx.all (·.granted)
    && (List.range 32).all fun k => (vgetN none d.fount.feedNext k).isNone

/-- The answer "next state": the state `s` with its waiting commands, its device `d` and what follows at once from that
(`settled`). -/
def nextWith (s : State) (d : Device) : Host.Outcome State Fault Refusal := .next { s with dev := settled d }

/-- The compositor of forme `f` is about to execute the word `w`: it runs and its task is neither paused nor aborting;
the word at the pc reads without an uncorrectable error, is a valid word, its stage qualifier lets it execute and it
reads no register that a PRD has yet to write (R188 to R191, R207, R208). `d'` is the device once the corrected errors
of the fetch, if any, are counted and reported. -/
structure Issues (d : Device) (f : Nat) (w : Word) (d' : Device) : Prop where
  may   : mayIssue d f = true
  word  : (fetchWord d f).1 = w
  good  : firstBad (fetchWord d f).2 = none
  valid : wordValid w = true
  dev   : d' = memEvents (.imem f) 1 none (fetchWord d f).2 d
  qual  : qualOn w (forme d' f).regs = true
  free  : interlocked (forme d' f) w = false

/-- A changed feed map waits only while a FEED holds the feed (R412). -/
def feedsSettled (d : Device) : Bool :=
  (List.range 32).all fun k => (vgetN none d.fount.feedNext k).isNone || feedHeld d k

/-- No chunk that disagrees with its engine's collective is left without its refusal (R364). -/
def enginesSettled (d : Device) : Bool :=
  d.forron.rx.all fun x => x.granted || match frxDie x with
    | none => true
    | some die => match vgetN none d.forron.engines die with
      | none => true
      | some c => colAgrees c x

/-- The chunks at a receiver are told apart by their source, tag and initiator. -/
def chunksApart (d : Device) (dst : Nat) : Prop :=
  (d.chase.rx.filter fun c => c.dst = dst).Pairwise fun x y => rxSame x y = false

/-- The chunk that a receiver grants next waits for a reason: the receiver is shut, or the chunk does not fit (R254, R257,
R259). -/
def grantsSettled (d : Device) : Prop :=
  ∀ dst c, chunksApart d dst → nextGrant d dst = some c →
    epShut d (epOf dst) = true ∨ rxFits d c = false

/-- What follows at once from the commands so far has followed. -/
structure Followed (d : Device) : Prop where
  feeds   : feedsSettled d = true
  engines : enginesSettled d = true
  grants  : grantsSettled d

end Sys2Proof
end

