-- ==== Sys2Proof/Certificates/Slice0/Obligations.lean ====
section
/-!
DEFINITION. Certificates/Slice0/Obligations.lean: the statements for the provers. Each names the rules of spec/ that it
rests on in OBLIGATIONS.json. A statement of the form "exec answers the next state with device `settled d`" gives the
whole device `d`, so what `d` does not change stays as it was, up to what `Obligations.SettledFrame` allows.
-/
open Sys2Proof Sys2Proof.Machine

/-- A step takes the command at the front of the queue and runs it with the rest of the queue. The queue is the model's
own (assumption log 1). -/
def Obligations.FrontCommandRuns : Prop :=
  ∀ (c : Instr) (r : List Instr) (s : State), s.pending = c :: r → step s = exec c { s with pending := r }

/-- With an empty queue one point passes (R26, R34): the model's choice of when, assumption log 1; its counts of edges and frames are
those of log 13. A request that waits on the link is taken then (R424, R472): which one is the model's choice, log 92. -/
def Obligations.IdleStepIsOnePoint : Prop :=
  (∀ s : State, s.pending = [] → asleep s.dev = true → step s = .next s) ∧
  (∀ s : State, s.pending = [] → asleep s.dev = false → s.dev.power.wakeWait = none →
    let t := s.dev.time
    let leaves : Bool := t.suppress = 0 && t.count.toNat % 4096 = 0
    let enters : Bool := t.suppress = 0 && (t.count + 1).toNat % 4096 = 0
    let level := stretchLevel s.dev.power
    let d : Device := { s.dev with
      time := { t with
        count := if t.suppress = 0 then t.count + 1 else t.count
        suppress := t.suppress - 1
        refPoints := if t.refOk then min 4096 (t.refPoints + 1) else 0
        edgePlaced := t.edgePlaced && !leaves
        mismatch := if leaves then none else t.mismatch
        missedEdges := if leaves && !t.edgePlaced then t.missedEdges + 1 else t.missedEdges
        syncOk := t.syncOk && !(leaves && !t.edgePlaced)
        holdoverSheets := if enters && (t.state = .holdover || t.state = .lost) then satAdd t.holdoverSheets 1
                          else t.holdoverSheets
        missedFrames := if enters then (if t.frameLocal then 0 else t.missedFrames + 1) else t.missedFrames
        frameLocal := t.frameLocal && !enters }
      presses := if level = 0 then s.dev.presses
                 else s.dev.presses.map fun x =>
                   if pressHasWork x then { x with stalls := { x.stalls with throttle := satAdd x.stalls.throttle level } } else x
      trust := { s.dev.trust with
        sheets := if enters && s.dev.trust.session && s.dev.trust.sheets ≠ 0 then s.dev.trust.sheets - 1
                  else s.dev.trust.sheets } }
    (∀ i r, s.dev.host.linkUp = true → linkNext d s.dev.host.link = some i → s.dev.host.link[i]? = some r →
      step s = nextWith s (settleLink (takeRequest r (modHost (fun h => { h with link := removeAt h.link i }) d)))) ∧
    (linkNext d s.dev.host.link = none ∨ s.dev.host.linkUp = false → step s = nextWith s d)) ∧
  (∀ (d : Device) l i, linkNext d l = some i →
    (∃ r, l[i]? = some r ∧ requestWaits d r = false) ∧
    ∀ j < i, ∃ q, l[j]? = some q ∧ q.posted = false ∧ requestWaits d q = true)

/-- No command stops the block: each answers a next state, whatever its operands and whatever the state, and the commands
that wait are untouched. Only the always-on domain lives in Deep (R527), after a thermal trip (R585) and in device reset
(R587). Nothing that the host sends passes a posted write that waits (R472; that reads do not is the model's reading, log 92). -/
def Obligations.EveryCommandAnswers : Prop :=
  (∀ (c : Instr) (s : State), ∃ d : Device, exec c s = .next { s with dev := d }) ∧
  (∀ (c : Instr) (s : State), asleep s.dev = true → alwaysOn c = false → calm s.dev = true → exec c s = .next s) ∧
  (∀ (c : Instr) (g : Device → Device) (s : State), asleep s.dev = false → rowEffect c = some g →
    exec c s = nextWith s (if linkBusy s.dev then holdLink (.row c) s.dev else g s.dev))

/-- The part of every command's answer that is common to all: `settled`. -/
def Obligations.SettledFrame : Prop :=
  ∀ d : Device,
    (calm d = true → settled d = d) ∧
    (abortsBegun d = true → d.errata.failed = [] → d.errata.escalate = [] →
      (d.forron.rx.all (·.granted) = true ∨ ∀ a n, hbmRetired d a n = false) →
      (settled d).part = d.part ∧ (settled d).time = d.time ∧ (settled d).mkr = d.mkr ∧ (settled d).host = d.host ∧
      (settled d).errata = d.errata ∧ (settled d).hbmStacks = d.hbmStacks ∧ (settled d).hbm = d.hbm ∧
      (settled d).cf = d.cf ∧ (settled d).power = d.power ∧ (settled d).trust = d.trust ∧ (settled d).free = d.free)

/-- The state right after reset: the values that the register tables give. -/
def Obligations.ResetState : Prop :=
  let d := State.reset.dev
  State.reset.pending = [] ∧ d.part = .xg9480 ∧
  (d.time.count = 0 ∧ d.time.state = .unsynced ∧ d.time.codeRequired = true ∧ d.time.refOk = false) ∧
  (d.mkr.search = 0x100 ∧ d.mkr.lead = 2 ∧ d.mkr.admitting = true ∧ d.mkr.budget = 0x190 ∧ d.mkr.table = [] ∧
    d.mkr.tickets = []) ∧
  (d.errata.drainPt = 0xA00 ∧ d.errata.abortPt = 0x100 ∧ d.errata.spill = true ∧ d.errata.ring = []) ∧
  (d.power.state = .idle ∧ d.power.change = none ∧ d.power.tokens = 0x10 ∧ d.power.cap = 0x10 ∧ d.power.rate = 1 ∧
    d.power.sbAddr = 0x58 ∧ d.power.wakeTo = 2) ∧
  (∀ n < 204, (domain d n).dstate = if n < 128 then .off else .on) ∧
  (d.cf.state = .unconfigured ∧ d.cf.gap = 8 ∧ d.cf.frameCheck = true ∧ d.cf.stop = false ∧ d.cf.regions = 0) ∧
  (d.trust.session = false ∧ d.trust.identity = false ∧ d.trust.store.locks = 0 ∧ d.trust.store.policy = 1) ∧
  (∀ f < 16, (forme d f).state = .off ∧ (forme d f).filling = true) ∧
  (∀ n < 8, (stack d n).state = .filling ∧ (stack d n).span = 0x400 ∧ (stack d n).shares = 4 ∧
    (stack d n).point = BitVec.ofNat 12 (512 * n))
/-- The events of the three time inputs and their registers (R22 to R34, R59, R60). The model's choice are the counts `edgeRun`,
`frameRun`, `frameSeen` and `lastFrame` that `restorable` reads (assumption log 13), and what is left of the sheet in progress after a
step or an adoption (assumption log 14). -/
def Obligations.TimeInputs : Prop :=
  ∀ s : State, asleep s.dev = false →
    let d := s.dev
    let edge (n : Nat) (t : PressTime) : PressTime :=
      { t with edgeRun := if n = 1600 then t.edgeRun + 1 else 1, frameRun := if t.frameSeen then t.frameRun else 0,
               frameSeen := false }
    let placed : Device :=
      modTime (fun t => { t with syncOk := true, edgePlaced := true, missedEdges := 0, mismatch := none }) d
    let lock : Device → Device := modTime fun t =>
      { t with state := .locked, holdoverSheets := 0, syncOk := true, edgePlaced := decide (t.count.toNat % 4096 = 0),
               frameLocal := false, missedEdges := 0, missedFrames := 0, mismatch := none }
    let record (step phase : Int) (x : Device) : Device :=
      modTime (fun t => { t with resyncCount := satAdd t.resyncCount 1, lastStep := sat16 step }) (timeRec 0x0104 step phase x)
    let adopt (sheet : Nat) (step phase : Int) (x : Device) : Device :=
      record step phase (modTime (fun t => { t with count := BitVec.ofNat 64 (4096 * sheet), suppress := 0 }) (loseTickets x))
    (d.time.refOk = false →
      exec .refclkInTolerance s = nextWith s (modTime (fun t =>
        { t with refOk := true, refPoints := 0,
                 state := if t.state = .unsynced then .acquiring else t.state }) d) ∧
      (∀ n phase, exec (.ptSyncEdge n phase) s = nextWith s d) ∧
      (∀ f, exec (.ptCodeFrame f) s = nextWith s d)) ∧
    (∀ n, d.time.refOk = true → d.time.state = .locked → d.point = 0 →
      (d.time.mismatch = none → exec (.ptSyncEdge n 0) s = nextWith s (modTime (edge n) placed)) ∧
      (∀ sheet, d.time.mismatch = some sheet →
        let step : Int := sheet.toNat - d.sheet
        (step.natAbs ≤ 16 →
          exec (.ptSyncEdge n 0) s = nextWith s (modTime (edge n) (record step 0 (fireSkipped (modTime (fun t =>
            { t with count := BitVec.ofNat 64 (4096 * sheet.toNat), suppress := 0 }) placed))))) ∧
        (16 < step.natAbs →
          exec (.ptSyncEdge n 0) s = nextWith s (modTime (edge n) (lock (adopt sheet.toNat step 0 placed)))))) ∧
    (∀ n phase, d.time.refOk = true → d.time.state = .locked → phase ≠ 0 → ((d.point : Int) + phase) % 4096 = 0 →
      exec (.ptSyncEdge n phase) s = nextWith s (modTime (fun t =>
        { t with syncSlips := satAdd t.syncSlips 1 }) d)) ∧
    (∀ n phase, d.time.refOk = true → d.time.state ≠ .locked → restorable d.time = false ∨ n ≠ 1600 →
      ((d.point : Int) + phase) % 4096 = 0 →
      exec (.ptSyncEdge n phase) s = nextWith s (modTime (edge n) d)) ∧
    (∀ phase, d.time.refOk = true → restorable d.time = true → ((d.point : Int) + phase) % 4096 = 0 →
      let next := (d.time.lastFrame.map BitVec.toNat).getD 0
      (d.time.state = .unsynced ∨ d.time.state = .acquiring →
        exec (.ptSyncEdge 1600 phase) s = nextWith s (modTime (edge 1600) (lock (modTime (fun t =>
          { t with count := if t.codeRequired then BitVec.ofNat 64 (4096 * next) else 0, suppress := 0 }) d)))) ∧
      (d.time.state = .holdover ∨ d.time.state = .lost →
        let step : Int := if d.time.codeRequired then next - ((d.now : Int) + phase) / 4096 else 0
        (phase.natAbs ≤ 256 ∧ step.natAbs ≤ 16 →
          exec (.ptSyncEdge 1600 phase) s = nextWith s (modTime (edge 1600) (lock (record step phase (fireSkipped (modTime (fun t =>
            { t with count := BitVec.ofInt 64 (t.count.toNat + 4096 * step + max 0 phase),
                     suppress := (max 0 (-phase)).toNat }) d)))))) ∧
        (256 < phase.natAbs ∨ 16 < step.natAbs →
          exec (.ptSyncEdge 1600 phase) s = nextWith s (modTime (edge 1600) (lock
            (adopt (if d.time.codeRequired then next else d.sheet + 1) step phase d)))))) ∧
    (∀ f, d.time.refOk = true → d.time.codeRequired = true → frameValid f = true →
      exec (.ptCodeFrame f) s = nextWith s (modTime (fun t =>
        { t with codeOk := true, srcHoldover := bit f 39, frameSeen := true, frameLocal := true,
                 lastFrame := some (frameNext f),
                 frameRun := if t.lastFrame = some (frameNext f - 1) then t.frameRun + 1 else 1,
                 mismatch := if t.state = .locked ∧ (frameNext f).toNat ≠ d.sheet + 1 then some (frameNext f)
                             else t.mismatch }) d)) ∧
    (∀ f, d.time.refOk = true → d.time.codeRequired = true → frameValid f = false →
      exec (.ptCodeFrame f) s = nextWith s (modTime (fun t =>
        { t with codeOk := false, codeErrors := satAdd t.codeErrors 1, frameRun := 0 }) d)) ∧
    (∀ f, d.time.codeRequired = false → exec (.ptCodeFrame f) s = nextWith s d) ∧
    (d.time.state = .locked →
      exec (.inputLost .refclk) s = nextWith s (timeRec 0x0102 0 0 (modTime (fun t =>
        { t with refOk := false, refPoints := 0, edgeRun := 0, frameRun := 0, state := .holdover,
                 mismatch := none }) d)) ∧
      (2 ≤ d.time.missedEdges →
        exec (.inputLost .sync) s = nextWith s (timeRec 0x0102 0 0 (modTime (fun t =>
          { t with state := .holdover, mismatch := none }) d))) ∧
      (d.time.codeRequired = true → 4 ≤ d.time.missedFrames →
        exec (.inputLost .code) s = nextWith s (timeRec 0x0102 0 0 (modTime (fun t =>
          { t with state := .holdover, mismatch := none }) d)))) ∧
    (d.time.state ≠ .locked →
      exec (.inputLost .refclk) s = nextWith s (modTime (fun t =>
        { t with refOk := false, refPoints := 0, edgeRun := 0, frameRun := 0 }) d) ∧
      exec (.inputLost .sync) s = nextWith s d ∧ exec (.inputLost .code) s = nextWith s d) ∧
    (d.time.state = .holdover → 1024 ≤ d.time.holdoverSheets.toNat →
      exec .holdoverExpired s =
        nextWith s (loseTickets (modTime (fun t => { t with state := .lost }) d))) ∧
    (linkBusy d = false → exec .ptClearCounts s =
      nextWith s (modTime (fun t => { t with syncSlips := 0, codeErrors := 0 }) d))

/-- R478: the sheet number that a field names. -/
def Obligations.FullSheetNumber : Prop :=
  ∀ now field : Nat, field < 2 ^ 32 →
    ∃ z : Int, z % 2 ^ 32 = field ∧ (now : Int) - 2 ^ 31 ≤ z ∧ z ≤ (now : Int) + 2 ^ 31 - 1 ∧
      (∀ n : Int, n % 2 ^ 32 = field → (now : Int) - 2 ^ 31 ≤ n → n ≤ (now : Int) + 2 ^ 31 - 1 → n = z) ∧
      (0 ≤ z → (fullSheet now field : Int) = z)
/-- The stored fields of registers with access code RW (R9, R10 and the register tables). That a shorter write changes nothing
is the model's reading of R10 (log 60). -/
def Obligations.PlainRegisterWrites : Prop :=
  ∀ s : State, asleep s.dev = false →
    let d := s.dev
    (∀ r a v be, r ≠ .foreman → linkBusy d = true →
      exec (.registerWrite r a v be) s = nextWith s (holdLink (.row (.registerWrite r a v be)) d)) ∧
    (linkBusy d = false →
    (∀ r a v be, be ≠ 0xF → exec (.registerWrite r a v be) s = nextWith s d) ∧
    (∀ a v be, exec (.registerWrite .pf2 a v be) s = nextWith s d) ∧
    (∀ r v, r = .pf0 ∨ r = .foreman →
      exec (.registerWrite r 0x100040 v 0xF) s = nextWith s (modMk (fun m =>
        { m with search := field v 28 16, lead := field v 11 8, admitting := bit v 0 }) d) ∧
      exec (.registerWrite r 0x100080 v 0xF) s = nextWith s (modMk (fun m =>
        { m with tableIndex := field v 15 0 }) d) ∧
      exec (.registerWrite r 0x200000 v 0xF) s = nextWith s (modErrata (fun e =>
        { e with spill := bit v 0 }) d) ∧
      exec (.registerWrite r 0x200008 v 0xF) s = nextWith s (modErrata (fun e =>
        { e with overflow := e.overflow && !bit v 31 }) d) ∧
      exec (.registerWrite r 0x20000C v 0xF) s = nextWith s (modErrata (fun e =>
        { e with readIndex := field v 9 0 }) d) ∧
      exec (.registerWrite r 0x200050 v 0xF) s = nextWith s (modErrata (fun e =>
        { e with drainPt := field v 27 16, abortPt := field v 11 0 }) d) ∧
      exec (.registerWrite r 0x300000 v 0xF) s = nextWith s (modPower (fun w =>
        { w with wakeTo := if fieldN v 5 4 = 3 then w.wakeTo else field v 5 4 }) d) ∧
      exec (.registerWrite r 0x300030 v 0xF) s = nextWith s (modPower (fun w =>
        { w with domainSel := field v 7 0 }) d) ∧
      exec (.registerWrite r 0x300048 v 0xF) s = nextWith s (modPower (fun w =>
        { w with wakeAtLo := v }) d) ∧
      exec (.registerWrite r 0x300080 v 0xF) s = nextWith s (modPower (fun w =>
        { w with padArm := field v 7 0 }) d) ∧
      exec (.registerWrite r 0x800000 v 0xF) s = nextWith s (modChase (fun c =>
        { c with grantDeadline := field v 11 0 }) d) ∧
      exec (.registerWrite r 0x800004 v 0xF) s = nextWith s (modChase (fun c =>
        { c with routeNi := field v 25 16, routeIndex := field v 9 0 }) d) ∧
      exec (.registerWrite r 0xD0001C v 0xF) s = nextWith s (modCf (fun c =>
        { c with gap := field v 15 0 }) d) ∧
      exec (.registerWrite r 0xD00020 v 0xF) s = nextWith s (modCf (fun c =>
        { c with peerTimeout := v }) d) ∧
      exec (.registerWrite r 0xD00030 v 0xF) s = nextWith s (modCf (fun c =>
        { c with capTree := field v 4 0 }) d) ∧
      exec (.registerWrite r 0xD00034 v 0xF) s = nextWith s (modCf (fun c =>
        { c with capRegions := field v 23 0 }) d)) ∧
    (fnServes d .pf1 = true → ∀ v,
      exec (.registerWrite .pf1 0x50004 v 0xF) s = nextWith s (modHost (fun h =>
        { h with errataPq := field v 2 0 }) d) ∧
      exec (.registerWrite .pf1 0x50010 v 0xF) s = nextWith s (modHost (fun h =>
        { h with apSel := field v 5 0 }) d) ∧
      (∀ r < 64, (vgetN {} d.host.rings r).enable = false →
        exec (.registerWrite .pf1 (BitVec.ofNat 25 (0x1000 * r + 4)) v 0xF) s =
          nextWith s (modRing r (fun x => { x with base := baseWrite true v x.base }) d))))

/-- Access code RWI by the example of PT_CTRL, and the frisket of R509. -/
def Obligations.ProtectedRegisterWrites : Prop :=
  ∀ s : State, asleep s.dev = false → linkBusy s.dev = false →
    let d := s.dev
    let detail (v : Word) : BitVec 256 := BitVec.ofNat 256 v.toNat
    (∀ r v, r = .pf0 ∨ r = .foreman → bit v 1 = d.time.codeRequired →
      exec (.registerWrite r 0x100000 v 0xF) s = nextWith s d) ∧
    (∀ v, bit v 1 ≠ d.time.codeRequired → d.trust.session = true →
      exec (.registerWrite .pf0 0x100000 v 0xF) s = nextWith s
        (modTime (fun t => { t with codeRequired := bit v 1 }) (logAct 1 2 0 0 0 0x100000 (detail v) d))) ∧
    (∀ v, bit v 1 ≠ d.time.codeRequired → d.trust.session = false →
      exec (.registerWrite .pf0 0x100000 v 0xF) s = nextWith s
        (logRefused 1 1 1 0x0901 0 0x100000 (detail v) d)) ∧
    (∀ (p : PressId) v, fenced d p.1 = false →
      exec (.registerWrite .pf0 (BitVec.ofNat 25 (0x900200 + 0x40000 * (p.1 / 8) + 0x4000 * (p.1 % 8))) v 0xF) s =
        nextWith s (modPress p.1 (fun x => { x with fmt := fmtCtrlWrite v x.fmt }) d) ∧
      exec (.registerWrite .pf0 (BitVec.ofNat 25 (0x900780 + 0x40000 * (p.1 / 8) + 0x4000 * (p.1 % 8))) v 0xF) s =
        nextWith s (modPress p.1 (fun x => { x with block := v }) d)) ∧
    (∀ (p : PressId) v, fenced d p.1 = true →
      exec (.registerWrite .pf0 (BitVec.ofNat 25 (0x900200 + 0x40000 * (p.1 / 8) + 0x4000 * (p.1 % 8))) v 0xF) s =
        nextWith s (logPress p.1 0x0A01 false d))

/-- R9 and R11: the addressed bytes are answered; a low word's read holds the high word, and a high word's read uses that
copy or answers the live word. Where that copy is held (one per function and quantity) is the model's choice, log 94; that a
read of several words is a read of each in turn is log 93's; that a read waits behind a posted write, log 92's. -/
def Obligations.LowWordReads : Prop :=
  ∀ s : State, asleep s.dev = false →
    let d := s.dev
    let low (fn : FnId) (hi : Nat) (be : BitVec 4) (q : BitVec 64) : Device :=
      complete fn (.data (enabledBytes be (field q 31 0)))
        (modHost (fun h => { h with hold := setHold fn hi (some (field q 63 32)) h.hold }) d)
    let high (fn : FnId) (a : Nat) (be : BitVec 4) (q : BitVec 64) : Device :=
      complete fn (.data (enabledBytes be ((smapGet none (holdOf d.host.hold fn) a).getD (field q 63 32))))
        (modHost (fun h => { h with hold := setHold fn a none h.hold }) d)
    (∀ fn a be more config, linkBusy d = true →
      exec (.lowWordRead fn a be more config) s = nextWith s (holdLink (.row (.lowWordRead fn a be more config)) d)) ∧
    (linkBusy d = false →
    (∀ be, fnServes d .pf0 = true →
      exec (.lowWordRead .pf0 0x100008 be) s = nextWith s (low .pf0 0x10000C be d.time.count) ∧
      exec (.lowWordRead .pf0 0x10000C be) s = nextWith s (high .pf0 0x10000C be d.time.count)) ∧
    (∀ be more a, d.host.linkUp = true → bit d.host.flr 1 = true →
      exec (.lowWordRead .pf1 a be more) s = nextWith s (complete .pf1 .unsupported d)) ∧
    (∀ be, fnServes d .pf1 = true → ∀ r < 64,
      exec (.lowWordRead .pf1 (BitVec.ofNat 25 (0x1000 * r)) be) s =
        nextWith s (low .pf1 (0x1000 * r + 4) be (vgetN {} d.host.rings r).base) ∧
      exec (.lowWordRead .pf1 (BitVec.ofNat 25 (0x1000 * r + 4)) be) s =
        nextWith s (high .pf1 (0x1000 * r + 4) be (vgetN {} d.host.rings r).base)) ∧
    (∀ be, fnServes d .pf1 = true → ∀ q < 8,
      exec (.lowWordRead .pf1 (BitVec.ofNat 25 (0x40000 + 0x1000 * q)) be) s =
        nextWith s (low .pf1 (0x40004 + 0x1000 * q) be (pqueue d q).base) ∧
      exec (.lowWordRead .pf1 (BitVec.ofNat 25 (0x40004 + 0x1000 * q)) be) s =
        nextWith s (high .pf1 (0x40004 + 0x1000 * q) be (pqueue d q).base)) ∧
    (fnServes d .pf0 = true →
      exec (.lowWordRead .pf0 0x100008 0xF [0xF]) s =
        nextWith s (complete .pf0 (.data (enabledBytes 0xF (field d.time.count 31 0) ++ enabledBytes 0xF (field d.time.count 63 32)))
          (modHost (fun h => { h with hold := setHold .pf0 0x10000C none (setHold .pf0 0x10000C (some (field d.time.count 63 32)) h.hold) }) d))))
/-- Rings and doorbells (R482 to R485), and the table read (R65). That a request waits behind a posted write is the model's
reading of R472 (log 92), and so is the commands' own form: the queue's entry as a whole (log 4). -/
def Obligations.DoorbellsAndTicketReads : Prop :=
  ∀ s : State, asleep s.dev = false →
    let d := s.dev
    (∀ be, linkBusy d = true → exec (.mkTableRead be) s = nextWith s (holdLink (.row (.mkTableRead be)) d)) ∧
    (∀ be, linkBusy d = false → fnServes d .pf0 = true → exec (.mkTableRead be) s = nextWith s
      (complete .pf0 (.data (enabledBytes be (field (getEntry d d.mkr.tableIndex.toNat) 31 0)))
        (modMk (fun m => { m with tableCopy := getEntry d m.tableIndex.toNat }) d))) ∧
    (∀ (r : RingId) tail, fnServes d .pf1 = true →
      let x := vgetN {} d.host.rings r.1
      (linkBusy d = true → exec (.doorbell r tail) s = nextWith s (holdLink (.row (.doorbell r tail)) d)) ∧
      (linkBusy d = false → x.enable = true → tail.toNat < x.size.toNat → tail ≠ x.tail →
        exec (.doorbell r tail) s = nextWith s (wakeEvent 2 none .host
          (modHost (fun h =>
              if h.doorbells.any (queuedEntry r.1) then
                { h with doorbells := modWhere (queuedEntry r.1) (fun e => { e with tail := tail.toNat }) h.doorbells }
              else { h with doorbells := h.doorbells ++ [⟨r.1, tail.toNat, false⟩] })
          (modRing r.1 (fun x => { x with tail := tail }) d)))) ∧
      (linkBusy d = false → x.enable = false ∨ x.size.toNat ≤ tail.toNat →
        exec (.doorbell r tail) s = nextWith s (logPlain unitHost 0x0705 (noTask d unitHost) d))) ∧
    (∀ e l, d.host.doorbells = e :: l → d.host.reading = none → d.mkr.admission = none →
      let x := vgetN {} d.host.rings e.ring
      x.enable = true → x.closing = false → ticketsHeld d x.pq.toNat = false →
      (e.tail = x.head.toNat → exec .doorbellService s = nextWith s (modHost (fun h => { h with doorbells := l }) d)) ∧
      (e.tail ≠ x.head.toNat → exec .doorbellService s = nextWith s
        (emit (.hostRead (x.base.toNat + 64 * x.head.toNat) 64)
          (modHost (fun h => { h with doorbells := { e with begun := true } :: l,
                                      reading := some (e.ring, x.head.toNat, x.pq.toNat) }) d)))) ∧
    (∀ r i q, d.host.reading = some (r, i, q) →
      exec .ticketReadFailed s = nextWith s (ringSettle r (refuse 0x0702 0 r i q 0 0 0 (readEnd r d))) ∧
      exec (.ticketReadFailed true) s =
        nextWith s (ringSettle r (refuse 0x0702 0 r i q 0 0 0 (readEnd r (notePoison .pf1 d)))))

/-- The four ticket operations as they arrive (R480, R481). That an abort takes its first step in this command is the
model's choice (log 65), and so is that the read of the imposition begins with the ticket (log 36). -/
def Obligations.TicketOperations : Prop :=
  ∀ s : State, asleep s.dev = false → ∀ r i q, s.dev.host.reading = some (r, i, q) →
    let d := readEnd r s.dev
    (∀ t, noImage s.dev = true → exec (.submit t) s = nextWith s s.dev ∧ exec (.resume t) s = nextWith s s.dev) ∧
    (∀ t c, noImage s.dev = false → openingCheck d t = some c →
      (tkOp t = 0 → exec (.submit t) s = nextWith s (ringSettle r (refuse c (tkId t) r i q 0 0 0 d))) ∧
      (tkOp t = 1 → exec (.resume t) s = nextWith s (ringSettle r (refuse c (tkId t) r i q 1 0 0 d)))) ∧
    (∀ t, noImage s.dev = false → openingCheck d t = none →
      (tkOp t = 0 → exec (.submit t) s = nextWith s
        (noteRead (tkImp t) 64 4 none (modMk (fun m => { m with admission := some ⟨r, i, q, t, false⟩ }) d))) ∧
      (tkOp t = 1 → exec (.resume t) s = nextWith s
        (noteRead (tkImp t) 64 4 none (modMk (fun m => { m with admission := some ⟨r, i, q, t, false⟩ }) d)))) ∧
    (∀ t x, ticketOk t = true → openTarget d (tkId t) = some x →
      (tkOp t = 2 → x.pause = none → x.started = true →
        exec (.pause t) s = nextWith s (ringSettle r
          ((taskPresses (modTicket x.slot (fun y => { y with pause := some ⟨tkProgram t, d.time.count⟩ })
              (withdraw x d)) x.slot).foldl requestPreempt
            (modTicket x.slot (fun y => { y with pause := some ⟨tkProgram t, d.time.count⟩ })
              (withdraw x d))))) ∧
      (tkOp t = 2 → x.pause = none → x.started = false →
        exec (.pause t) s = nextWith s (ringSettle r
          (dropTicket x.slot (pausedRec x (tkProgram t) 0 false (releaseEntries x (withdraw x d)))))) ∧
      (tkOp t = 2 → x.pause.isSome = true → exec (.pause t) s = nextWith s (ringSettle r d)) ∧
      (tkOp t = 3 →
        exec (.abort t) s = nextWith s (ringSettle r (abortTicket x 0x0704 unitMk d)))) ∧
    (∀ t, ticketOk t = true → openTarget d (tkId t) = none →
      (tkOp t = 2 → exec (.pause t) s = nextWith s (ringSettle r (refuse 0x0703 (tkId t) r i q 2 0 0 d))) ∧
      (tkOp t = 3 → exec (.abort t) s = nextWith s (ringSettle r (refuse 0x0703 (tkId t) r i q 3 0 0 d))))

/-- ADMIT (R44, R46). Model's choices: the order of the checks, and that an imposition outside readable HBM is a bad one
(log 18); the empty table that MK_OVER_BUDGET is judged against (log 94); that it waits while a bus replays (log 99). -/
def Obligations.AdmitTicketOutcome : Prop :=
  ∀ (s : State) (a : Admission), asleep s.dev = false → s.dev.mkr.admission = some a →
    (busesIssue s.dev = false ∨ noImage s.dev = true → exec .admitTicket s = nextWith s s.dev) ∧
    (busesIssue s.dev = true → noImage s.dev = false →
    let t := a.ticket
    let d := modMk (fun m => { m with admission := none }) s.dev
    let no (code : BitVec 16) (first done : Nat) (d : Device) : Device :=
      ringSettle a.ring (refuse code (tkId t) a.ring a.index a.pq (tkOp t) first done d)
    (∀ c, stateRefusal s.dev.time.state = some c → exec .admitTicket s = nextWith s (no c 0 0 d)) ∧
    (s.dev.time.state = .locked →
      (a.lost = true → exec .admitTicket s = nextWith s (no 0x0115 0 0 d)) ∧
      (a.lost = false → ∀ e, readImp (tkImp t) d = (e, none) → exec .admitTicket s = nextWith s (no 0x0115 0 0 e)) ∧
      (a.lost = false → ∀ e imp, readImp (tkImp t) d = (e, some imp) → needsOffline e imp = true →
        exec .admitTicket s = nextWith s (no 0x0A07 0 0 e)) ∧
      (a.lost = false → ∀ e imp, readImp (tkImp t) d = (e, some imp) → needsOffline e imp = false →
        let first := max (fullSheet e.sheet (tkStart t)) (leadSheet e)
        let found := searchFrom e imp (tkClass t) (fullSheet e.sheet (tkDeadline t))
          (max 1 (min 4096 e.mkr.search.toNat)) first
        (fitsEmpty e imp (tkClass t) = false → exec .admitTicket s = nextWith s (no 0x0112 0 0 e)) ∧
        (fitsEmpty e imp (tkClass t) = true → needsOverrun e imp = true →
          exec .admitTicket s = nextWith s (no 0x0110 first 0 e)) ∧
        (fitsEmpty e imp (tkClass t) = true → needsOverrun e imp = false →
          (∀ p slot, found = .placed p → freeSlot e = some slot →
            exec .admitTicket s = nextWith s (ringSettle a.ring (acceptTicket a imp p slot e))) ∧
          (∀ p, found = .placed p → freeSlot e = none → exec .admitTicket s = nextWith s (no 0x0110 first 0 e)) ∧
          (∀ done, found = .deadline done → exec .admitTicket s = nextWith s (no 0x0111 first done e)) ∧
          (found = .noRoom → exec .admitTicket s = nextWith s (no 0x0110 first 0 e))))))

/-- The search of R44. -/
def Obligations.EarliestPlacement : Prop :=
  ∀ (d : Device) (imp : Imp) (c deadline n s : Nat),
    (∀ p, searchFrom d imp c deadline n s = .placed p →
      ∃ k < n, candidate d imp c (s + k) = some p ∧ (∀ j < k, candidate d imp c (s + j) = none) ∧
        s + k + imp.span - 1 ≤ deadline ∧ s + k + imp.span - 1 ≤ d.sheet + 524287) ∧
    (∀ done, searchFrom d imp c deadline n s = .deadline done →
      ∃ k < n, done = s + k + imp.span - 1 ∧ deadline < done ∧ ∀ j < k, candidate d imp c (s + j) = none)

/-- fits of R44 holds at every point of an accepted plan, though only some points are tested. -/
def Obligations.AdmissionNeverOvercommits : Prop :=
  ∀ (d : Device) (imp : Imp) (c s : Nat) (pl : Placement), candidate d imp c s = some pl →
    let all := planDemands c s pl.es ++ tableDemands d (4096 * s) (4096 * (s + imp.span))
    let own := planDemands c s pl.es ++ classDemands d c (4096 * s) (4096 * (s + imp.span))
    (∀ x ∈ planDemands c s pl.es, ∀ p, active p x = true →
      if x.cls = 5 then x.qty = 0 ∨ sumAt p all (·.cls = 5) ≤ budgetAt d.mkr d.now p
      else sumAt p all (sameRes x) ≤ capacityOf x.cls) ∧
    (∀ p, sumAt p own (fun y => y.cls = 5 && y.tcls = c) ≤ (vgetN 0 d.mkr.classPower c).toNat ∧
      formesAt p c own ≤ (vgetN 0 d.mkr.classFormes c).toNat)
/-- The action codes of R38. The order in which a slot's refresh commands stand in the retry buffers is the model's choice
(log 34). -/
def Obligations.EntriesFire : Prop :=
  ∀ (s : State) (i : BitVec 16), asleep s.dev = false → entryDue s.dev i.toNat = true →
    let e := getEntry s.dev i.toNat
    let late : Bool := entryTime s.dev e < s.dev.now
    let d := modEntry i.toNat (fun e => e ||| (if late then 6#128 else 2#128)) s.dev
    let n := eIndex e
    (eAction e = 2 → exec (.xferWindowOpen i) s = nextWith s d) ∧
    (eAction e = 3 → exec (.collectiveWindowOpen i) s = nextWith s d) ∧
    (eAction e = 8 → exec (.holdFire i) s = nextWith s d) ∧
    (∀ t, eAction e = 1 → ticketOf s.dev (eSlot e) = some t → formeFree s.dev n = true → t.abort = none →
      t.pause = none →
      let d1 := modTicket t.slot (fun t => { t with toStart := t.toStart - 1, started := true }) d
      ((maskPresses n (eQty e)).find? (fenced d1) = none →
        exec (.startFire i) s = nextWith s (startForme n t.slot i.toNat (virtualOf t n) (eQty e)
          (modTicket t.slot (fun t => { t with running := t.running + 1 }) d1))) ∧
      (∀ p, (maskPresses n (eQty e)).find? (fenced d1) = some p →
        exec (.startFire i) s = nextWith s (faultTask t.slot 0x0A01 (unitPress p) { phase := 3 } none d1))) ∧
    (eAction e = 4 → (stack d n).state = .ready ∨ (stack d n).state = .filling →
      exec (.refreshFire i) s = nextWith s (modStack n (fun x =>
        let k := if x.hot then 8 else 4
        let last := (x.refreshRow + BitVec.ofNat 14 (2 * (k - 1))).toNat
        { x with refreshed := k, refreshRow := x.refreshRow + BitVec.ofNat 14 (2 * k),
                 buses := x.buses.mapIdx fun b y =>
                   if y.active || y.training then y else { y with retry := refreshTail b last } }) d)) ∧
    (eAction e = 4 → (stack d n).state ≠ .ready → (stack d n).state ≠ .filling → exec (.refreshFire i) s = nextWith s d) ∧
    (eAction e = 5 →
      (eArg e % 8 = 1 ∨ eArg e % 8 = 2 → exec (.powerStepFire i) s = nextWith s (wakeDomain d n)) ∧
      (eArg e % 8 = 0 ∨ eArg e % 8 = 3 → (domain d n).dstate = .on →
        exec (.powerStepFire i) s = nextWith s
          (if domainHeld d n then modDomain n (fun x => { x with held := true }) d
           else modDomain n (fun x => { x with dstate := .goingOff }) d)) ∧
      (144 ≤ n → n < 152 →
        ∀ st, (eArg e % 8 = 4 ∧ st = .selfRefresh) ∨ (eArg e % 8 = 5 ∧ st = .partialRefresh) →
          let d2 := finishStack n d
          (stackEmpty d2 n = true → exec (.powerStepFire i) s = nextWith s (domainOff n st d2)) ∧
          (stackEmpty d2 n = false → exec (.powerStepFire i) s = nextWith s (modDomain n (fun x =>
            { x with dstate := .goingOff, held := false, ramp := none, partialNext := st = .partialRefresh }) d2)))) ∧
    (eAction e = 6 →
      (eSlot e ≠ 0xFFF → exec (.wakeFire i) s = nextWith s (wakeDomain d n)) ∧
      (eSlot e = 0xFFF → exec (.wakeFire i) s = nextWith s (wakeEvent 3 none .makeready d))) ∧
    (eAction e = 7 →
      (∀ t, ticketOf s.dev (eSlot e) = some t → t.pause = none → t.abort = none →
        exec (.promiseFire i) s = nextWith s (breakPromise t unitMk (freeEntry i.toNat d))) ∧
      (ticketOf s.dev (eSlot e) = none → exec (.promiseFire i) s = nextWith s (freeEntry i.toNat d)))

/-- RESERVATION_END (R39, R48, R52). That a system WAKE or POWER_STEP entry is removed then is the model's reading (log 19). -/
def Obligations.ReservationsEnd : Prop :=
  ∀ (s : State) (i : BitVec 16), asleep s.dev = false →
    let d := s.dev
    let e := getEntry d i.toNat
    eValid e = true → entryEnd d e ≤ d.now →
    (∀ t, ticketOf d (eSlot e) = some t →
      (noStartDone d t = true → exec (.reservationEnd i) s = nextWith s (completeTicket t d)) ∧
      (noStartDone d t = false →
        (eFired e = true ∨ overrunBlocks d i.toNat = true → (eAction e = 2 ∨ eAction e = 3 ∨ eAction e = 6) →
          exec (.reservationEnd i) s = nextWith s (freeEntry i.toNat d)) ∧
        ((eAction e = 1 ∨ eAction e = 8) → eOverrun e = false → t.pause = none → t.abort = none →
          exec (.reservationEnd i) s =
            nextWith s (breakPromise t (resUnit e) (modEntry i.toNat (fun e => e ||| 8#128) d))))) ∧
    (ticketOf d (eSlot e) = none → eFired e = true →
      (eAction e = 4 →
        exec (.reservationEnd i) s =
          nextWith s (modEntry i.toNat (fun e => setField (e &&& ~~~6#128) 127 108 (eSheet e + eArg e)) d)) ∧
      (eAction e ≠ 4 → exec (.reservationEnd i) s = nextWith s (freeEntry i.toNat d)))
/-- R214 on the registers of the forme. -/
def Obligations.AddiAndMovi : Prop :=
  ∀ (s : State) (f : FormeId) (w : Word) (d : Device), asleep s.dev = false → Issues s.dev f.1 w d →
    let x := advance (forme d f.1)
    let r := x.regs
    let put (r' : CoRegs) : Device := modForme f.1 (fun _ => { x with regs := r' }) d
    let rd := fieldN w 21 17
    let sum := aluAdd (rg r (fieldN w 16 12)) (BitVec.ofInt 32 (sextN 12 (fieldN w 11 0)))
    let imm := fieldN w 15 0
    let mov : Word := if bit w 16 then setField (rg r rd) 31 16 imm else BitVec.ofInt 32 (sextN 16 imm)
    (wop w = 0x05 → exec (.addi f) s = nextWith s (put { wg r rd sum.res with sr := setNzcv r.sr sum })) ∧
    (wop w = 0x06 → exec (.movi f) s = nextWith s (put (wg r rd mov))) ∧
    sum.res = rg r (fieldN w 16 12) + BitVec.ofInt 32 (sextN 12 (fieldN w 11 0)) ∧
    (bit w 16 = true → mov.extractLsb' 0 16 = (rg r rd).extractLsb' 0 16 ∧ (mov.extractLsb' 16 16).toNat = imm) ∧
    (∀ v, rd ≠ 0 → rg (wg r rd v) rd = v) ∧ (∀ v, rd = 0 → wg r rd v = r ∧ rg r rd = 0)

/-- Scalar instructions on registers alone, apart from R214. -/
def Obligations.ScalarRegisters : Prop :=
  ∀ (s : State) (f : FormeId) (w : Word) (d : Device), asleep s.dev = false → Issues s.dev f.1 w d →
    let x := advance (forme d f.1)
    let r := x.regs
    let put (r' : CoRegs) : Device := modForme f.1 (fun _ => { x with regs := r' }) d
    (wop w = 0x01 → fieldN w 21 0 = 0 → exec (.nop f) s = nextWith s (modForme f.1 (fun _ => x) d)) ∧
    (wop w = 0x02 → fieldN w 21 0 = 0 →
      exec (.halt f) s = nextWith s (modForme f.1 (fun _ => { x with state := .finishing }) d)) ∧
    (∀ o, wop w = 0x04 → fieldN w 5 4 = 0 →
      (fieldN w 3 0 = 13 ∨ fieldN w 3 0 = 14 → bit w 6 = false ∧ fieldN w 11 7 = 0) →
      alu (fieldN w 3 0) (rg r (fieldN w 16 12))
        (if bit w 6 then BitVec.ofNat 32 (fieldN w 11 7) else rg r (fieldN w 11 7)) = some o →
      exec (.aluGroup f) s = nextWith s (put { wg r (fieldN w 21 17) o.res with sr := setNzcv r.sr o })) ∧
    (wop w = 0x0A → fieldN w 11 0 = 0 →
      let sel := fieldN w 16 13
      let y : Bool := decide (sel / 4 % 2 = 1)
      let v := rg r (fieldN w 21 17)
      (bit w 12 = true → exec (.amov f) s = nextWith s (put (wg r (fieldN w 21 17)
        (if 8 ≤ sel then amod r y (sel % 4) else (areg r y (sel % 4)).setWidth 32)))) ∧
      (bit w 12 = false → sel < 8 → exec (.amov f) s = nextWith s (put (setAreg r y (sel % 4) (v.setWidth 16)))) ∧
      (bit w 12 = false → 8 ≤ sel → modifierOk v = true →
        exec (.amov f) s = nextWith s (put (setAmod r y (sel % 4) v)))) ∧
    (wop w = 0x0B → fieldN w 11 0 = 0 →
      let sel := fieldN w 16 13
      let v := rg r (fieldN w 21 17)
      (bit w 12 = true → sel = 0 → exec (.smov f) s = nextWith s (put (wg r (fieldN w 21 17) (r.trip.setWidth 32)))) ∧
      (bit w 12 = true → sel = 5 → exec (.smov f) s = nextWith s (put (wg r (fieldN w 21 17) r.sr))) ∧
      (bit w 12 = false → sel = 0 → exec (.smov f) s = nextWith s (put { r with trip := v.setWidth 16 })) ∧
      (bit w 12 = false → sel = 2 → fieldN v 3 0 ≠ 0 → fieldN v 3 0 ≤ 8 →
        exec (.smov f) s = nextWith s (put { r with depth := v.setWidth 4 })) ∧
      (bit w 12 = false → sel = 5 → exec (.smov f) s = nextWith s (put { r with sr := v &&& 0x30F#32 }))) ∧
    (wop w = 0x0C → fieldN w 15 0 = 0 → fieldN w 17 16 ≠ 0 →
      let v := (List.range 8).foldl (fun a k => a + (rg r (8 * fieldN w 17 16 + k)).toNat * 2 ^ (32 * k)) 0
      exec (.ldt f) s =
        nextWith s (put { r with t := vmodN r.t (fieldN w 21 18) fun _ => BitVec.ofNat 256 v })) ∧
    (wop w = 0x0D → fieldN w 9 0 = 0 →
      let k := fieldN w 17 15
      let mtt (t : BitVec 256) : BitVec 256 := setField t (32 * k + 31) (32 * k) (rg r (fieldN w 14 10)).toNat
      exec (.mtt f) s = nextWith s (put { r with t := vmodN r.t (fieldN w 21 18) mtt })) ∧
    (wop w = 0x0E → fieldN w 9 0 = 0 →
      exec (.mft f) s = nextWith s (put (wg r (fieldN w 14 10) (BitVec.ofNat 32
        (fieldN (vgetN 0 r.t (fieldN w 21 18)) (32 * fieldN w 17 15 + 31) (32 * fieldN w 17 15))))))

/-- LD and ST (R181, R215). -/
def Obligations.LoadsAndStores : Prop :=
  ∀ (s : State) (f : FormeId) (w : Word) (d : Device), asleep s.dev = false → Issues s.dev f.1 w d → immOk w = true →
    let x := advance (forme d f.1)
    let r := x.regs
    let y := bit w 16
    let size := fieldN w 11 10
    let bytes := if size = 0 then 4 else 2
    let ea := (effAddr w r).toNat
    (ea % bytes = 0 → ∀ a', formPost r y (fieldN w 15 14) (fieldN w 13 12) = .ok a' →
      (wop w = 0x08 → size < 3 → (memRead (dmem x y) ea bytes).2.2.all (!·.bad) = true →
        let m := (memRead (dmem x y) ea bytes).1
        let v := leNat (memRead (dmem x y) ea bytes).2.1
        let res : Word := if size = 1 then BitVec.ofInt 32 (sextN 16 v) else BitVec.ofNat 32 v
        exec (.ld f) s = nextWith s (dataEvents f.1
          ((memRead (dmem x y) ea bytes).2.2.map fun e => (dmemCode y, e))
          (modForme f.1 (fun _ => { setDmem x y m with
            regs := wg (setAreg r y (fieldN w 15 14) a') (fieldN w 21 17) res }) d))) ∧
      (wop w = 0x09 → size < 2 →
        let out := memWrite (dmem x y) ea (leBytes bytes (rg r (fieldN w 21 17)).toNat)
        out.2.all (!·.bad) = true →
        exec (.st f) s = nextWith s (dataEvents f.1 (out.2.map fun e => (dmemCode y, e))
          (modForme f.1 (fun _ => storeOwn f.1 w d { setDmem x y out.1 with regs := setAreg r y (fieldN w 15 14) a' }) d)))) ∧
    (ea % bytes ≠ 0 →
      (wop w = 0x08 → size < 3 → exec (.ld f) s = nextWith s (faultIssue f.1 w 0 codeMisaligned d)) ∧
      (wop w = 0x09 → size < 2 → exec (.st f) s = nextWith s (faultIssue f.1 w 0 codeMisaligned d)))

/-- R185 to R187, R218, R219. -/
def Obligations.MultiplierAndAccumulators : Prop :=
  ∀ (s : State) (f : FormeId) (w : Word) (d : Device), asleep s.dev = false → Issues s.dev f.1 w d →
    let x := advance (forme d f.1)
    let i := b2n (bit w 21)
    let rd := fieldN w 20 16
    (∀ y a b evs, mulFetch w x = .ok (y, a, b, evs) → evs.all (!·.2.bad) = true →
      let r := y.regs
      let p := mulProduct (mulOperand a (mulUa w)) (mulOperand b (mulUb w)) (bit r.cr 0)
      let old := (vgetN 0 r.acc i).toInt
      let acc (exact : Int) : CoRegs :=
        { r with acc := vmodN r.acc i fun _ => BitVec.ofInt 40 exact,
                 sr := stickA r.sr ((BitVec.ofInt 40 exact).toInt ≠ exact) }
      let rounded (exact : Int) : CoRegs :=
        wg { acc exact with sr := stickS (acc exact).sr (rnd16 (BitVec.ofInt 40 exact)).2 } rd
          ((rnd16 (BitVec.ofInt 40 exact)).1.signExtend 32)
      let put (r' : CoRegs) : Device := dataEvents f.1 evs (modForme f.1 (fun _ => { y with regs := r' }) d)
      (wop w = 0x10 → rd = 0 → exec (.mpy f) s = nextWith s (put (acc p))) ∧
      (wop w = 0x11 → rd = 0 → exec (.mac f) s = nextWith s (put (acc (old + p)))) ∧
      (wop w = 0x12 → rd = 0 → exec (.msu f) s = nextWith s (put (acc (old - p)))) ∧
      (wop w = 0x13 → exec (.mpyr f) s = nextWith s (put (rounded p))) ∧
      (wop w = 0x14 → exec (.macr f) s = nextWith s (put (rounded (old + p))))) ∧
    (wop w = 0x15 → fieldN w 11 0 = 0 →
      let r := x.regs
      let a := vgetN 0 r.acc i
      let put (r' : CoRegs) : Device := modForme f.1 (fun _ => { x with regs := r' }) d
      let set (v : BitVec 40) : Device := put { r with acc := vmodN r.acc i fun _ => v }
      (fieldN w 15 12 = 0 → exec (.accGroup f) s =
        nextWith s (put (wg { r with sr := stickS r.sr (rnd16 a).2 } rd ((rnd16 a).1.signExtend 32)))) ∧
      (fieldN w 15 12 = 1 → exec (.accGroup f) s =
        nextWith s (put (wg { r with sr := stickS r.sr (sat32 a).2 } rd (sat32 a).1))) ∧
      (fieldN w 15 12 = 2 → exec (.accGroup f) s = nextWith s (put (wg r rd (BitVec.ofInt 32 (expx a))))) ∧
      (∀ v, fieldN w 15 12 = 3 → norm a (rg r rd).toInt = some v → exec (.accGroup f) s = nextWith s (set v)) ∧
      (fieldN w 15 12 = 4 → exec (.accGroup f) s = nextWith s (put (wg r rd (a.extractLsb' 0 32)))) ∧
      (fieldN w 15 12 = 5 → exec (.accGroup f) s =
        nextWith s (put (wg r rd ((a.extractLsb' 32 8).signExtend 32)))) ∧
      (fieldN w 15 12 = 6 → exec (.accGroup f) s = nextWith s (set ((rg r rd).signExtend 40))) ∧
      (fieldN w 15 12 = 7 → rd = 0 → exec (.accGroup f) s = nextWith s (set 0)))

/-- R220, R221. That DBNZ on g0 tests the computed count is the model's choice (log 102). -/
def Obligations.BranchesAndLoops : Prop :=
  ∀ (s : State) (f : FormeId) (w : Word) (d : Device), asleep s.dev = false → Issues s.dev f.1 w d →
    let x := advance (forme d f.1)
    let r := x.regs
    let put (r' : CoRegs) : Device := modForme f.1 (fun _ => { x with regs := r' }) d
    let goto (r' : CoRegs) (t : Nat) : CoRegs := { r' with pc := BitVec.ofNat 15 t }
    let t := fieldN w 14 0
    (wop w = 0x18 → fieldN w 21 15 = 0 → exec (.j f) s = nextWith s (put (goto r t))) ∧
    (wop w = 0x19 → fieldN w 16 0 = 0 → (rg r (fieldN w 21 17)).toNat < 2 ^ 15 →
      exec (.jr f) s = nextWith s (put (goto r (rg r (fieldN w 21 17)).toNat))) ∧
    (wop w = 0x1A → fieldN w 21 15 = 0 →
      exec (.call f) s = nextWith s (put (goto (wg r 15 (x.issuedPc.setWidth 32 + 1)) t))) ∧
    (∀ b, wop w = 0x1B → fieldN w 17 15 = 0 → condHolds (fieldN w 21 18) r.sr = some b →
      exec (.bcc f) s = nextWith s (put (if b then goto r t else r))) ∧
    (wop w = 0x1C → fieldN w 16 15 = 0 →
      let v := rg r (fieldN w 21 17) - 1
      exec (.dbnz f) s = nextWith s (put (if v = 0 then wg r (fieldN w 21 17) v else goto (wg r (fieldN w 21 17) v) t))) ∧
    (wop w = 0x1D → fieldN w 21 15 = 0 →
      let r' := { r with iter := r.iter + 1, rbase := BitVec.ofNat 4 (r.rbase.toNat + stride r) }
      exec (.brc f) s = nextWith s (put
        (if ((r.iter + 1).toNat : Int) < r.trip.toNat + r.depth.toNat - 1 then goto r' t else r'))) ∧
    (wop w = 0x1E → (bit w 18 = true → fieldN w 10 0 = 0) →
      exec (.lpset f) s = nextWith s (put { r with
        trip := if bit w 18 then (rg r (fieldN w 15 11)).setWidth 16 else BitVec.ofNat 16 (fieldN w 15 0),
        depth := BitVec.ofNat 4 (fieldN w 21 19 + 1), iter := 0, rbase := 0,
        rstep := BitVec.ofNat 2 (fieldN w 17 16) }))

/-- Issue (R196, R224, R225). That the stall counter counts one for each attempt is the model's choice (log 20), and so is
what an entry captures (log 33). -/
def Obligations.TensorIssue : Prop :=
  ∀ (s : State) (f : FormeId) (w : Word) (d : Device), asleep s.dev = false → Issues s.dev f.1 w d →
    let x := forme d f.1
    tensorWordOk w = true → maskOk w x.regs = true → (tgtPm w = true ∨ tgtCore w = false) →
    let ps := maskPresses f.1 (issueMask w x.regs)
    let e := captureEntry w x (issueMask w x.regs)
    let queued := modForme f.1 (fun x => { advance x with
        pend := if wop w = 0x2D ∧ fieldN w 15 11 ≠ 0 then x.pend ++ [e.dest] else x.pend })
      (ps.foldl (fun d p => modPress p (fun y => { y with queue := y.queue ++ [e] }) d) d)
    let stalled := modForme f.1 (fun x => { x with issueStall := satAdd x.issueStall 1 }) d
    let all (out : Host.Outcome State Fault Refusal) : Prop :=
      (wop w = 0x20 → exec (.pass f) s = out) ∧ (wop w = 0x21 → exec (.feed f) s = out) ∧
      (wop w = 0x22 → exec (.drain f) s = out) ∧ (wop w = 0x23 → exec (.ink f) s = out) ∧
      (wop w = 0x24 → exec (.justify f) s = out) ∧ (wop w = 0x25 → exec (.xfer f) s = out) ∧
      (wop w = 0x26 → exec (.link f) s = out) ∧ (wop w = 0x28 → exec (.waitpt f) s = out) ∧
      (wop w = 0x29 → exec (.signal f) s = out) ∧ (wop w = 0x2A → exec (.wait f) s = out) ∧
      (wop w = 0x2B → exec (.fence f) s = out) ∧ (wop w = 0x2C → exec (.pwr f) s = out) ∧
      (wop w = 0x2D → exec (.prd f) s = out)
    (ps.any (fun p => !bit x.pmask (p % 8)) = true →
      all (nextWith s (faultIssue f.1 w (issueMask w x.regs) codePressNotHeld d))) ∧
    (ps.any (fun p => !bit x.pmask (p % 8)) = false → ps.find? (fenced d) = none →
      (ps.any (pressWaits d) = true → all (nextWith s stalled)) ∧
      (ps.any (pressWaits d) = false → all (nextWith s queued)))

/-- R199, R238 to R240 on the core. That a counter which would overflow keeps its value is the model's choice (log 32). -/
def Obligations.CoreSynchronisation : Prop :=
  ∀ (s : State) (f : FormeId) (w : Word) (d : Device), asleep s.dev = false → Issues s.dev f.1 w d →
    let x := forme d f.1
    tensorWordOk w = true → tgtPm w = false → tgtCore w = true →
    let c := fieldN w 15 10
    let n := fieldN w 7 0
    let held := (vgetN 0 x.tokens c).toNat
    let tokens (v : Nat) : Device :=
      modForme f.1 (fun _ => advance { x with tokens := vmodN x.tokens c fun _ => BitVec.ofNat 16 v }) d
    (wop w = 0x28 →
      exec (.waitpt f) s = nextWith s
        (if pointReached d (x.task.getD 0xFFF) (rg x.regs (fieldN w 3 0)).toNat then modForme f.1 advance d else d)) ∧
    (wop w = 0x29 → held + n < 65536 → exec (.signal f) s = nextWith s (tokens (held + n))) ∧
    (wop w = 0x29 → 65536 ≤ held + n → exec (.signal f) s = nextWith s (faultIssue f.1 w 0 codeTokenOverflow d)) ∧
    (wop w = 0x2A → n ≤ held → exec (.wait f) s = nextWith s (tokens (held - n))) ∧
    (wop w = 0x2A → held < n → exec (.wait f) s = nextWith s d) ∧
    (wop w = 0x2B → exec (.fence f) s = nextWith s (if formeQuiet d f.1 then modForme f.1 advance d else d))

/-- R176 to R178. Model's choices: the loader waits while a bus replays (log 99); the code of a loader read that fails (log 23);
every register zero at load (log 22); a paused or aborting task is not ended so (log 24). -/
def Obligations.ProgramsBeginAndEnd : Prop :=
  ∀ (s : State) (f : FormeId), asleep s.dev = false →
    let x := forme s.dev f.1
    (∀ t, x.task.bind (ticketOf s.dev) = some t →
      (busesIssue s.dev = false → exec (.programLoaded f) s = nextWith s s.dev) ∧
      (busesIssue s.dev = true → x.state = .loading → t.resume = false → ∀ d1 tab, readLoad f.1 t.program 128 s.dev = (d1, some tab) →
        let a := leAt tab (8 * (eArg (getEntry d1 x.entry) % 16)) 8
        (tally tab ≠ t.entryTally ∨ a = 0 ∨ a % 64 ≠ 0 →
          exec (.programLoaded f) s = nextWith s (faultForme f.1 codeBadImage d1)) ∧
        (tally tab = t.entryTally → a ≠ 0 → a % 64 = 0 → ∀ d2 h, readLoad f.1 a 64 d1 = (d2, some h) →
          imageHeaderOk h = true → ∀ d3 b,
          readLoad f.1 (a + 64) (leAt h 4 4 + leAt h 8 4 + leAt h 12 4) d2 = (d3, some b) →
          (tally (h.take 24 ++ b)).toNat = leAt h 24 8 →
          let im := leAt h 4 4
          let xb := leAt h 8 4
          exec (.programLoaded f) s = nextWith s (modForme f.1 (fun x =>
            { x with imem := memOf (b.take im), xmem := memOf ((b.drop im).take xb),
                     ymem := memOf ((b.drop (im + xb)).take (leAt h 12 4)),
                     regs := { pc := BitVec.ofNat 15 (leAt h 16 4) }, tokens := Vector.replicate 64 0, pend := [],
                     state := .running }) d3))) ∧
      (x.state = .finishing → formeQuiet s.dev f.1 = true → t.pause = none → t.abort = none →
        let d1 := modTicket t.slot (fun t => { t with running := t.running - 1 })
          (freeEntry x.entry (freeForme s.dev f.1))
        ∀ u, ticketOf d1 t.slot = some u →
        exec (.compositorIdle f) s = nextWith s
          (if u.running = 0 ∧ u.toStart = 0 then completeTicket u d1 else d1))) ∧
    (linkBusy s.dev = false → exec (.fmCoClearCounts f) s = nextWith s (modForme f.1 (fun x =>
      { x with instrs := 0, issueStall := 0, interlock := 0 }) s.dev))

/-- R189, R191, R201, R208. The interlock counter counts one for each attempt, the model's choice (log 20); the fetched word
decides which row acts (log 21). -/
def Obligations.IssueConditions : Prop :=
  ∀ (s : State) (f : FormeId), asleep s.dev = false →
    let w := (fetchWord s.dev f.1).1
    let d := memEvents (.imem f.1) 1 none (fetchWord s.dev f.1).2 s.dev
    let all (out : Host.Outcome State Fault Refusal) : Prop :=
      (wop w = 0x01 → exec (.nop f) s = out) ∧ (wop w = 0x06 → exec (.movi f) s = out) ∧
      (wop w = 0x05 → exec (.addi f) s = out)
    (mayIssue s.dev f.1 = false → all (nextWith s s.dev)) ∧
    (mayIssue s.dev f.1 = true → firstBad (fetchWord s.dev f.1).2 = none →
      (wordValid w = false → all (nextWith s (faultIssue f.1 w 0 codeIllegal d))) ∧
      (wordValid w = true → qualOn w (forme d f.1).regs = false → all (nextWith s (modForme f.1 advance d))) ∧
      (wordValid w = true → qualOn w (forme d f.1).regs = true → interlocked (forme d f.1) w = true →
        all (nextWith s (modForme f.1 (fun x => { x with interlock := satAdd x.interlock 1 }) d))))
/-- PASS_DISPATCH, PRELOAD_DONE, PASS_FEED_START, PASS_SETTLE on their own paths. Model's choices: the stall counters count
one for each attempt (log 20); what each row of a pass does (log 25); a faulting pass counts no feed cycle (log 88). -/
def Obligations.PassesRun : Prop :=
  ∀ (s : State) (p : PressId), asleep s.dev = false →
    let d := modPress p.1 (fun x => { x with pressWait := false }) s.dev
    let x := press s.dev p.1
    (x.chaseSide = false →
      (∀ e k m n a b img d' f g, headOf s.dev p.1 (fun o => o = 0x20 || o = 0x21) = some e →
        let pl := platenOf e
        let feed : Bool := wop e.word = 0x21
        stageRoom (getPlaten x pl) = true → shapeReg (nth 0 e.vals 0) = some (k, m, n) →
        passSources p.1 e = .ok (a, b) → passImage p.1 e = .ok img → (feed = true → feedMapped s.dev (feedOf p.1) = true) →
        let r := passFormats (press d p.1).block p.1 k feed (a, b) (galleyRd d p.1)
        putGalley p.1 1 e (some pl) r.1 d = (d', true) → r.2 = .ok f → passG k (f.1 ++ f.2) = .ok g →
        keepInvalid x e = false →
        exec (.passDispatch p) s = nextWith s (enterPass p.1
          { entry := e, seq := x.seq, bank := bankOf e, pre := fieldN e.word 13 12, k := k, m := m, n := n, a := a,
            b := b, feed := feed, paddr := img, int := !feed && passInt f.1 f.2, g := g, fmtsA := f.1, fmtsB := f.2 }
          d')) ∧
      (∀ pl o d', loadingPass (getPlaten x pl) = some o →
        let r := rdBytes (press d p.1).block 16 (galleyRd d p.1) o.paddr 33088
        putGalley p.1 2 o.entry (some pl) r.1 d = (d', true) → imageKind r.2 ≤ 1 →
        exec (.preloadDone p pl) s = nextWith s (preloads p.1 (modPlaten p.1 pl (fun y =>
          { setBank y o.bank (imageBank r.2 .ready) with
              passes := modWhere (fun q => decide (q.seq = o.seq)) (fun q => { q with phase := .ready })
                (setBank y o.bank (imageBank r.2 .ready)).passes }) d'))) ∧
      (∀ pl o d' y' o', nextPass (getPlaten x pl) = some o → begins x = true → domainOn s.dev p.1 = true →
        taskLives s.dev o.entry.slot = true → o.phase = .ready → o.feed = false →
        let d1 := modPress p.1 (fun x => { x with pressWait := false })
          (if pathBusy x then countFeedGalley p.1 s.dev else s.dev)
        let y := getPlaten (press d1 p.1) pl
        kindOk y o = true →
        let ra := readRuns (press d1 p.1).block (p.1 % 8) 256 o.k o.a (galleyRd d1 p.1) o.fmtsA
        let rb := readRuns (press d1 p.1).block (p.1 % 8) 32 o.k o.b ra.1 o.fmtsB
        putGalley p.1 2 o.entry (some pl) rb.1 d1 = (d', true) → feedGalley y o ra.2 rb.2 = .ok (y', o') →
        exec (.passFeedStart p pl) s = nextWith s (modPlaten p.1 pl (fun _ => putFed y' o') d'))) ∧
    (∀ pl, (getPlaten x pl).passes.any (fun o => o.feed && o.phase = .feeding) = true →
      exec (.passFeedStart p pl) s = nextWith s (countFeedWait p.1 s.dev)) ∧
    (∀ pl o, settlingPass (getPlaten x pl) = some o →
      exec (.passSettle p pl) s = nextWith s (preloads p.1 (modPlaten p.1 pl (settlePass o) s.dev)))

/-- DRAIN_DISPATCH, DRAIN_START, DRAIN_DONE on their own paths. Model's choices: the open limit is judged at dispatch, and a
tile keeps the format and the stride of the DRAIN that opened it (log 102); what each row does (log 25). -/
def Obligations.DrainsRun : Prop :=
  ∀ (s : State) (p : PressId), asleep s.dev = false →
    let d := modPress p.1 (fun x => { x with pressWait := false }) s.dev
    let x := press s.dev p.1
    (∀ e o l, headOf s.dev p.1 (fun o => o = 0x22) = some e → (getPlaten x (platenOf e)).drain = none →
      drainCheck s.dev p.1 e = .ok o → drainInvalid x o = false →
      (o.save = true → exec (.drainDispatch p) s = nextWith s (enterDrain p.1 o x.opens s.dev)) ∧
      (o.save = false → openTile s.dev p.1 o = some l →
        exec (.drainDispatch p) s = nextWith s (enterDrain p.1 o l s.dev))) ∧
    (∀ pl o, (getPlaten x pl).drain = some o → x.chaseSide = false →
      (o.started = false → earlierPass (getPlaten x pl) o.bank o.seq = false → pathTurn x o.seq = true →
        domainOn s.dev p.1 = true →
        let bank := getBank (getPlaten (press d p.1) pl) o.bank
        (o.save = true → ∀ d', putGalley p.1 2 o.entry (some pl)
            (rdWrite (press d p.1).block 16 (galleyRd d p.1) o.addr (imageBytes bank (b2n bank.int))) d = (d', true) →
          exec (.drainStart p pl) s = nextWith s (drainBegun p.1 pl o d')) ∧
        (o.save = false → unitFree x = true →
          let rb := drainBias (press d p.1).block o (galleyRd d p.1)
          let out := drainConvert bank o (taskSeed d o.entry.slot).1 (taskSeed d o.entry.slot).2 rb.2
          let r := drainHeader (press d p.1).block (press d p.1) o out.counts rb.1
          let rn := drainWrite (press d p.1).block o out.cells r
          let counted := drainCounted bank o (taskSeed d o.entry.slot).1 (taskSeed d o.entry.slot).2 rb.2 out rn
          (rdFailed rn.1 = false → counted = out.counts) ∧
          (out.fault = none → ∀ d', putGalley p.1 2 o.entry (some pl) rn.1
              (drainCounts p.1 counted (drainOpens p.1 o out.counts r d)) = (d', true) →
            exec (.drainStart p pl) s = nextWith s (drainBegun p.1 pl o d')))) ∧
      (o.started = true →
        let q := if o.close then x.opens.find? (sameTile o.addr) else none
        ∀ d1, putGalley p.1 2 o.entry (some pl) (rdFlush (galleyRd d p.1)) d = (d1, true) →
        (q = none → exec (.drainDone p pl) s = nextWith s (drainLeave p.1 pl o d1)) ∧
        (∀ t d2, q = some t → putGalley p.1 2 o.entry (some pl)
            (rdWrite x.block 16 (galleyRd d1 p.1) o.addr (destHeader t false true)) d1 = (d2, true) →
          exec (.drainDone p pl) s = nextWith s (drainLeave p.1 pl o
            (modPress p.1 (fun x => { x with opens := x.opens.eraseP (sameTile o.addr) }) d2)))))

/-- INK_DISPATCH, INK_DONE, JUSTIFY_DISPATCH, JUSTIFY_DONE on their own paths. Model's choices (log 102): a JUSTIFY reads and
converts its rows at dispatch; the fields of its opening header; the order of the checks. What INK_DISPATCH computes and
INK_DONE applies is log 25's. -/
def Obligations.InkAndJustify : Prop :=
  ∀ (s : State) (p : PressId), asleep s.dev = false →
    let d := modPress p.1 (fun x => { x with pressWait := false }) s.dev
    let x := press s.dev p.1
    (∀ e k, headOf s.dev p.1 (fun o => o = 0x23) = some e → unitTakes x = true → inkPlan s.dev p.1 e = .ok k →
      let d0 := if inkGalley k then d else s.dev
      (inkGalley k = true → x.chaseSide = false) →
      let ra := inkSource (press d0 p.1).block (press d0 p.1).ink e.vals (galleyRd d0 p.1) k.ctl.a k.vecA
      let rb := inkSource (press d0 p.1).block (press d0 p.1).ink e.vals ra.1 k.ctl.b k.vecB
      let rc := inkSource (press d0 p.1).block (press d0 p.1).ink e.vals rb.1 k.ctl.c k.vecC
      ∀ d', putGalley p.1 2 e none rc.1 d0 = (d', true) →
      (k.iop = 6 → exec (.inkDispatch p) s =
        nextWith s (takeUnit p.1 ⟨e, [], some (k.ctl.d, inkCompare (press d0 p.1).ink k ra.2 rb.2), []⟩ false d')) ∧
      (k.iop ≠ 6 →
        let o := inkCompute d' p.1 e k ra.2 rb.2 rc.2
        o.fault = none → exec (.inkDispatch p) s =
          nextWith s (takeUnit p.1 (inkWrites e k o) (decide (k.mode.rnd = .sr))
            (modPress p.1 (fun x => { x with fmt := addCounts x.fmt o.counts }) d')))) ∧
    (∀ o, x.inkOp = some o →
      (o.mem = [] → exec (.inkDone p) s =
        nextWith s (modPress p.1 (fun x => { x with ink := inkApply o x.ink, inkOp := none }) s.dev)) ∧
      (o.mem ≠ [] → x.chaseSide = false → ∀ d', putGalley p.1 2 o.entry none
          (rdFlush (o.mem.foldl (fun r w => rdWrite (press d p.1).block 16 r w.1 w.2) (galleyRd d p.1))) d = (d', true) →
        exec (.inkDone p) s =
          nextWith s (modPress p.1 (fun x => { x with ink := inkApply o x.ink, inkOp := none }) d'))) ∧
    (x.chaseSide = false →
      (∀ e o o' l d', headOf s.dev p.1 (fun o => o = 0x24) = some e → unitTakes x = true →
        jusCheck s.dev p.1 e = .ok o →
        putGalley p.1 1 e none (jusHeader (press d p.1).block p.1 o (galleyRd d p.1)).1 d = (d', true) →
        (jusHeader (press d p.1).block p.1 o (galleyRd d p.1)).2 = .ok o' → openSlug d' p.1 o' = some l →
        let src := jusSource (press d' p.1).block p.1 o' (galleyRd d' p.1)
        ∀ d2, putGalley p.1 2 e none src.1 d' = (d2, true) →
        let seed := (taskSeed d' e.slot).1
        let step := (taskSeed d' e.slot).2
        let md : ConvMode := ⟨if o'.sr then .sr else .rne, .sat, o'.squash, true⟩
        let conv (f : Fmt) := jusConvert f md seed step o'.quoin o'.slug o'.m src.2
        let trial := conv o'.fmt
        let promoted := jusExceeds o'.van o'.sat trial && decide (o'.fb ≠ o'.fmt)
        let f := if promoted then o'.fb else o'.fmt
        let out := if promoted then conv o'.fb else trial
        (trial.fault = none → out.fault = none →
          let o2 := { o' with
            image := slugImage p.1 o' step trial out f promoted
            promoted := promoted
            noughts := ((out.leads.take o'.m).filter (· = 0x80#8)).length
            counts := out.counts }
          exec (.justifyDispatch p) s =
            nextWith s (jusBegin p.1 o2 (popHead p.1 (modPress p.1 (fun x => { x with jusOp := some o2, opens := l }) d2)))) ∧
        (∀ c, trial.fault = some c →
          exec (.justifyDispatch p) s = nextWith s (faultEntry p.1 2 e c none d2)))) ∧
    (∀ o, x.jusOp = some o →
      (o.inCase = true → exec (.justifyDone p) s =
        nextWith s (slugToCase p.1 o o.image (modPress p.1 (jusCounts o)) s.dev)) ∧
      (o.inCase = false → x.chaseSide = false → ∀ d', putGalley p.1 2 o.entry none
          (rdFlush (rdWrite (press d p.1).block 16 (galleyRd d p.1) o.addr o.image)) d = (d', true) →
        exec (.justifyDone p) s = nextWith s (modPress p.1 (jusCounts o) d')))

/-- The synchronising and register instructions of a queue. SCHEDULE_WAIT counts one for each attempt (log 20), and PRD reads
its register at dispatch (log 31): the model's choices. -/
def Obligations.QueueInstructions : Prop :=
  ∀ (s : State) (p : PressId) (e : QEntry), asleep s.dev = false →
    let d := s.dev
    let f := p.1 / 8
    let c := fieldN e.word 15 10
    let n := fieldN e.word 7 0
    let held := (vgetN 0 (forme d f).tokens c).toNat
    let waits := modPress p.1 (fun x =>
      { x with stalls := { x.stalls with scheduleWait := satAdd x.stalls.scheduleWait 1 } }) d
    let tokens (v : Nat) (d : Device) : Device :=
      modForme f (fun _ => { forme d f with tokens := vmodN (forme d f).tokens c fun _ => BitVec.ofNat 16 v }) d
    (headOf d p.1 (fun o => o = 0x28) = some e →
      exec (.waitptDispatch p) s = nextWith s (if pointReached d e.slot (nth 0 e.vals 0).toNat then popHead p.1 d else waits)) ∧
    (headOf d p.1 (fun o => o = 0x2A) = some e →
      exec (.waitDispatch p) s = nextWith s (if n ≤ held then popHead p.1 (tokens (held - n) d) else waits)) ∧
    (headOf d p.1 (fun o => o = 0x29) = some e →
      (queueDrained d p.1 = false → exec (.signalDispatch p) s = nextWith s d) ∧
      (queueDrained d p.1 = true → held + n < 65536 →
        exec (.signalDispatch p) s = nextWith s (tokens (held + n) (popHead p.1 d)))) ∧
    (headOf d p.1 (fun o => o = 0x2B) = some e →
      exec (.fenceDispatch p) s = nextWith s (if queueDrained d p.1 then popHead p.1 d else d)) ∧
    (headOf d p.1 (fun o => o = 0x2C) = some e →
      (∀ g, pwrWrite (regOffset e) (nth 0 e.vals 0) = some g →
        exec (.pwrDispatch p) s = nextWith s (modPress p.1 g (popHead p.1 d))) ∧
      (pwrWrite (regOffset e) (nth 0 e.vals 0) = none →
        exec (.pwrDispatch p) s = nextWith s (faultEntry p.1 1 e codePressReg none d))) ∧
    (headOf d p.1 (fun o => o = 0x2D) = some e →
      (fieldN e.word 15 11 ≠ 0 → exec (.prdDispatch p) s = nextWith s (modForme f (fun x =>
        { x with regs := { x.regs with g := vset x.regs.g e.dest (pressRead d p.1 (regOffset e)) },
                 pend := x.pend.erase e.dest }) (popHead p.1 d))) ∧
      (fieldN e.word 15 11 = 0 → exec (.prdDispatch p) s = nextWith s (modForme f id (popHead p.1 d))))

/-- Model's choices: what a pause completes (logs 28, 98), and PREEMPT counts one for each attempt (log 20). PREEMPT_REQUEST, PREEMPTED, and the five counter clears of a press block. -/
def Obligations.PreemptionAndClears : Prop :=
  ∀ (s : State) (p : PressId), asleep s.dev = false →
    let d := s.dev
    let x := press d p.1
    (exec (.preemptRequest p) s = nextWith s
      (if x.preempt = .none then modPress p.1 (fun x => { x with preempt := preemptKind d p.1 }) d else d)) ∧
    (x.preempt = .none → exec (.preempted p) s = nextWith s d) ∧
    (x.preempt ≠ .none →
      let ready : Bool := match x.preempt with
        | .pausing => platenIdle x.plA && platenIdle x.plB
        | .requested => preemptReady x.plA && preemptReady x.plB
        | _ => false
      (ready = true →
        exec (.preempted p) s =
          nextWith s (preemptAbort p.1 (modPress p.1 (fun x => { x with preempt := .preempted }) d))) ∧
      (ready = false →
        exec (.preempted p) s = nextWith s (modPress p.1 (fun x =>
          { x with stalls := { x.stalls with preempt := satAdd x.stalls.preempt 1 } }) d))) ∧
    (linkBusy d = false → fenced d p.1 = false →
      exec (.fmtClearCounts p) s = nextWith s (modPress p.1 (fun x => { x with fmt := fmtClear x.fmt }) d) ∧
      (∀ pl, exec (.plClearCounts p pl) s =
        nextWith s (modPress p.1 (fun x => setPlaten x pl (plClear (getPlaten x pl))) d)) ∧
      exec (.inClearCounts p) s =
        nextWith s (modPress p.1 (fun x => { x with ink := { x.ink with ops := 0 } }) d) ∧
      exec (.juClearCounts p) s =
        nextWith s (modPress p.1 (fun x => { x with ink := { x.ink with slugs := 0, promoted := 0, zeroRows := 0 } }) d) ∧
      exec (.psStallClearCounts p) s = nextWith s (modPress p.1 (fun x => { x with stalls := {} }) d)) ∧
    (linkBusy d = false → fenced d p.1 = true →
      exec (.fmtClearCounts p) s = nextWith s (logPress p.1 0x0A01 false d) ∧
      exec (.psStallClearCounts p) s = nextWith s (logPress p.1 0x0A01 false d))
/-- XFER_DISPATCH, POOL_OPEN, POOL_RELEASE, CHUNK_REQUEST on their own paths. RESERVE_WAIT and SCHEDULE_WAIT count one for each
attempt, the model's choice (log 20); when a chunk may be asked for is log 41's reading. -/
def Obligations.XferAndPools : Prop :=
  ∀ (s : State) (p : PressId), asleep s.dev = false →
    let d := s.dev
    (∀ e, headOf d p.1 (fun o => o = 0x25) = some e →
      let b := nth 0 e.desc 0
      let x := streamDesc e.pm p.1 b
      (dKind b = 8 → streamWf x = true → (press d p.1).transfers.length + (press d p.1).ftransfers.length < 8 →
        (x.src = p.1 ∨ (x.mcast = false ∧ x.dst = p.1) ∨ (x.mcast = true ∧ p.1 ∈ mcastSet x) → queueDrained d p.1 = true) →
        (streamChecks d p.1 e.slot x = none → exec (.xferDispatch p) s = nextWith s (popHead p.1
          (modPress p.1 (fun y => { y with transfers := y.transfers ++ [makeTransfer d p.1 e x] }) d))) ∧
        (∀ code ep, streamChecks d p.1 e.slot x = some (code, ep) → exec (.xferDispatch p) s =
          nextWith s (faultStream p.1 1 e x.stream code (unitPress p.1)
            { peer := ep, pool := if x.pool then x.daddr % 256 else 0xFF } d))) ∧
      (dKind b = 9 → reservedZero b kind9Fields = true → ∀ ep k, poolTarget p.1 e.pm b = some (ep, k) →
        let q := getPool d (epOf ep) k
        (fieldN b 251 250 = 0 →
          let base := fieldN b 235 212
          let size := fieldN b 211 188
          base % 4096 = 0 → size % 4096 = 0 → 0x1000 ≤ size → size ≤ 0x800000 → base + size ≤ epBytes d (epOf ep) →
          (q.isOpen = true → q.free = q.size) →
          exec (.poolOpen p) s = nextWith s (poolDone p.1 e (modPool (epOf ep) k (fun _ =>
            { isOpen := true, head := base, tail := base, free := size, base := base, size := size,
              lsig := bit b 187, ltok := fieldN b 186 181 }) d))) ∧
        (fieldN b 251 250 = 1 →
          let n := fieldN b 180 157
          n % 64 = 0 → n ≤ q.committed →
          exec (.poolRelease p) s = nextWith s (poolDone p.1 e (modPool (epOf ep) k (fun q =>
            { q with head := poolNext q q.head n, free := q.free + n, committed := q.committed - n }) d))))) ∧
    (∀ i t, transferAt d p.1 i = some t →
      let d1 := if t.chunks.any (chunkWaits d p.1 t) then countReserveWait p.1 d else d
      (t.len ≤ t.asked ∨ 4 ≤ t.chunks.length → exec (.chunkRequest p i) s = nextWith s d1) ∧
      (t.asked < t.len → t.chunks.length < 4 →
        (chunkWindow d1 t t.asked = false → exec (.chunkRequest p i) s = nextWith s (scheduleWait p.1 d1)) ∧
        (chunkWindow d1 t t.asked = true →
          let n := chunkLen t t.asked
          let tag := freshTag (press d1 p.1)
          let c : TxChunk := { num := t.nextNum, tag := tag, off := t.asked, len := n, asked := d1.chase.asks,
                               grantBy := d1.now + max 1 d1.chase.grantDeadline.toNat }
          poolBad d1 t n = false → chunkRetired d1 t t.asked n = false → chunkRoutes d1 p.1 t c = true →
          exec (.chunkRequest p i) s = nextWith s (askChunk p.1 t c (modTransfer p.1 i (fun t =>
            { t with asked := t.asked + n, nextNum := t.nextNum + 1, chunks := t.chunks ++ [c] })
            (modPress p.1 (fun y => { y with tagNext := tag + 1 })
              (modChase (fun x => { x with asks := x.asks + 1 }) d1)))))))

/-- CHASE_RESERVE, CHASE_GRANT, CHASE_READ, CHASE_DATA, CHASE_END on their own paths. Model's choices: the messages in flight are
a list of which a row names one (log 39); what tells a chunk apart (log 40); where requests of the host are cut (log 92). -/
def Obligations.MessagesArrive : Prop :=
  ∀ (s : State) (n : Nat) (m : ChaseMsg), asleep s.dev = false →
    let d := takeFlight n s.dev
    (msgAt s.dev n 0 = some m →
      ((∀ p, epOf m.dst = .galley p → fenced s.dev p = false) →
        exec (.chaseReserve n .ok) s = nextWith s (modChase (fun x => { x with rx := x.rx ++
          [{ dst := m.dst, src := m.src, tag := m.tag, len := m.len, addr := m.addr, pool := m.pool,
             stream := m.stream, slot := m.slot, init := m.init, forron := 0xB0 ≤ m.init }] }) d)) ∧
      (∀ p, epOf m.dst = .galley p → fenced s.dev p = true →
        exec (.chaseReserve n .ok) s = nextWith s (fencedRequest p m d)) ∧
      exec (.chaseReserve n .parity) s = nextWith s (logChase (epUnitAddr (epOf m.dst)) 0x0612 m d) ∧
      (∀ r, exec (.chaseReserve n (.misrouted r)) s = nextWith s (logChase (epUnitAddr (epOf r.1)) 0x0613 m d))) ∧
    (msgAt s.dev n 1 = some m → m.dst < 0xB0 → ∀ i t c, findTx d m.dst m.tag = some (i, t, c) →
      m.src ∈ chunkRcvrs d t c → m.src ∉ c.grants →
      let c' := { c with grants := c.grants ++ [m.src] }
      let d' := modChunk m.dst i c.tag (fun c => { c with grants := c.grants ++ [m.src] }) d
      ∀ t', transferAt d' m.dst i = some t' →
        (chunkWaits d' m.dst t' c' = true → exec (.chaseGrant n .ok) s = nextWith s d') ∧
        (∀ d2 v, t'.push = true → c.sent = false → chunkWaits d' m.dst t' c' = false → sourceReady d' t'.src (t'.saddr + c.off) c.len = true →
          readForSend 2 m.dst t'.entry t'.stream t'.src (t'.saddr + c.off) c.len d' = (d2, some v) →
          exec (.chaseGrant n .ok) s = nextWith s (
            let d3 := modChunk m.dst i c.tag (fun c => { c with sent := true, tally := tally v }) d2
            sendFlits m.dst (chunkRcvrs d3 t' c') c.tag t'.stream t'.entry.slot m.dst v d3))) ∧
    (msgAt s.dev n 2 = some m → readReady s.dev m.dst m.addr m.len = true → readTurn s.dev m = true →
      (∀ j t c d' v, (∃ f, epOf m.dst = .case f ∨ epOf m.dst = .comp f ∨ epOf m.dst = .hbm f
          ∨ (epOf m.dst = .galley f ∧ fenced s.dev f = false)) →
        findTx d m.init m.tag = some (j, t, c) →
        readForSend 2 m.init t.entry m.stream m.dst m.addr m.len
          (noteService (epOf m.dst) (chunkKey d m.init m.tag) d) = (d', some v) →
        exec (.chaseRead n .ok) s = nextWith s (sendFlits m.dst [m.rcv] m.tag m.stream m.slot m.init v d')) ∧
      (∀ r ch, (epOf m.dst = .region r ∧ ch = 0 ∨ epOf m.dst = .quad r ∧ ch = 1) →
        exec (.chaseRead n .ok) s = nextWith s (modPort r (fun x => { x with reads := x.reads ++
          [{ origin := .chase m.init m.tag, chan := ch, stream := m.stream, addr := m.addr, units := m.len / 64 }] }) d)) ∧
      (epOf m.dst = .host → ∀ j t c, findTx d m.init m.tag = some (j, t, c) →
        exec (.chaseRead n .ok) s = nextWith s ((hostRequests (t.host + c.off) m.len).foldl
          (fun d r => emit (.hostRead r.1 r.2) d)
          (modChase (fun x => { x with hostPulls := x.hostPulls ++ [m] })
            (noteService .host (chunkKey d m.init m.tag) d))))) ∧
    (msgAt s.dev n 2 = some m → readReady s.dev m.dst m.addr m.len = false ∨ readTurn s.dev m = false →
      exec (.chaseRead n .ok) s = nextWith s s.dev) ∧
    (∀ c, rxOf d m = some c → c.granted = true → c.committed = false →
      (msgAt s.dev n 3 = some m → exec (.chaseData n .ok) s =
        nextWith s (modRx c (fun c => { c with flits := smapPut c.flits m.flit m.data }) d)) ∧
      (msgAt s.dev n 4 = some m → exec (.chaseEnd n .ok) s =
        nextWith s (modRx c (fun c => { c with tally := some m.tally }) d)))

/-- Model's choices: the tail of a pool after a cancelled chunk (log 103), where requests of the host are cut (log 92), and that
a chunk waits while its stack's buses replay (log 99). CHASE_ACK, CHASE_CANCEL, CHUNK_COMMIT on their own paths. -/
def Obligations.ChunksComplete : Prop :=
  ∀ (s : State) (n : Nat), asleep s.dev = false →
    (∀ m, let d := takeFlight n s.dev
      (msgAt s.dev n 5 = some m → m.dst < 0xB0 → ∀ i t c, findTx d m.dst m.tag = some (i, t, c) →
        m.src ∈ chunkRcvrs d t c → m.src ∉ c.acks → c.sent = true →
        (m.good = false → exec (.chaseAck n .ok) s = nextWith s (faultTally m.dst t c m.src d)) ∧
        (m.good = true →
          let acks := c.acks ++ [m.src]
          let d' := modChunk m.dst i c.tag (fun c => { c with acks := acks }) d
          exec (.chaseAck n .ok) s =
            nextWith s (if (chunkRcvrs d' t c).all acks.contains then chunkDone m.dst i c c.tally d' else d'))) ∧
      (msgAt s.dev n 6 = some m →
        let d' := match epPort (epOf m.dst) with
          | some (r, _) => cancelPort r m d
          | none => d
        exec (.chaseCancel n .ok) s = nextWith s (match rxOf d' m with
          | some c => freeRx c d'
          | none => d'))) ∧
    (∀ c v, s.dev.chase.rx[n]? = some c → commitReady c = true → rxBytes c = some v →
      let d := s.dev
      (((∃ f, epOf c.dst = .case f ∨ epOf c.dst = .comp f ∨ epOf c.dst = .galley f ∧ (press d f).chaseSide = true
          ∨ epOf c.dst = .hbm f ∧ (stack d f).state = .ready ∧ hbmWaits d c.addr c.len = false)) →
        (∀ av ∈ commitPieces c v, ∃ ia, epMem d (epOf c.dst) av.1 = some ia ∧
          memBlocked d ia.1 ia.2 av.2.length = false) →
        exec (.chunkCommit n) s = nextWith s (committed c (tally v) ((commitPieces c v).foldl (fun d av =>
          match epMem d (epOf c.dst) av.1 with
          | some (id, a) => writeMem id a av.2 (if c.forron then 3 else 2) (some c.stream)
              (some (writerOf d c.slot (if c.forron then 3 else 2) (some c.stream) (rxCtx d c))) d
          | none => d) d))) ∧
      (((∃ f, epOf c.dst = .case f ∨ epOf c.dst = .comp f ∨ epOf c.dst = .galley f ∧ (press d f).chaseSide = true
          ∨ epOf c.dst = .hbm f ∧ (stack d f).state = .ready ∧ hbmWaits d c.addr c.len = false)) →
        ∀ before av after ia, commitPieces c v = before ++ av :: after →
        (∀ x ∈ before, ∃ ia, epMem d (epOf c.dst) x.1 = some ia ∧ memBlocked d ia.1 ia.2 x.2.length = false) →
        epMem d (epOf c.dst) av.1 = some ia → memBlocked d ia.1 ia.2 av.2.length = true →
        exec (.chunkCommit n) s = nextWith s (faultBlocked c.slot ia.1 ia.2 (if c.forron then 3 else 2) (some c.stream)
          (rxCtx d c) (freeRx c d))) ∧
      (∀ r ch, (epOf c.dst = .region r ∧ ch = 0 ∨ epOf c.dst = .quad r ∧ ch = 1) →
        exec (.chunkCommit n) s = nextWith s (modRx c (fun k => { k with handed := true })
          (modPort r (fun x => { x with pushes := x.pushes ++
            [{ origin := .chase c.init c.tag, chan := ch, stream := c.stream, addr := c.addr, data := v }] }) d))) ∧
      (epOf c.dst = .host → d.host.linkUp = true → d.host.busMaster = true →
        ∀ j t x, findTx d c.init c.tag = some (j, t, x) →
        exec (.chunkCommit n) s = nextWith s (committed c (tally v)
          ((hostRequests (t.host + x.off) v.length).foldl (fun d r =>
            emit (.hostWrite r.1 ((v.drop (r.1 - (t.host + x.off))).take r.2)) d) d))))

/-- What could start an access of the press is judged on its stages and its queue's head, the model's choice (log 44).
GALLEY_SIDE_CHANGE, MULTICAST_GRANT_DEADLINE, STREAM_DEADLINE on their own paths. -/
def Obligations.SidesAndDeadlines : Prop :=
  ∀ (s : State) (p : PressId), asleep s.dev = false →
    let d := s.dev
    ((press d p.1).chaseSide = true → (press d p.1).pressWait = true →
      let d' := modPress p.1 (fun x => { x with chaseSide := false, pressWait := false, sideAt := some d.now }) d
      exec (.galleySideChange p) s = nextWith s (if pressAborting d' p.1 then settlePress p.1 d' else d')) ∧
    ((press d p.1).chaseSide = false → chaseWork d p.1 = true → pressAccess d p.1 = false →
      exec (.galleySideChange p) s =
        nextWith s (sendReady p.1 (modPress p.1 (fun x => { x with chaseSide := true, sideAt := some d.now }) (flushGalley p.1 d)))) ∧
    (∀ i t, transferAt d p.1 i = some t →
      (∀ c, t.mcast = true → t.chunks.find? (fun c => chunkWaits d p.1 t c && decide (c.grantBy ≤ d.now)) = some c →
        let miss := t.rcvrs.filter fun r => !c.grants.contains r
        exec (.multicastGrantDeadline p i) s = nextWith s (faultStream p.1 2 t.entry t.stream 0x0610 (unitPress p.1)
          { peer := nth 0 miss 0, state := 1, chunk := c.num, missing := missingBits miss } d)) ∧
      (d.now < t.deadline → exec (.streamDeadline p i) s = nextWith s d) ∧
      (t.deadline ≤ d.now →
        let w := waitState d p.1 t
        let h := holderOf d t w.1
        exec (.streamDeadline p i) s = nextWith s (faultStream p.1 2 t.entry t.stream 0x0601 (unitPress p.1)
          { holder := h.1, holderI := h.2, peer := waitPeer t w.1, pool := t.pool.getD 0xFF,
            state := w.1, chunk := w.2 } d)) ∧
      (∀ c l, t.mcast = true → t.chunks = c :: l →
        waitPeer t 1 = (match t.rcvrs.filter (fun r => !c.grants.contains r) with | r :: _ => r | [] => nth 0 t.rcvrs 0)))
/-- Model's choices: the order in which the queues are served (log 34), and that the records of HBM_REQUEST name no requester
(log 36). HBM_REQUEST, COALESCE_EXPIRE, BUCKET_LEAK, HB_BUCKET_CTRL_WRITE, HBM_HOT, HB_CLEAR_COUNTS on their own paths. -/
def Obligations.StacksServe : Prop :=
  ∀ (s : State) (n : StackId), asleep s.dev = false →
    let d := s.dev
    (∀ r, (stack d n.1).state = .ready → domainOn d (144 + n.1) = true →
      let u := r.unit.toNat
      queueFull d n.1 u r.write.isSome = false →
      let d' := modStack n.1 (fun s => { s with mem := flipUnit s.mem u r.flips }) d
      (unitRetired d' n.1 u = true → exec (.hbmRequest n r) s =
        nextWith s (logPlain (unitStack n.1) 0x0512 (sdDetail d' (.hbm n.1) (64 * u) 0 0xFF 0 0 1 none) d')) ∧
      (unitRetired d' n.1 u = false →
        (∀ v, r.write = some v → exec (.hbmRequest n r) s =
          nextWith s (writeMem (.hbm n.1) (64 * u) (leBytes 64 v.toNat) 0xFF none none d')) ∧
        (r.write = none → ∀ d2 v e,
          readMem (.hbm n.1) (64 * u) 64 0xFF none (noteHbm (.hbm n.1) (64 * u) 64 false 0xFF none d') = (d2, v, e) →
          exec (.hbmRequest n r) s = nextWith s (match e with
            | none => d2
            | some e => logStored (.hbm n.1) 0xFF none e d2)))) ∧
    (∀ r, queueFull d n.1 r.unit.toNat r.write.isSome = true → exec (.hbmRequest n r) s = nextWith s d) ∧
    (∀ u i e, (coalGet d (coalUnit u))[i]? = some e →
      exec (.coalesceExpire u i) s = nextWith s (if e.opened + 409600 ≤ d.now then
        (let d' := coalSet (coalUnit u) (removeAt (coalGet d (coalUnit u)) i) d
         if d'.hbm.bucketOn then d' else coalExpire (coalUnit u) e d') else d)) ∧
    (d.hbm.bucketOn = true → d.hbm.leaked + max 1 d.hbm.leakSheets.toNat ≤ d.sheet →
      exec .bucketLeak s = nextWith s (modHbm (fun h =>
        { h with level := if h.level = 0 then 0 else h.level - 1, leaked := h.leaked + max 1 h.leakSheets.toNat }) d)) ∧
    (linkBusy d = false → ∀ v : Word,
      let w (lv : BitVec 16) (lk : Nat) (d : Device) := modHbm (fun h =>
        { h with bucketOn := bit v 31, leakSheets := field v 27 16, threshold := field v 15 0, leaked := lk, level := lv }) d
      (bit v 31 = true → exec (.hbBucketCtrlWrite v) s =
        nextWith s (w d.hbm.level (if d.hbm.bucketOn then d.hbm.leaked else d.sheet) d)) ∧
      (bit v 31 = false → exec (.hbBucketCtrlWrite v) s =
        nextWith s (if d.hbm.bucketOn then emptyTables (w 0 d.hbm.leaked d) else w d.hbm.level d.hbm.leaked d))) ∧
    (∀ hot, stackPresent d.part n.1 = true → domainOn d (144 + n.1) = true →
      exec (.hbmHot n hot) s = nextWith s (modStack n.1 (fun s => { s with hot := hot }) d)) ∧
    (linkBusy d = false → exec (.hbClearCounts n) s = nextWith s (modStack n.1 (fun s => { s with ce := 0, ue := 0, replays := 0, fatal := 0 }) d))

/-- What a failed write leaves in its unit is a free value (log 35). CMD_PARITY_ALERT, REPLAY_DONE, FILL_DONE on their own paths. -/
def Obligations.ReplaysAndFills : Prop :=
  ∀ (s : State), asleep s.dev = false →
    let d := s.dev
    (∀ (n : StackId) (b : BusId), stackPresent d.part n.1 = true → domainOn d (144 + n.1) = true →
      let x := vgetN {} (stack d n.1).buses b.1
      let k := if x.active = true ∨ (∃ t, x.lastEnd = some t ∧ d.now ≤ t + 48) then x.attempts else 0
      (x.training = false → k < 3 → exec (.cmdParityAlert n b) s =
        nextWith s (logPlain (unitStack n.1) 0x0520 (busDetail b.1 (k + 1))
          (modStack n.1 (fun s => { s with replays := satAdd s.replays 1 })
            (modBus n.1 b.1 (fun x => { x with active := true, attempts := k + 1, lastEnd := none }) d)))) ∧
      (x.training = false → 3 ≤ k → exec (.cmdParityAlert n b) s =
        nextWith s (x.retry.foldl (failCommand n.1 3) (modStack n.1 (fun s => { s with fatal := satAdd s.fatal 1 })
          (modBus n.1 b.1 (fun x =>
            { x with active := false, attempts := 0, lastEnd := none, training := true, retry := [] }) d)))) ∧
      (x.training = true → exec (.replayDone n b) s =
        nextWith s (resumeBus n.1 b.1 (modBus n.1 b.1 (fun x => { x with training := false }) d))) ∧
      (x.training = false → x.active = true → exec (.replayDone n b) s =
        nextWith s (resumeBus n.1 b.1 (modBus n.1 b.1 (fun x => { x with active := false, lastEnd := some d.now }) d)))) ∧
    (∀ n : StackId, (stack d n.1).state = .filling ∨ wakingFill d (144 + n.1) = true →
      let d' := modStack n.1 (fun s => { s with state := .ready }) d
      exec (.fillDone (.stack n)) s =
        nextWith s (releaseFormes (if wakingFill d (144 + n.1) then domainUp (144 + n.1) d' else d'))) ∧
    (∀ f : FormeId, (forme d f.1).filling = true → domainOn d (128 + f.1) = true ∨ wakingFill d (128 + f.1) = true →
      let d' := modForme f.1 (fun x => { x with filling := false, case := {}, imem := {}, xmem := {}, ymem := {} }) d
      exec (.fillDone (.forme f)) s =
        nextWith s (releaseFormes (if wakingFill d (128 + f.1) then domainUp (128 + f.1) d' else d'))) ∧
    (∀ p : PressId, wakingFill d p.1 = true →
      exec (.fillDone (.galley p)) s = nextWith s (domainUp p.1 (modPress p.1 (fun x => { x with galley := {} }) d)))

/-- Model's choices: the right to a quad's mode is judged at the write (log 46), cdr_lock is the operand of its row (log 55),
what lanes hear are operands and a bad block ends a run of TRAIN blocks (log 96). QUAD_MODE_WRITE, PRBS_SELECT, RETRAIN, FL_CLEAR_COUNTS, CLOCK_RECOVERY_LOCK, LANE_LOCK, LANE_LOCK_LOST,
TRAINING_TIMEOUT, TRAIN_BLOCK on their own paths. -/
def Obligations.PortsTrain : Prop :=
  ∀ (s : State) (q : QuadId), asleep s.dev = false →
    let d := s.dev
    let p := portOf d q.1
    (linkBusy d = false → ∀ m : BitVec 2, m ≠ 3 → m ≠ (quad d q.1).mode → quadPresent d.part q.1 = true →
      (m = 1 → bit d.trust.store.enForron q.1 = true) → (m = 2 → bit d.trust.store.enFount q.1 = true) →
      let g (d : Device) :=
        settleDomain (emptyLanes q.1 (modQuad q.1 (fun x => { x with mode := m, held := false }) d)) (152 + q.1)
      let bonds := isBonded d (q.1 / 2 * 2) ∨ isBonded (modQuad q.1 (fun x => { x with mode := m }) d) (q.1 / 2 * 2)
      (bonds → exec (.quadModeWrite q m) s = nextWith s (resetPair q.1 g d)) ∧
      (¬ bonds → exec (.quadModeWrite q m) s = nextWith s (beginTraining q.1 (g (takeDown q.1 d))))) ∧
    (linkBusy d = false → isUpper d q.1 = false →
      (∀ (v : BitVec 2) (heard : List (List Bool)), v ≠ 3 → v ≠ (quad (modQuad q.1 (prbsHeard heard) d) q.1).prbs →
        isUpper (modQuad q.1 (prbsHeard heard) d) q.1 = false → quadPresent d.part q.1 = true →
        exec (.prbsSelect q v heard) s = nextWith s (beginTraining q.1 (setPortState q.1 .down
          (modQuad q.1 (fun x => { x with prbs := v }) (modQuad q.1 (prbsHeard heard) d))))) ∧
      (let d' := modQuad q.1 (fun x => { x with held := false }) d
       exec (.retrain q) s = nextWith s (if mayTrain d' q.1 then enterSignal q.1 d' else d'))) ∧
    (∀ e : Device, (quad e q.1).state = .down → isUpper e q.1 = false →
      ((quad e q.1).prbs ≠ 0 →
        beginTraining q.1 e = if ((portQuads e q.1).all fun k => domainOn e (152 + k)) = true then
          (portQuads e q.1).foldl (fun d k => emit (.prbs k (quad e q.1).prbs)
            (modQuad k (fun x => { x with prbsSync := Vector.replicate 4 0 }) d)) (setPortState q.1 .prbs e)
        else e) ∧
      ((quad e q.1).prbs = 0 → beginTraining q.1 e = if mayTrain e q.1 then enterSignal q.1 e else e)) ∧
    (linkBusy d = false → exec (.flClearCounts q) s = nextWith s (if isUpper d q.1 then d else modQuad q.1 (fun x =>
      { x with prbsErr := Vector.replicate 4 0, fecCorr := 0, fecUncorr := 0, crcErr := 0, retry := 0,
               retrainCount := 0, staleDrop := 0 }) d)) ∧
    ((quad d q.1).mode ≠ 2 → (quad d p).state = .signal →
      exec (.clockRecoveryLock q) s =
        nextWith s (sendMarks p 0 (modQuad p (fun x => { x with frames := 0, stream := [] }) (setPortState p .hunt d))) ∧
      ∀ lanes, lanes ≠ 15 → exec (.clockRecoveryLock q lanes) s = nextWith s d) ∧
    ((quad d q.1).mode = 2 → ∀ lanes, exec (.clockRecoveryLock q lanes) s =
      nextWith s (modFount (fun f => { f with cdrLock := vmodN f.cdrLock q.1 fun _ => lanes }) d)) ∧
    ((quad d p).state = .hunt → ∀ (l : LaneId) (k : LaneHunt),
      (huntPasses k = false → exec (.laneLock q l k) s = nextWith s d) ∧
      (huntPasses k = true →
        let d' := modQuad q.1 (fun x => { x with
          laneLock := x.laneLock ||| BitVec.ofNat 4 (2 ^ l.1)
          markAt := vmodN x.markAt l.1 fun _ => laneOrigin k.time (fieldN (blockPayload k.mark) 111 96) }) d
        (allLocked d' p = false → exec (.laneLock q l k) s = nextWith s d') ∧
        (allLocked d' p = true →
          let d2 := setPortState p .exchange d'
          exec (.laneLock q l k) s =
            nextWith s (if laneSkew d2 p ≤ 2048 then sendTrain p d2 else enterSignal p d2)))) ∧
    (∀ (l : LaneId) (v : BitVec 128), (quad d q.1).laneLock.getLsbD l.1 = true →
      (badHeaders v < 16 → exec (.laneLockLost q l v) s = nextWith s d) ∧
      (16 ≤ badHeaders v →
        ((quad d p).state = .exchange ∨ (quad d p).state = .up →
          exec (.laneLockLost q l v) s = nextWith s (enterSignal p d)) ∧
        ((quad d p).state = .hunt → exec (.laneLockLost q l v) s = nextWith s (modQuad q.1 (fun x =>
          { x with laneLock := x.laneLock &&& ~~~(BitVec.ofNat 4 (2 ^ l.1)) }) d)))) ∧
    (∀ b, stateBound (quad d p).state = some b →
      (d.now < (quad d p).stateAt + 4096 * b → exec (.trainingTimeout q) s = nextWith s d) ∧
      ((quad d p).stateAt + 4096 * b ≤ d.now →
        ((quad d p).state ≠ .signal → exec (.trainingTimeout q) s = nextWith s (enterSignal p d)) ∧
        ((quad d p).state = .signal →
          exec (.trainingTimeout q) s = nextWith s (beginTraining p (setPortState p .down d))))) ∧
    (∀ l : List Codeword,
      let d0 := if portHears d p then hearCodewords p l d else d
      (flitBad l = true → ∀ b, exec (.trainBlock q b l) s =
        nextWith s (modQuad p (fun x => { x with lastTrain := none, trainRun := 0 }) d0)) ∧
      (flitBad l = false →
        (∀ b : BitVec 130, blockHeader b ≠ 2 → exec (.trainBlock q b l) s = nextWith s d0) ∧
        (∀ v : BitVec 128, controlType v ≠ 1 → controlType v ≠ 3 → portHears d0 p = true →
          exec (.trainBlock q (controlBlock v) l) s =
            nextWith s (modQuad p (fun x => { x with crcErr := satAdd x.crcErr 1 }) d0)) ∧
        ((quad d0 p).state = .exchange → ∀ v : BitVec 128, controlType v = 3 →
          let run := if (quad d0 p).lastTrain = some v then min 8 ((quad d0 p).trainRun + 1) else 1
          let d' := modQuad p (fun x => { x with lastTrain := some v, trainRun := run }) d0
          (run < 8 → exec (.trainBlock q (controlBlock v) l) s = nextWith s d') ∧
          (8 ≤ run →
            let d2 := if (quad d0 p).seen then d' else sendTrain p (modQuad p (fun x => { x with seen := true }) d')
            exec (.trainBlock q (controlBlock v) l) s = nextWith s (if bit v 119 then trained p v d2 else d2)))))

/-- What lanes decode is an operand, and a port sends a NULL flit to answer a flit or to pay a debt: the model's choices (log 96).
FLIT, RETRY_TIMEOUT, FL_ROUTE_DATA_WRITE, FL_OROUTE_DATA_WRITE on their own paths. -/
def Obligations.FlitsAndRoutes : Prop :=
  ∀ (s : State) (q : QuadId), asleep s.dev = false →
    let d := s.dev
    let p := portOf d q.1
    (portUp d p = true →
      (∀ (v : BitVec 2048) (l : List Codeword),
        let d0 := hearCodewords p l d
        let bytes := leBytes 256 v.toNat
        let h : BitVec 96 := BitVec.ofNat 96 (leNat (bytes.take 12))
        let crcBad : Bool := flitBad l || decide (crc32 (bytes.take 252) ≠ BitVec.ofNat 32 (leAt bytes 252 4))
        let stale : Bool := decide (field h 31 16 ≠ (quad d0 p).peerInc) || decide (field h 15 0 ≠ d0.forron.inc)
        let d1 :=
          if crcBad then nakFlit p (modQuad p (fun x => { x with crcErr := satAdd x.crcErr 1 }) d0)
          else if stale then modQuad p (fun x => { x with staleDrop := satAdd x.staleDrop 1, sawStale := true }) d0
          else if fieldN h 95 94 = 1 then takeMsgFlit p (field h 92 81) bytes (takeLink p h d0) else takeLink p h d0
        let d2 := pumpPort 1024 p d1
        exec (.flit q v l) s = nextWith s (payDebts (
          if portUp d2 p = true ∧ sentFlit p (d2.out.take (d2.out.length - d0.out.length)) = false then sendNull p d2
          else d2))) ∧
      (d.now < (quad d p).ackBy → exec (.retryTimeout q) s = nextWith s d) ∧
      ((quad d p).ackBy ≤ d.now → exec (.retryTimeout q) s = nextWith s (
        if (quad d p).retryBuf = [] then d
        else if max 1 d.forron.retryLimit.toNat ≤ (quad d p).rounds then enterSignal p d else resendAll p d))) ∧
    (∀ (r : Requester) (v : Word), r = .foreman ∨ linkBusy d = false → routeOk d v = true →
      (quadPresent d.part q.1 = true → (quad d q.1).routeIndex.toNat < 768 →
        exec (.flRouteDataWrite r q v) s = nextWith s (withRight (lockable d r 5) r (0x0600084 + 0x10000 * q.1) v
          (modQuad q.1 (fun x => { x with routes := smapSet 0 x.routes (quad d q.1).routeIndex.toNat (routeWord v) })) d)) ∧
      (d.forron.orouteSel.toNat % 1024 < 768 →
        exec (.flOrouteDataWrite r v) s = nextWith s (withRight (lockable d r 5) r 0x0600128 v
          (modForron (fun f =>
            { f with oroutes := vmodN f.oroutes (f.orouteSel.toNat / 1024) (fun t =>
                       smapSet 0 t (d.forron.orouteSel.toNat % 1024) (routeWord v)) })) d)))
/-- Model's choices: LINK_WAIT counts one for each attempt (log 20); the margin of a transfer and the code of a misaligned address
(log 97). LINK_DISPATCH, COLLECTIVE_DISPATCH, FORRON_CHUNK_REQUEST on their own paths. -/
def Obligations.LinksDispatch : Prop :=
  ∀ (s : State) (p : PressId), asleep s.dev = false →
    let d := s.dev
    (∀ e, headOf d p.1 (fun o => o = 0x26) = some e →
      let b := nth 0 e.desc 0
      (dKind b = 10 → linkWf b = true → (press d p.1).transfers.length + (press d p.1).ftransfers.length < 8 →
        (faMarker b = true → linksDone d p.1 = true) →
        let src := ownGalley e.pm p.1 (fieldN b 247 238)
        (linkChecks d p.1 src b = none → exec (.linkDispatch p) s = nextWith s (popHead p.1 (modPress p.1 (fun x =>
          { x with ftransfers := x.ftransfers ++ [makeFTransfer d p.1 src e b] }) d))) ∧
        (∀ code, linkChecks d p.1 src b = some code →
          exec (.linkDispatch p) s = nextWith s (faultCheck p.1 src e b code d))) ∧
      (dKind b = 11 → reservedZero b kindBFields = true → fieldN b 251 250 ≠ 3 → fieldN b 245 242 ≠ 0 →
        (vgetN none d.forron.engines (p.1 / 64)).isSome = false →
        let r := vgetN {} (vgetN (Vector.replicate 16 {}) d.forron.rings (p.1 / 64)) (fieldN b 249 246)
        (collectiveChecks d p.1 b r = none → exec (.collectiveDispatch p) s = nextWith s (popHead p.1 (modForron (fun f =>
          { f with engines := vmodN f.engines (p.1 / 64) fun _ => some (makeCollective d p.1 e b r) }) d))) ∧
        (∀ code, collectiveChecks d p.1 b r = some code →
          exec (.collectiveDispatch p) s = nextWith s (faultCollective p.1 e b code d)))) ∧
    (∀ i t, ftransferAt d p.1 i = some t → t.asked < faBytes t.desc →
      (4 ≤ t.chunks.length → exec (.forronChunkRequest (.transfer p i)) s = nextWith s (countLinkWait p.1 d)) ∧
      (t.chunks.length < 4 →
        (t.src = 0xA8 → hbmRetired d (faSaddr t.desc + t.asked) (faChunkLen t.desc t.asked) = false) →
        ∀ port, originPort d (p.1 / 64) (flDest t.desc) t.nextNum = some port →
        exec (.forronChunkRequest (.transfer p i)) s = nextWith s (
          if portWindow d t.entry.slot (faWindow t.desc) port then reserveNext p.1 i t port d
          else countLinkWait p.1 d))) ∧
    (∀ (die : Fin 2) c, vgetN none d.forron.engines die.1 = some c → c.step < colSteps c →
      4 ≤ c.sent.length ∨ colMaySend c c.step c.chunk = false ∨ colOpen d die.1 c = false →
      exec (.forronChunkRequest (.engine die)) s = nextWith s (countLinkWait c.press d)) ∧
    (∀ (die : Fin 2) c off n port, vgetN none d.forron.engines die.1 = some c → c.step < colSteps c →
      c.sent.length < 4 → colMaySend c c.step c.chunk = true → colOpen d die.1 c = true →
      (colChunks c (colSends c c.step))[c.chunk]? = some (off, n) →
      (colEp c = 0xA8 → hbmRetired d (colBase c + off) n = false) →
      originPort d die.1 c.succ c.chunk = some port →
      exec (.forronChunkRequest (.engine die)) s = nextWith s (engineReserve die.1 c off n port d))

/-- Model's choices: a disabled engine answers with cause 5 (log 46), what tells a chunk apart and the order of DATA (log 47),
FL_OVERSIZE before the index and CANCEL of a chunk not granted (log 97). FORRON_RESERVE, FORRON_DATA, FORRON_CANCEL, GRANT_HOLD_EXPIRED complete for every message and chunk. -/
def Obligations.ForronReceives : Prop :=
  ∀ (s : State), asleep s.dev = false →
    (∀ (q : Nat) (m : FMsg) l, s.dev.forron.inbox = (q, m) :: l → inboxAt s.dev 0 m.mtype = some (q, m)) ∧
    (∀ (n q : Nat) (m : FMsg),
      let d := takeInbox n q m s.dev
      let ans (d : Device) := nextWith s (payDebts d)
      (inboxAt s.dev n 1 = some (q, m) →
        let x := frxOf d q m
        (d.forron.rx.any (frxIs m.src m.tag) = true →
          exec (.forronReserve n) s = ans (logMsg q 0x0412 m d)) ∧
        (d.forron.rx.any (frxIs m.src m.tag) = false →
          (frxDie x = none →
            (∀ cause, reserveCause d x = some cause →
              exec (.forronReserve n) s = ans (flAnswer 2 1 cause 0 x
                (if cause = 4 ∧ addrEp x.dst = 0xA8 then logTurnedAway x.stream x.addr x.len d else d))) ∧
            (reserveCause d x = none → exec (.forronReserve n) s = ans (pushReserve x d))) ∧
          (∀ die, frxDie x = some die →
            (bit d.trust.store.enEngine die = true → exec (.forronReserve n) s =
              ans (modForron (fun f => { f with rx := f.rx ++ [x] }) d)) ∧
            (bit d.trust.store.enEngine die = false → exec (.forronReserve n) s = ans (flAnswer 2 1 5 0 x d))))) ∧
      (inboxAt s.dev n 3 = some (q, m) → dataReady s.dev m = true →
        ((∀ x, d.forron.rx.find? (frxIs m.src m.tag) = some x → x.granted = false) →
          exec (.forronData n) s = ans (logMsg q 0x0411 m d)) ∧
        (∀ x, d.forron.rx.find? (frxIs m.src m.tag) = some x → x.granted = true →
          (dataFits x m = none → exec (.forronData n) s =
            ans (logOversize q m x (flAnswer 4 2 0 0 x (cancelPush x (dropFrx x d))))) ∧
          (∀ v, dataFits x m = some v →
            (m.index ≠ x.index → exec (.forronData n) s = ans (logMsg q 0x0412 m d)) ∧
            (m.index = x.index →
              let y := { x with data := x.data ++ v, index := x.index + 1, holdBy := holdDue d }
              let d' := modFrx y (fun _ => y) d
              (frxDie x = none → exec (.forronData n) s = ans (passFlits y (x.data.length / 64) d')) ∧
              (∀ die, frxDie x = some die →
                (y.data.length = x.len → exec (.forronData n) s = ans (engineCommit die y d')) ∧
                (y.data.length ≠ x.len → exec (.forronData n) s = ans d')))))) ∧
      (inboxAt s.dev n 5 = some (q, m) →
        ((∀ x, d.forron.rx.find? (frxIs m.src m.tag) = some x → x.granted = false) →
          exec (.forronCancel n) s = ans (logMsg q 0x0411 m d)) ∧
        (∀ x, d.forron.rx.find? (frxIs m.src m.tag) = some x → x.granted = true →
          exec (.forronCancel n) s = ans (cancelPush x (dropFrx x d))))) ∧
    (∀ (n : Nat) (x : FRx), s.dev.forron.rx[n]? = some x →
      (s.dev.now < x.holdBy → exec (.grantHoldExpired n) s = nextWith s s.dev) ∧
      (x.holdBy ≤ s.dev.now → x.passed = false →
        (x.granted = true →
          let d' := cancelPush x (dropFrx x s.dev)
          exec (.grantHoldExpired n) s =
            nextWith s (logPlain (unitQuad x.port) 0x0413 (flDetail (frxDetail s.dev x.port x)) d')) ∧
        (x.granted = false → ∀ die, frxDie x = some die → vgetN none s.dev.forron.engines die = none →
          exec (.grantHoldExpired n) s = nextWith s (flAnswer 2 1 1 0 x (dropFrx x s.dev)))))

/-- The flit that fails on the chase is an operand, the model's choice (log 96), and which message may be taken is log 47's
reading. FORRON_GRANT, RECEIPT, FORRON_DEADLINE on their own paths. -/
def Obligations.ForronAnswers : Prop :=
  ∀ (s : State) (n q : Nat) (m : FMsg), asleep s.dev = false →
    let d := takeInbox n q m s.dev
    let ans (d : Device) := nextWith s (payDebts d)
    let ep := addrEp m.src
    (inboxAt s.dev n 2 = some (q, m) → grantReady s.dev m = true →
      (∀ i t c, findFtx d ep m.tag = some (i, t, c) → c.grants = [] →
        (leAt m.payload 0 1 = 0 → ∀ d' v, readForSend 3 ep t.entry (faStream t.desc)
            (epUnit d t.src (faSaddr t.desc + c.off)) (faSaddr t.desc + c.off) c.len d = (d', some v) →
          let d2 := modFchunk ep i c.tag (fun c =>
            { c with grants := [0], pinc := m.sinc, sent := true, tally := tally v }) d'
          let l := dataMsgs d2 (ownAddr d2 ep) (flDest t.desc) m.sinc (faMarker t.desc) c.tag v
          exec (.forronGrant n) s = ans (sendData c.port l d2) ∧
          (∀ sw flit,
            let d3 := sendData c.port (l.takeWhile fun m => !carriesFlit c.len flit m.index) d2
            ∀ j t' c', findFtx d3 ep m.tag = some (j, t', c') → c'.sent = true →
            exec (.forronGrant n (.uncorrectable sw) flit) s = ans (faultStream ep 2 t'.entry (faStream t'.desc) 0x0611
              (unitSwitch sw) { init := ep, peer := 0xB0 + q, chunk := c'.num } d3))) ∧
        (leAt m.payload 0 1 ≠ 0 → ∀ flit, exec (.forronGrant n .ok flit) s = ans (faultLink ep 2 t.entry (faStream t.desc) 0x0404
          { (sentDetail d t.links0 m.dst c 2 m.lseq) with cause := leAt m.payload 1 1 } d))) ∧
      (findFtx d ep m.tag = none →
        (∀ die c k x, findEtx d ep m.tag = some (die, c, k, x) → x.grants = [] → leAt m.payload 0 1 = 0 →
          exec (.forronGrant n) s = ans (engineSource die c x m.sinc .ok 0 d)) ∧
        (findEtx d ep m.tag = none → ∀ k flit, exec (.forronGrant n k flit) s = ans (logMsg q 0x0411 m d)))) ∧
    (inboxAt s.dev n 4 = some (q, m) →
      let status := leAt m.payload 0 1
      let sum : BitVec 64 := BitVec.ofNat 64 (leAt m.payload 4 8)
      (∀ i t c, findFtx d ep m.tag = some (i, t, c) → c.sent = true →
        (status ≠ 1 → status ≠ 2 → sum = c.tally → exec (.receipt n) s = ans (forronDone ep i c m.lseq d)) ∧
        (status = 1 ∨ status ≠ 2 ∧ sum ≠ c.tally → exec (.receipt n) s =
          ans (faultLink ep 2 t.entry (faStream t.desc) 0x0402 (sentDetail d t.links0 m.dst c 4 m.lseq) d)) ∧
        (status = 2 → exec (.receipt n) s =
          ans (faultLink ep 2 t.entry (faStream t.desc) 0x0403 (sentDetail d t.links0 m.dst c 4 m.lseq) d))) ∧
      (findFtx d ep m.tag = none →
        (∀ die c k x, findEtx d ep m.tag = some (die, c, k, x) → x.sent = true → status ≠ 1 → status ≠ 2 →
          sum = x.tally → exec (.receipt n) s = ans (engineCheck die
            (setEngine die { c with sent := c.sent.filter fun s => s.2.2.tag ≠ m.tag } d))) ∧
        (findEtx d ep m.tag = none → exec (.receipt n) s = ans (logMsg q 0x0411 m d)))) ∧
    (∀ (p : PressId) i t, ftransferAt s.dev p.1 i = some t →
      (s.dev.now < t.deadline → exec (.forronDeadline (.transfer p i)) s = nextWith s s.dev) ∧
      (t.deadline ≤ s.dev.now →
        let x := transferLost s.dev p.1 t
        exec (.forronDeadline (.transfer p i)) s = nextWith s (faultLink p.1 2 t.entry (faStream t.desc) 0x0401 x s.dev) ∧
        x.partner = (flDest t.desc).toNat ∧
        (∀ c l, t.chunks = c :: l → x.port = c.port ∧ x.chunk = c.num) ∧
        (t.chunks = [] → x.chunk = t.nextNum ∧
          ∀ k, originPort s.dev (p.1 / 64) (flDest t.desc) t.nextNum = some k → x.port = k))) ∧
    (∀ (die : Fin 2) c, vgetN none s.dev.forron.engines die.1 = some c →
      (s.dev.now < c.deadline → exec (.forronDeadline (.engine die)) s = nextWith s s.dev) ∧
      (c.deadline ≤ s.dev.now →
        let x := collectiveLost s.dev die.1 c
        exec (.forronDeadline (.engine die)) s = nextWith s (faultLink c.press 2 c.entry (colStream c) 0x0401 x s.dev) ∧
        x.coll = 16 * colRing c + colNum c ∧
        (waitsPred c = true → x.partner = c.pred.toNat) ∧
        (waitsPred c = false → x.partner = c.succ.toNat)))
/-- SAVE_DONE and RESTORE_DONE on their own paths. The offsets of the encoded fields that the spec does not lay out, and that the
presses of a HOLD count as held, are the model's choice (logs 50, 51). -/
def Obligations.ImagesSavedAndRestored : Prop :=
  ∀ (s : State), asleep s.dev = false →
    let d := s.dev
    (∀ id t r, ticketById d id = some t → t.pause = some r → t.abort = none → pauseReached d t.slot = true →
      busesIssue d = true → ∀ d1, flushTask t.slot d = (d1, false) →
      let fs := savedFormes d1 t
      let held := fs.map fun vf => (vf.2, heldMask d1 t.slot vf.2)
      let elapsed := d1.sheet + 1 + t.elapsed - t.start
      (∀ k a, blockedImage d1 held = some (k, a) →
        exec (.saveDone id) s = nextWith s (faultBlocked t.slot k a 0xFF none { phase := 3 } d1)) ∧
      (blockedImage d1 held = none → ∀ d2 v, held.foldl saveForme (d1, [], none) = (d2, v, none) →
        let rest := bytesOf 4032 0
        let header := headerHead t fs elapsed ++ leBytes 8 (tally (rest ++ v)).toNat ++ bytesOf 8 0 ++ rest
        exec (.saveDone id) s =
          nextWith s (endPause t r.addr elapsed (writeImage r.addr header (writeImage (r.addr + 4096) v d2))))) ∧
    (∀ (f : FormeId) t d1 h d2 body, (forme d f.1).task.bind (ticketOf d) = some t → (forme d f.1).state = .loading →
      t.resume = true → t.abort = none → busesIssue d = true → (maskPresses f.1 (forme d f.1).pmask.toNat).all (domainOn d) = true →
      t.program + 4096 ≤ hbmBytes d.part → readLoad f.1 t.program 4096 d = (d1, some h) →
      let n := sectionSize * leAt h 3 1
      leAt h 3 1 ≠ 0 → leAt h 3 1 ≤ 16 → t.program + 4096 + n ≤ hbmBytes d1.part →
      readLoad f.1 (t.program + 4096) n d1 = (d2, some body) →
      let v := (forme d2 f.1).vforme
      (∀ c, imageFault t v h body = some c → exec (.restoreDone f) s = nextWith s (imageBad f.1 t c d2)) ∧
      (imageFault t v h body = none → blockedImage d2 [(f.1, (forme d2 f.1).pmask)] = none → exec (.restoreDone f) s = nextWith s (restoreForme f.1 t
        ((body.drop (sectionSize * sectionsBefore (leAt h 44 2) v)).take sectionSize)
        (modTicket t.slot (fun t =>
          { t with seed := BitVec.ofNat 64 (leAt h 24 8), step := BitVec.ofNat 64 (leAt h 32 8), elapsed := leAt h 40 4 })
          d2))))

/-- TREE_WINDOW, FOUNT_PLL_LOCK, IW_BEAT, RQ_ACCEPT, RD_BEAT, FEED_BEAT, FEED_MAP_WRITE, FT_CLEAR_COUNTS. That a quad's cycles and user
logic come as operands of the window, the order of the two, and which FEED takes a free feed are the model's choice (logs 54, 86,
88, 91). -/
def Obligations.CrossingsPassBeats : Prop :=
  ∀ (s : State) (r : RegionId), asleep s.dev = false →
    let d := s.dev
    (∀ (t : TreeId) (edges : Nat) (cycles : List QuadCycle) (user : List UserEdge),
      let d1 := cycles.foldl (fun d c => if crossTree d c.quad.1 crossQuad = t.1 then quadCycle c d else d) d
      let e := if treeDriven d1 t.1 then edges else 0
      exec (.treeWindow t edges cycles user) s = nextWith s (modFount (fun f =>
        { f with treeRun := setField f.treeRun t.1 t.1 (b2n (decide (e ≠ 0))),
                 treeOver := if 130 < e then setField f.treeOver t.1 t.1 1 else f.treeOver,
                 isoOver := setField f.isoOver t.1 t.1 (b2n (decide (130 < e))),
                 isoTail := setField f.isoTail t.1 t.1 (b2n (!decide (130 < e) && bit f.isoOver t.1)) })
          (if e ≠ 0 then user.foldl (userEdge t.1) d1 else d1))) ∧
    (∀ (k : PllId) (l : Bool), exec (.fountPllLock k l) s =
      nextWith s (modFount (fun f => { f with pllLock := setField f.pllLock k.1 k.1 (b2n l) }) d)) ∧
    (linkBusy d = false → exec .ftClearCounts s = nextWith s (modFount (fun f =>
      { f with feedWait := Vector.replicate 32 0, slips := Vector.replicate 24 0 }) d)) ∧
    (regionShut d r.1 = false →
      (∀ u rest, (regionPort d r.1).pushes = u :: rest → behindRead (regionPort d r.1) u = false →
        let last : Bool := decide (u.data.length ≤ 128 * (u.beats + 1))
        let d' := emit (pushBeat r.1 u last) d
        (last = false → exec (.iwBeat r) s = nextWith s (modPort r.1 (fun x =>
          { x with pushes := { u with beats := u.beats + 1 } :: rest }) d')) ∧
        (last = true → exec (.iwBeat r) s =
          nextWith s (pushDone r.1 u (modPort r.1 (fun x => { x with pushes := rest }) d')))) ∧
      (∀ i u, ((regionPort d r.1).reads.filter (·.accepted)).length < 8 →
        findIdx? (fun u => !u.accepted) (regionPort d r.1).reads = some i → (regionPort d r.1).reads[i]? = some u →
        exec (.rqAccept r) s = nextWith s (
          if behindWrite (regionPort d r.1) u then d
          else emit (.rqAccepted r.1 u.chan u.stream u.addr u.units)
            (modPort r.1 (fun x => { x with reads := x.reads.set i { u with accepted := true } }) d)))) ∧
    (regionShut d r.1 = false → ∀ (b : ReadBeat),
      ((regionPort d r.1).surplus = true → exec (.rdBeat r b) s = nextWith s (
        if b.last then modPort r.1 (fun x => { x with surplus := false }) d else d)) ∧
      ((regionPort d r.1).surplus = false → ∀ i u,
        findIdx? (fun u => u.accepted) (regionPort d r.1).reads = some i → (regionPort d r.1).reads[i]? = some u →
        let good : Bool := decide (b.par = beatParity b.data)
        let u' := { u with data := u.data ++ leBytes 128 b.data.toNat }
        (u'.data.length < 128 * ((u.units + 1) / 2) →
          let d' := modPort r.1 (fun x => { x with reads := x.reads.set i u' }) d
          exec (.rdBeat r b) s = nextWith s (if good then d' else readBad r.1 u' d')) ∧
        (128 * ((u.units + 1) / 2) ≤ u'.data.length →
          let d' := modPort r.1 (fun x => { x with reads := removeAt x.reads i, surplus := !b.last }) d
          exec (.rdBeat r b) s = nextWith s (if good then readDone r.1 u' d' else readBad r.1 u' d')))) ∧
    (∀ (k : FeedId) (v : BitVec 4096), feedOpen d k.1 = true →
      (∀ p pl o, feedHolder d k.1 = some (p, pl, o) ∨ feedHolder d k.1 = none ∧ feedClaim d k.1 = some (p, pl, o) →
        (fenced d p = true → exec (.feedBeat k v) s = nextWith s (emit (.fdFlush k.1) d)) ∧
        (fenced d p = false →
          (∀ f l, o.feedFmt = some f → o.runLeads = some l → o.phase = .feeding →
            exec (.feedBeat k v) s = nextWith s (dataBeat p pl o f l v d)) ∧
          (o.runLeads = none → exec (.feedBeat k v) s = nextWith s (leadBeat p pl o v d))))) ∧
    (∀ (k : FeedId) (v : Word),
      let w := v &&& 0x8000001F#32
      linkBusy d = false → fieldN w 3 0 < 12 →
      (bit w 31 = true → ∀ j, j < 32 → j ≠ k.1 → j / 16 = k.1 / 16 →
        ∀ m, m = feedMapOf d j ∨ m = vgetN 0 d.fount.feedMap j → bit m 31 = true → fieldN m 4 0 ≠ fieldN w 4 0) →
      exec (.feedMapWrite k v) s = nextWith s (modFount (fun f =>
        { f with feedNext := vmodN f.feedNext k.1 fun _ => some w }) d))
/-- CF_BEGIN, CF_ABORT, CF_DONE_RELEASE, STREAM_WORD, HEADER_ACCEPTED, CLEARING_DONE, LOAD_TRUNCATED, END,
FULL_LOAD_COMPLETE on their own paths. That a write waits behind a posted write that waits is the model's reading (log 92); so
are, by log 57, the outcomes of a load that the rules leave open. -/
def Obligations.LoadsOpenAndEnd : Prop :=
  ∀ (s : State), asleep s.dev = false →
    let d := s.dev
    (∀ r : Requester, (r = .foreman ∨ linkBusy d = false) → lockable d r 0 = true → d.trust.running.isSome = true →
      let d' := logAct 1 (reqRole d r) 0 0 (reqSource r) 0xD00000 1 d
      (portBusy d.cf = true → exec (.cfBegin r) s = nextWith s (logConf 0x030C {} d')) ∧
      (portBusy d.cf = false → exec (.cfBegin r) s = nextWith s (modCf (fun c =>
        { c with load := some { role := reqRole d' r, source := reqSource r, lastWord := d'.now },
                 state := .opened, words := 0 }) d'))) ∧
    (linkBusy d = false → exec .cfAbort s = nextWith s (endLoad 0x030F none d)) ∧
    (linkBusy d = false → d.cf.regions = 0 → d.cf.load = none → d.cf.doneDriven = true →
      exec .cfDoneRelease s = nextWith s (emit (.cfDone false) (modCf (fun c => { c with doneDriven := false }) d))) ∧
    (d.cf.state = .clearing →
      (d.cf.clearFailed = false → exec .clearingDone s = nextWith s (modCf (fun c => { c with state := .loadFull }) d)) ∧
      (d.cf.clearFailed = true → exec .clearingDone s = nextWith s (modCf (fun c =>
        { c with load := none, clearFailed := false, state := .unconfigured }) d))) ∧
    (∀ w whole bad, linkBusy d = true →
      exec (.streamWord w whole bad) s = nextWith s (holdLink (.row (.streamWord w whole bad)) d)) ∧
    (∀ l, d.cf.load = some l →
      (linkBusy d = false → ∀ w, exec (.streamWord w false) s = nextWith s (endLoad 0x0308 none d)) ∧
      (l.ended = false →
        (linkBusy d = false → noImage d = false → ∀ w,
          let d' := modCf (fun c => { c with words := satAdd c.words 1 }) d
          let d1 := modLoad (fun l => { l with header := l.header ++ leBytes 4 w.toNat, lastWord := d.now }) d'
          (l.header.length + 4 < 1024 → exec (.streamWord w true) s = nextWith s d1) ∧
          (l.header.length < 1024 → 1024 ≤ l.header.length + 4 →
            exec (.streamWord w true) s = nextWith s (modCf (fun c => { c with state := .verifying }) d1)) ∧
          (1024 ≤ l.header.length → l.buf.length < 16384 → exec (.streamWord w true) s =
            nextWith s (modLoad (fun l => { l with buf := l.buf ++ [w], lastWord := d.now }) d')) ∧
          (1024 ≤ l.header.length → 16384 ≤ l.buf.length → exec (.streamWord w true) s =
            nextWith s (holdLink (.row (.streamWord w true)) d))) ∧
        (l.lastWord + 2684355 ≤ d.now → exec .loadTruncated s = nextWith s (endLoad 0x0302 none d))) ∧
      (d.cf.state = .verifying → noImage d = false →
        (headerFault d l.header = none →
          exec .headerAccepted s = nextWith s (acceptHeader l (headerLog d l none))) ∧
        (∀ c, headerFault d l.header = some c →
          exec .headerAccepted s = nextWith s (endLoad c none (headerLog d l (some c))))) ∧
      (l.full = true → l.ended = true → d.cf.state = .loadFull →
        (∀ k ∈ drivingPlls d.cf, bit d.fount.pllLock k = true) →
        exec .fullLoadComplete s = nextWith s (emit (.cfDone false) (modCf (fun c =>
          { c with state := .waitPeers, doneDriven := false, doneSheet := d.sheet, lineSheet := none }) d)))) ∧
    (∀ l w rest, loadRuns d = some l → l.run = none → l.buf = w :: rest → fieldN w 31 24 = 6 →
      fieldN w 23 0 = 0 → l.units ≠ 0 → 7 ≤ l.buf.length →
      let l' := takeClear 3 l
      (segTag l' = wordsBytes ((l.buf.drop 3).take 4) →
        l'.tally.toNat = leNat (wordsBytes ((l.buf.drop 1).take 2)) →
        (l'.full = true → (List.range 8).all (pllOutputsOk (mergedWregs d.cf.wregs l'.wregs)) = true) →
        exec .endCmd s = nextWith s (completeLoad l' d)) ∧
      (segTag l' ≠ wordsBytes ((l.buf.drop 3).take 4) → exec .endCmd s = nextWith s (endLoad 0x030A none d)))

/-- CF_NOP, FRAMES, WREG, RAMINIT, TAG, GLOBAL_RELEASE, PEERS_ABSENT, PARTIAL_COMMIT, SHADOW_DISCARD_RELEASE,
RELEASE_STAGE, PARTIAL_REGIONS_HELD on their own paths. Which bits of a frame select one line twice is a constant without a body
(log 53); a segment's nonce and additional data, the outcomes of checks and of waiting, and the order of releases are the model's
choice (logs 56, 57, 58). -/
def Obligations.StreamAndRelease : Prop :=
  ∀ (s : State), asleep s.dev = false →
    let d := s.dev
    (∀ l w rest, loadRuns d = some l → l.run = none → l.buf = w :: rest →
      (fieldN w 31 24 = 1 → fieldN w 23 0 = 0 → exec .cfNop s = nextWith s (modLoad (takeClear 1) d)) ∧
      (∀ v more, fieldN w 31 24 = 3 → rest = v :: more → l.full = true → fieldN w 23 8 = 0 →
        wregOk (fieldN w 7 0) v = true → exec .wreg s = nextWith s (modLoad (fun l =>
          { takeClear 2 l with wregs := smapPut l.wregs (fieldN w 7 0) v }) d)) ∧
      (fieldN w 31 24 = 4 → fieldN w 23 20 = 0 → fieldN w 7 4 = 0 → fieldN w 19 15 < 24 → fieldN w 14 8 < 96 →
        colKind (fieldN w 19 15) (fieldN w 14 8) = .ram → l.units + 9 ≤ 1024 → l.bound.getLsbD (fieldN w 19 15) = true →
        1153 ≤ l.buf.length →
        let lv := takeCipher 1152 (takeClear 1 l)
        let i := ramIndex (fieldN w 19 15) (fieldN w 14 8) (fieldN w 3 0)
        let x := BitVec.ofNat 36864 (leNat lv.2)
        let l' := { lv.1 with units := lv.1.units + 9 }
        exec .raminit s = nextWith s (
          if l.full then modCf (fun c => { c with load := some l', ram := smapSet 0 c.ram i x }) d
          else modCf (fun c => { c with load := some { l' with shadowRam := smapSet 0 l'.shadowRam i x } }) d)) ∧
      (fieldN w 31 24 = 5 → fieldN w 23 0 = 0 → l.units ≠ 0 → 5 ≤ l.buf.length →
        let l' := takeClear 1 l
        exec .tag s = nextWith s (
          if segTag l' = wordsBytes ((l.buf.drop 1).take 4) then
            modCf (fun c => { c with load := some (nextSegment { l' with buf := l'.buf.drop 4 }) }) d
          else endLoad 0x030A none d))) ∧
    (∀ l n left, loadRuns d = some l → l.run = some (n, left) → 128 ≤ l.buf.length →
      let lv := takeCipher 128 l
      let f := BitVec.ofNat 4096 (leNat lv.2)
      (∀ c, frameFault l (linearFar n) f = some c → exec .frames s = nextWith s (endLoad c (some (linearFar n)) d)) ∧
      (frameFault l (linearFar n) f = none → exec .frames s = nextWith s (modCf (writeFrame n f
        { lv.1 with run := if left = 1 then none else some (n + 1, left - 1), units := l.units + 1 }) d))) ∧
    (∀ l w c more, loadRuns d = some l → l.run = none → l.buf = w :: c :: more → fieldN w 31 24 = 2 →
      let n := c.toNat
      let a := fieldN w 19 0
      let wrong := fieldN w 23 20 ≠ 0 ∨ n = 0 ∨ 1024 < n ∨ farOk a = false ∨ frameCount < farLinear a + n ∨ 1024 < l.units + n
      let d' := modCf (fun x => { x with load := some { takeClear 2 l with run := some (farLinear a, n) } }) d
      (wrong → exec .frames s = nextWith s (endLoad 0x0308 none d)) ∧
      (¬ wrong → more.length < 128 → exec .frames s = nextWith s d') ∧
      (¬ wrong → 128 ≤ more.length → exec .frames s = exec .frames { s with dev := d' })) ∧
    (∀ high level : Bool, d.cf.state ≠ .waitPeers ∨ d.point ≠ 0 → exec (.globalRelease high level) s =
      nextWith s (modCf (fun c => { c with doneLine := (high || level) && !c.doneDriven }) d)) ∧
    (d.cf.state = .waitPeers → d.point = 0 → ∀ high level : Bool,
      let d' := modCf (fun c => { c with doneLine := (high || level) && !c.doneDriven }) d
      (d.cf.lineSheet = none → exec (.globalRelease high level) s =
        nextWith s (if high then modCf (fun c => { c with lineSheet := some d.sheet }) d' else d')) ∧
      (∀ n, d.cf.lineSheet = some n → n < d.sheet → exec (.globalRelease high level) s =
        nextWith s (modCf (fun c => releaseOutputs 0xFFFFFF
          { c with regions := 0xFFFFFF, lock := if c.pendLock then 0xFFFFFF else 0, load := none, lineSheet := none })
          (reloadFeeds 0xFFFFFF d')))) ∧
    (d.cf.state = .waitPeers → d.cf.peerTimeout ≠ 0 → d.cf.lineSheet = none →
      d.cf.doneSheet + d.cf.peerTimeout.toNat ≤ d.sheet →
      exec .peersAbsent s = nextWith s (modCf (fun c => { c with lineSheet := some d.sheet })
        (logConf 0x0314 (loadDetail d none) d))) ∧
    (∀ l, d.cf.load = some l → d.cf.commitPending = true → d.point = 0 → d.cf.doneSheet < d.sheet →
      exec .partialCommit s = nextWith s (modCf (commitShadow l) (restartFlops l.bound (reloadFeeds l.bound d)))) ∧
    (d.cf.discardNext ≠ 0 → d.point = 0 → d.cf.discardSheet < d.sheet → d.cf.release = none →
      exec .shadowDiscardRelease s =
        nextWith s (modCf (fun c => { releaseOutputs c.discardNext c with discardNext := 0 }) d)) ∧
    (d.cf.holdNext ≠ 0 → d.point = 0 → d.cf.holdSheet < d.sheet →
      exec .partialRegionsHeld s = nextWith s (modCf (fun c => { c with held := c.held ||| c.holdNext, holdNext := 0 }) d)) ∧
    (∀ k m g, d.cf.release = some (k, m, g) →
      exec .releaseStage s = nextWith s (
        if k = 0 then modCf (releaseOutputs m) d
        else if k = 1 then modCf (fun c => { c with release := some (2, m, g) }) d
        else modCf (fun c => releaseWoken
          { c with release := none, state := if c.load.isSome then c.state else baseState c }) d))

/-- CAPTURE_START, CAPTURE_EDGE, CAPTURE_COPY_DONE, CAPTURE_RELEASE, CAPTURE_CANCEL, CAPTURE_TIMEOUT, CLOCK_STOP_WRITE,
FOUNT_STOPPED, FOUNT_RESUMED, READ_SEL_WRITE, FRAME_CHECK, CF_ERROR_CLEAR on their own paths. What is asked while a capture is held, and that the copy ends
with its own command, is the model's choice (log 59). -/
def Obligations.CaptureAndReadback : Prop :=
  ∀ (s : State), asleep s.dev = false →
    let d := s.dev
    (linkBusy d = false → ∀ t : TreeId,
      let d' := modCf (fun c => { c with capTree := BitVec.ofNat 5 t.1 }) d
      (∀ c, captureFault d'.cf t.1 d'.cf.capRegions = some c →
        exec (.captureStart t) s = nextWith s (logConf c (capDetail d'.cf.capRegions) d')) ∧
      (captureFault d'.cf t.1 d'.cf.capRegions = none → exec (.captureStart t) s = nextWith s (modCf (fun c =>
        { c with capState := .armed, capHeld := c.capRegions, capArmTree := BitVec.ofNat 5 t.1,
                 capTrigger := 2 ^ 32 * c.capAtHi.toNat + c.capAtLo.toNat }) d'))) ∧
    (d.cf.capState = .armed →
      (d.cf.capTrigger ≤ d.now → treeMoves d d.cf.capArmTree.toNat = true → exec .captureEdge s =
        nextWith s (modCf (fun c => { takeCapture c.capHeld d c with capState := .copying }) d)) ∧
      (d.now < d.cf.capTrigger → exec .captureEdge s = nextWith s d) ∧
      (d.cf.capTrigger + 2684355 ≤ d.now → exec .captureTimeout s = nextWith s (modCf (fun c =>
        { c with capState := .timedOut, capHeld := 0 }) (logConf 0x0313 (capDetail d.cf.capHeld) d)))) ∧
    (d.cf.capState = .copying → exec .captureCopyDone s = nextWith s (modCf (fun c => { c with capState := .held }) d)) ∧
    (linkBusy d = false → d.cf.capState = .held →
      exec .captureRelease s = nextWith s (modCf (fun c =>
        { c with capState := .idle, capHeld := 0, capFlops := [], capRam := [], capPins := [] }) d)) ∧
    (linkBusy d = false → d.cf.capState = .armed ∨ d.cf.capState = .copying →
      exec .captureCancel s = nextWith s (modCf (fun c =>
        { c with capState := .idle, capHeld := 0, capFlops := [], capRam := [], capPins := [] }) d)) ∧
    (linkBusy d = false → ∀ v : Bool, exec (.clockStopWrite v) s = nextWith s (
      if d.cf.stop = v then d else modCf (fun c => { c with stop := v, stopSheet := d.sheet }) d)) ∧
    (d.point = 0 → d.cf.stopSheet < d.sheet →
      (d.cf.stop = true → d.cf.stopped = false → exec .fountStopped s = nextWith s (modCf (fun c =>
        { c with stopped := true, held := c.held ||| c.regions }) d)) ∧
      (d.cf.stop = false → d.cf.stopped = true → exec .fountResumed s = nextWith s (modCf (fun c =>
        { releaseOutputs (c.regions &&& ~~~(loadShadows c)) c with stopped := false }) d))) ∧
    (linkBusy d = false → ∀ v : Word,
      let x := windowFrame d (fieldN v 30 29) (fieldN v 19 0)
      exec (.readSelWrite v) s = nextWith s (modCf (fun c =>
        { c with readSource := field v 30 29, readFrame := field v 19 0, readOk := x.isSome,
                 readData := (x.map (·.1)).getD 0, readCheck := (x.map (·.2)).getD 0 }) d)) ∧
    (d.cf.frameCheck = true →
      let n := d.cf.sweep
      let d' := modCf (fun c => { c with sweep := (n + 1) % frameCount }) d
      exec .frameCheck s = nextWith s (
        if smapGet 0 d.cf.badChecks n = 0 then d'
        else logConf 0x0316 { frame := linearFar n }
          (modCf (fun c => { c with upset := true, upsetFrame := BitVec.ofNat 20 (linearFar n) }) d'))) ∧
    (linkBusy d = false → exec .cfErrorClear s = nextWith s (modCf (fun c => { c with errorReg := 0, errorFar := 0 }) d))
/-- HBM_WINDOW_READ, HBM_WINDOW_WRITE, USER_WINDOW_READ, USER_WINDOW_WRITE, USER_WINDOW_TIMEOUT, HOST_READ_COMPLETION.
That reads wait in order of arrival behind a posted write, that an address is taken when nothing is ahead, that a window request is a
service like any other, and that one command carries all completions of a pull, are the model's choice (logs 92, 101); so are the
bytes that a poisoned completion carries (free) and the outcomes of pieces (log 64). -/
def Obligations.WindowsAndPulls : Prop :=
  ∀ (s : State), asleep s.dev = false →
    let d := s.dev
    (linkBusy d = true →
      (∀ (o : BitVec 36) (n : BitVec 13),
        exec (.hbmWindowRead o n) s = nextWith s (holdLink (.windowRead o none n.toNat) d)) ∧
      (∀ (o : BitVec 36) v b,
        exec (.hbmWindowWrite o v b) s = nextWith s (holdLink (.windowWrite o none v b) d)) ∧
      (∀ (o : BitVec 28) (l : BitVec 10),
        exec (.userWindowRead o l) s = nextWith s (holdLink (.row (.userWindowRead o l)) d)) ∧
      (∀ (o : BitVec 28) v b, exec (.userWindowWrite o v b) s = nextWith s (holdLink (.row (.userWindowWrite o v b)) d))) ∧
    (d.host.linkUp = true → linkBusy d = false →
      (bit d.host.flr 1 = false →
        (∀ (o : BitVec 36) (n : BitVec 13),
          let a := windowAddr d o
          (windowState d a n.toNat = .waits →
            exec (.hbmWindowRead o n) s = nextWith s (holdLink (.windowRead o (some a) n.toNat) d)) ∧
          (windowState d a n.toNat = .beyond →
            exec (.hbmWindowRead o n) s = nextWith s (complete .pf1 .abort (logHost 0x0708 d))) ∧
          (windowState d a n.toNat = .filling →
            exec (.hbmWindowRead o n) s = nextWith s (complete .pf1 .abort (logNotReady a d))) ∧
          (windowState d a n.toNat = .ready →
            let d0 := windowServices a n.toNat d
            (hbmRetired d0 a n.toNat = true → exec (.hbmWindowRead o n) s =
              nextWith s (completePoisoned .pf1 n.toNat (logRetired (retiredAt d0 a n.toNat) 5 d0))) ∧
            (hbmRetired d0 a n.toNat = false → ∀ d' v,
              (readHbm a n.toNat 5 none (noteRead a n.toNat 5 none d0) = (d', v, none) →
                exec (.hbmWindowRead o n) s = nextWith s (complete .pf1 (.data v) d')) ∧
              (∀ id e, readHbm a n.toNat 5 none (noteRead a n.toNat 5 none d0) = (d', v, some (id, e)) → exec (.hbmWindowRead o n) s =
                nextWith s (completePoisoned .pf1 n.toNat (logStored id 5 none e d')))))) ∧
        (∀ (o : BitVec 36) (v : List Byte),
          exec (.hbmWindowWrite o v true) s =
            nextWith s (logHost 0x0707 (notePoison .pf1 d)) ∧
          (let a := windowAddr d o
           (windowState d a v.length = .waits →
             exec (.hbmWindowWrite o v false) s = nextWith s (holdLink (.windowWrite o (some a) v false) d)) ∧
           (windowState d a v.length = .ready → exec (.hbmWindowWrite o v false) s =
            nextWith s (windowPieces a v (windowServices a v.length d)))))) ∧
      (bit d.host.flr 2 = false → ∀ o : BitVec 28,
        let r := userRegion o
        let f := userOffset o
        let n := d.host.userNext
        (∀ l : BitVec 10, userOk d r = true → l.toNat ≤ 512 →
          exec (.userWindowRead o l) s = nextWith s (modPort r (fun x => { x with reads := x.reads ++
            [{ origin := .user n, chan := 0, stream := 0xFFF, addr := f / 64 * 64,
               units := max 1 ((f % 64 + l.toNat + 63) / 64) }] })
            (addUser ⟨n, r, f, l.toNat, false, [], d.now⟩ d))) ∧
        (∀ l : BitVec 10, userOk d r = false →
          exec (.userWindowRead o l) s = nextWith s (complete .pf2 .abort (logHost 0x070A d))) ∧
        (∀ v : List Byte, userOk d r = true → f % 64 = 0 → v.length % 64 = 0 → v ≠ [] →
          exec (.userWindowWrite o v false) s = nextWith s (modPort r (fun x => { x with pushes := x.pushes ++
            [{ origin := .user n, chan := 0, stream := 0xFFF, addr := f, data := v }] })
            (addUser ⟨n, r, f, v.length, true, v, d.now⟩ d))) ∧
        (∀ v : List Byte, exec (.userWindowWrite o v true) s = nextWith s (logHost 0x0707 (notePoison .pf2 d))) ∧
        (∀ v : List Byte, userOk d r = false →
          exec (.userWindowWrite o v false) s = nextWith s (logHost 0x070A d)))) ∧
    (∀ i q, d.host.user[i]? = some q →
      (d.now < q.arrived + 4096 → exec (.userWindowTimeout i) s = nextWith s d) ∧
      (q.arrived + 4096 ≤ d.now →
        let d' := logHost 0x0709 (withdrawUser q (dropUser q.serial d))
        exec (.userWindowTimeout i) s = nextWith s (if q.write then d' else complete .pf2 .abort d'))) ∧
    (∀ i m, d.chase.hostPulls[i]? = some m →
      let d' := modChase (fun c => { c with hostPulls := removeAt c.hostPulls i }) d
      exec (.hostReadCompletion i .failed) s = nextWith s (pullFails m d') ∧
      exec (.hostReadCompletion i .poisoned) s =
        nextWith s (pullFails m (notePoison .pf1 d')) ∧
      (∀ v x, v.length = m.len → findTx d' m.init m.tag = some x → exec (.hostReadCompletion i (.data v)) s =
        nextWith s (sendFlits m.dst [m.rcv] m.tag m.stream m.slot m.init v d')))

/-- RING_ENABLE, PQ_ENABLE, PQ_HEAD_WRITE, HOLDOFF_END, LINK_DOWN, HOST_LINK_UP on their own paths. That the writes wait behind a
posted write is the model's reading (log 92); that disabling a busy ring closes it first, and the records that wait, are log 63 and
the rows' own. -/
def Obligations.RingsQueuesAndLink : Prop :=
  ∀ (s : State), asleep s.dev = false →
    let d := s.dev
    (linkBusy d = true → (∀ r v b, exec (.ringEnable r v b) s = nextWith s (holdLink (.row (.ringEnable r v b)) d)) ∧
      (∀ q v b, exec (.pqEnable q v b) s = nextWith s (holdLink (.row (.pqEnable q v b)) d)) ∧
      (∀ q v b, exec (.pqHeadWrite q v b) s = nextWith s (holdLink (.row (.pqHeadWrite q v b)) d))) ∧
    (fnServes d .pf1 = true → linkBusy d = false →
      (∀ r v, exec (.ringEnable r v true) s = nextWith s (poisonedWrite .pf1 d)) ∧
      (∀ q v, exec (.pqEnable q v true) s = nextWith s (poisonedWrite .pf1 d)) ∧
      (∀ q v, exec (.pqHeadWrite q v true) s = nextWith s (poisonedWrite .pf1 d)) ∧
      (∀ (r : RingId) (v : Word),
        let x := vgetN {} d.host.rings r.1
        (x.enable = false → 2 ≤ fieldN v 12 0 → fieldN v 12 0 ≤ 4096 →
          let d' := modRing r.1 (fun x => { x with pq := field v 18 16, size := field v 12 0 }) d
          exec (.ringEnable r v) s = nextWith s (
            if bit v 31 then logRing r.1 true (modRing r.1 (fun x => { x with enable := true, head := 0, tail := 0 }) d')
            else d')) ∧
        (x.enable = true → bit v 31 = false → x.closing = false →
          let d' := logRing r.1 false d
          (ringBusy d' r.1 = true →
            exec (.ringEnable r v) s = nextWith s (modRing r.1 (fun x => { x with closing := true }) d')) ∧
          (ringBusy d' r.1 = false → exec (.ringEnable r v) s =
            nextWith s (modHost (fun h => { h with doorbells := h.doorbells.filter (·.ring ≠ r.1) })
              (modRing r.1 (fun x => { x with enable := false }) d'))))) ∧
      (∀ (q : PqId) (v : Word), 4 ≤ fieldN v 20 16 → fieldN v 20 16 ≤ 16 →
        let d' := modPq q.1 (fun x =>
          { x with enable := bit v 31, vector := field v 29 24, log2size := field v 20 16, holdoff := field v 15 0 }) d
        exec (.pqEnable q v) s = nextWith s (
          if bit v 31 = true ∧ (pqueue d q.1).enable = false then
            roomPq q.1 (modPq q.1 (fun x => { x with head := 0, tail := 0, phase := true, holding := [] }) d')
          else d')) ∧
      (∀ (q : PqId) (h : BitVec 16), h.toNat < pqSlots (pqueue d q.1) →
        exec (.pqHeadWrite q h) s = nextWith s (roomPq q.1 (modPq q.1 (fun x => { x with head := h }) d)))) ∧
    (∀ (q : PqId) t, (pqueue d q.1).holdUntil = some t →
      (d.now < t → exec (.holdoffEnd q) s = nextWith s d) ∧
      (t ≤ d.now →
        let x := pqueue d q.1
        let d' := modPq q.1 (fun x => { x with holdUntil := none }) d
        exec (.holdoffEnd q) s = nextWith s (
          if x.pendingV = true ∧ x.head ≠ x.tail then
            modPq q.1 (fun x => { x with pendingV := false }) (startHoldoff q.1 (sendVector x.vector.toNat d'))
          else d'))) ∧
    exec .linkDown s =
      nextWith s (modHost (fun h => { h with linkUp := false, linkRate := 0, linkWidth := 0, linkFlit := false }) d) ∧
    (∀ (rate width : BitVec 4) (flit : Bool), exec (.hostLinkUp rate width flit) s =
      nextWith s ((List.range 8).foldl (fun d q => roomPq q d)
        (modHost (fun h => { h with linkUp := true, linkRate := rate, linkWidth := width, linkFlit := flit }) d)))

/-- DEVICE_RESET, RAIL_FAULT, FOREMAN_STARTED, FLR_PF0, FLR_PF1, FLR_PF2, FLR_COMPLETE, HOT_RESET, D3HOT_ENTRY, FUNCTION_D0.
That device reset is not turned away by a sleeping part, what `wiped` keeps, the order of an FLR, the configuration registers that an
FLR resets, and the request of D3hot are the model's choice (logs 69, 80, 81, 82, 83, 104). -/
def Obligations.ResetsOfThePart : Prop :=
  ∀ (s : State),
    let d := s.dev
    (inReset d = false →
      let w (d : Device) := wiped (cutStoreWrites (endSession 0 4 4 d))
      exec (.deviceReset .porLow) s = nextWith s (modTrust (fun t => { t with porLow := true, railsBad := t.railsBad || false }) (w d)) ∧
      (let d' := modTrust (fun t => { t with porLow := t.porLow || false, railsBad := true })
        (wiped (loseLog (cutStoreWrites (endSession 0 4 4 d))))
       exec .railFault s = nextWith s d' ∧
       exec (.deviceReset .railsBad) s = nextWith s { d' with
         power := { d'.power with padArm := 0, padHeld := 0, pads := Vector.replicate 8 {}, tripped := false, sbAddr := d'.trust.store.sideband },
         hbmStacks := resetStacks d'.part })) ∧
    (inReset d = true → d.power.tripped = false →
      let d' := modForron (fun f => { f with inc := BitVec.ofNat 16 (nextCount d.trust.store.powerOns), countPending := true })
        (modTrust (fun t => { t with porLow := false, railsBad := false }) d)
      exec (.deviceReset .release) s =
        nextWith s (updateStretch (rebudget 0x10 2 .powerUnit
          (emit (.cfDone true) (bootCheck (logAct 0xA 0 0 0 4 0 0xFF (newChallenge d'))))))) ∧
    (asleep d = false →
      (∀ i, d.trust.booting = some i →
        let d' := modErrata (fun e => { e with paused := false }) (modPower (fun w => { w with deepWake := false })
          (modTrust (fun t => { t with running := some i, booting := none }) d))
        let es := ((List.range 8).filter (stackPresent d.part)).map (refreshEntry d')
        exec .foremanStarted s = nextWith s (if d.chase.routed then d' else
          modChase (fun c => { c with routed := true })
            (writeEntries ((freeIndices (65536 + d'.mkr.table.length) 0 d'.mkr.table es.length).zip es) d'))) ∧
      (let d1 := (List.range 16).foldl flrForme ((List.range 128).foldl flrPress (logFlr 1 1 1 d))
       let d2 := modForron (fun f =>
         { f with inc := if f.inc = 0xFFFF then 1 else f.inc + 1, inbox := [], rx := [], engines := Vector.replicate 2 none }) d1
       let d3 := (List.range 8).foldl (fun d n => modStack n (fun x => { x with ce := 0, ue := 0, replays := 0, fatal := 0 }) d)
         ((List.range 24).foldl flrQuad d2)
       exec .flrPf1 s = nextWith s (settleDomains (modMk (fun m =>
         { m with table := m.table.filter (fun ie => eSlot ie.2 = 0xFFF), tickets := [], admission := none, accepted := 0,
                  refused := 0, broken := 0 }) (modHost flrHost d3)))) ∧
      (d.cf.load = none →
        let d0 := stagedReset (logFlr 1 2 2 d)
        let d1 := if d0.cf.capState = .timedOut then d0 else modCf cancelCapture d0
        let d2 := modFount (fun f => { f with feedWait := Vector.replicate 32 0, slips := Vector.replicate 24 0 })
          (d1.host.user.foldl (fun d q => withdrawUser q d) d1)
        exec .flrPf2 s = nextWith s (modHost (fun h => flrFunction .pf2 { h with user := [] }) d2)) ∧
      (let d1 := modErrata (fun e => { e with paused := true })
         (modTrust (fun t => { t with cmd := none }) (bootCheck (endSession (reqRole d .pf0) 0 3 (logFlr (reqRole d .pf0) 0 0 d))))
       exec .flrPf0 s =
         nextWith s (modHost (flrFunction .pf0) d1)) ∧
      (∀ (fn : FnId) (h : HostIf), (flrFunction fn h).flr = setField h.flr (fnIndex fn) (fnIndex fn) 1 ∧
        (flrFunction fn h).aer = h.aer ∧ vgetN 0 (flrFunction fn h).command (fnIndex fn) = 0) ∧
      exec .hotReset s = nextWith s (flrPf0 0 4 (flrPf2 (flrPf1 (logFlr 0 4 0xFF d)))) ∧
      (∀ fn : FnId, exec (.flrComplete fn) s =
        nextWith s (modHost (fun h => { h with flr := setField h.flr (fnIndex fn) (fnIndex fn) 0 }) d)) ∧
      (∀ fns : BitVec 3,
        let d' := modHost (fun h => { h with d3hot := h.d3hot ||| fns }) d
        let st := if bit d.trust.store.policy 0 then PwState.stand else .idle
        (d.host.d3hot = 7 ∨ d.host.d3hot ||| fns ≠ 7 → exec (.d3hotEntry fns) s = nextWith s d') ∧
        (d.host.d3hot ≠ 7 → d.host.d3hot ||| fns = 7 → exec (.d3hotEntry fns) s =
          nextWith s (requestState st .d3hot (logAct 8 1 0 0 4 addrPwCtrl (BitVec.ofNat 256 (pwCode st)) d')))) ∧
      (∀ fn : FnId, exec (.functionD0 fn) s = nextWith s (wakeEvent 4 none .host
        (modHost (fun h => { h with d3hot := setField h.d3hot (fnIndex fn) (fnIndex fn) 0 }) d))))
/-- ERRATA_SPILL, ER_READ, ER_CLEAR_LOST, FIRST_ERROR_CLEAR, ABORT_COMPLETE, ABORT_DEADLINE on their own paths. The read in a reset of PF0,
waiting behind a posted write, and when an abort counts as complete, are the model's choice (logs 93, 92, 65). -/
def Obligations.ErrataAndAborts : Prop :=
  ∀ (s : State), asleep s.dev = false →
    let d := s.dev
    let q := d.host.errataPq.toNat
    let offers : Prop := d.errata.spill = true ∧ d.errata.paused = false ∧ d.errata.unspilled ≠ 0 ∧
      (pqueue d q).enable = true ∧ (pqueue d q).holding.length < 256
    (offers → exec .errataSpill s = nextWith s (postRec q (oldestEntry d.errata)
      (modErrata (fun e => { e with unspilled := e.unspilled - 1 }) d))) ∧
    (¬ offers → exec .errataSpill s = nextWith s d) ∧
    (∀ be, fnServes d .pf0 = true → linkBusy d = false →
      let l := recBytes (smapGet {} d.errata.ring d.errata.readIndex.toNat) false
      exec (.erRead be) s = nextWith s (modErrata (fun e => { e with readCopy := BitVec.ofNat 512 (leNat l) })
        (emit (.completion .pf0 (.data (enabledBytes be (BitVec.ofNat 32 (leAt l 0 4))))) d))) ∧
    (∀ be, d.host.linkUp = false → exec (.erRead be) s = nextWith s d) ∧
    (∀ be, d.host.linkUp = true → linkBusy d = false → bit d.host.flr 0 = true →
      exec (.erRead be) s = nextWith s (complete .pf0 .unsupported d)) ∧
    (linkBusy d = true → exec .erClearLost s = nextWith s (holdLink (.row .erClearLost) d) ∧
      ∀ u, exec (.firstErrorClear u) s = nextWith s (holdLink (.row (.firstErrorClear u)) d)) ∧
    (linkBusy d = false →
    exec .erClearLost s = nextWith s (modErrata (fun e => { e with lost := 0, overflow := false }) d) ∧
    (∀ p, exec (.firstErrorClear (.press p)) s = nextWith s (if fenced d p.1 then logPress p.1 0x0A01 false d
      else modPress p.1 (fun x => { x with cap := {} }) d)) ∧
    (∀ f, exec (.firstErrorClear (.forme f)) s = nextWith s (modForme f.1 (fun x => { x with cap := {} }) d)) ∧
    (∀ n, exec (.firstErrorClear (.stack n)) s = nextWith s (modStack n.1 (fun x => { x with cap := {} }) d)) ∧
    (∀ k, exec (.firstErrorClear (.quad k)) s = nextWith s (modQuad k.1 (fun x => { x with cap := {} }) d)) ∧
    exec (.firstErrorClear .chase) s = nextWith s (modErrata (fun e => { e with chaseCap := {} }) d)) ∧
    (∀ id t a, ticketById d id = some t → t.abort = some a →
      let ended : Prop := a.cancelled = true ∧ (taskPresses d t.slot).all (abortDoneAt d) = true
      (ended → exec (.abortComplete id) s = nextWith s (finishAbort t a d)) ∧
      (¬ ended → exec (.abortComplete id) s = nextWith s d)) ∧
    (∀ p,
      let r := (press d p).recovery
      (r.state = .resetting ∨ r.state = .powerCycling ∨ r.state = .offline → abortDoneAt d p = true) ∧
      (r.state = .inService → abortDoneAt d p = pressQuiet d p) ∧
      (r.state = .fenced ∨ r.state = .draining → abortDoneAt d p = (pressQuiet d p && r.lastCause ≠ 3))) ∧
    (∀ (p : PressId) t a, (pressTask d p.1).bind (ticketOf d) = some t → t.abort = some a → pressQuiet d p.1 = false →
      fenced d p.1 = false →
      (a.t0.toNat + 2 + a.bound ≤ d.now → exec (.abortDeadline p) s =
        nextWith s (faultTask t.slot 0x0A04 (unitPress p.1) { phase := 3 } none (closeFrisket p.1 3 d))) ∧
      (d.now < a.t0.toNat + 2 + a.bound → exec (.abortDeadline p) s = nextWith s d))

/-- PS_RESET_REQUESTED, PS_INTERNAL, PRESS_QUIET, DRAIN_BOUND_EXPIRED, PRESS_RESET_DONE, RESET_BOUND_EXPIRED,
POWER_CYCLE_BOUND_EXPIRED on their own paths. The points at which a step ends, and the records of the steps, are the model's
reading (log 66); waiting on the link is log 92. -/
def Obligations.PressRecovers : Prop :=
  ∀ (s : State) (p : PressId), asleep s.dev = false →
    let d := s.dev
    let r := (press d p.1).recovery
    (∀ q : Requester, (q = .foreman ∨ linkBusy d = false) → exec (.psResetRequested q p) s = nextWith s (withRight (lockable d q 4) q
      (0x900000 + 0x40000 * (p.1 / 8) + 0x4000 * (p.1 % 8) + 0xF40) 1 (fun d =>
        if fenced d p.1 then d
        else
          let d := closeFrisket p.1 1 d
          match (pressTask d p.1).bind (ticketOf d) with
          | none => logPress p.1 0x0A03 false d
          | some t =>
            if t.abort.isSome then faultTask t.slot 0x0A03 (unitPress p.1) { phase := 3 } none d
            else preemptAbort p.1 ((taskPresses d t.slot).foldl (fun d q =>
              modPress q (fun x => { x with preempt := if x.preempt = .none || x.preempt = .pausing then .requested else x.preempt }) d) d)) d)) ∧
    (∀ pl, fenced d p.1 = false → exec (.psInternal p pl) s =
      nextWith s (faultTask ((pressTask (closeFrisket p.1 2 d) p.1).getD 0x1000) 0x0A02
        (match pl with | some y => unitPlaten p.1 y | none => unitPress p.1) (internalCtx (press d p.1) p.1 pl) none
        (closeFrisket p.1 2 d))) ∧
    (recNow d.now r = .draining →
      (pressQuiet d p.1 = true → runningTask d p.1 = none → exec (.pressQuiet p) s =
        nextWith s (modRecovery p.1 (fun r => { r with state := .resetting, stepAt := d.now }) d)) ∧
      (r.closedAt + 2 + r.drainPt ≤ d.now → exec (.drainBoundExpired p) s =
        nextWith s (beginReset p.1 (abandonPress p.1 (logPress p.1 0x0A05 false (match runningTask d p.1 with
          | some t => faultTask t.slot 0x0A03 (unitPress p.1) { phase := 3 } none d
          | none => d))))) ∧
      (d.now < r.closedAt + 2 + r.drainPt → exec (.drainBoundExpired p) s = nextWith s d)) ∧
    (r.state = .resetting →
      exec (.pressResetDone p) s = nextWith s (reopen p.1 (resetPress p.1 d)) ∧
      exec (.resetBoundExpired p) s =
        nextWith s (if r.stepAt + 2048 ≤ d.now then beginCycle p.1 (logPress p.1 0x0A06 false d) else d)) ∧
    (r.state = .powerCycling →
      exec (.pressResetDone p) s = nextWith s (if domainOn d p.1 then reopen p.1 (resetPress p.1 d) else d) ∧
      exec (.powerCycleBoundExpired p) s = nextWith s (if r.stepAt + 8192 ≤ d.now then goOffline p.1 d else d))

/-- POWER_STATE_REQUEST, STATE_CHANGE_START, STATE_ENTRY_STEP_DONE, SIDEBAND_ADDRESS_MATCH, SIDEBAND_READ, LATCHED_WAKE,
WAKE_AT_ARM on their own paths. When changes take force, direct requests for Deep, the step commands, PW_WAKE_AT's waiting and the
sideband's answers are the model's choice (logs 67, 68, 70, 71, 84). -/
def Obligations.PowerStates : Prop :=
  ∀ (s : State),
    let d := s.dev
    (asleep d = false →
      (∀ (r : Requester) (v : BitVec 3) st, (r = .foreman ∨ linkBusy d = false) → pwState v.toNat = some st →
        let detail := BitVec.ofNat 256 v.toNat
        (stateRight d r st = false → exec (.powerStateRequest r v) s = nextWith s (logPlain unitPower 0x0801
          (pwDetail { src := pwCode d.power.state, dst := v.toNat })
          (logAct 8 (reqRole d r) 1 0x0801 (reqSource r) 0x300000 detail d))) ∧
        (stateRight d r st = true →
          (d.power.change = none → st ≠ d.power.state → (st = .stand ∨ st = .deep) → d.mkr.tickets ≠ [] →
            exec (.powerStateRequest r v) s = nextWith s
              (startChange st .host (logAct 8 (reqRole d r) 2 0x0802 (reqSource r) 0x300000 detail d))) ∧
          (d.power.change.isSome = true ∨ st = d.power.state ∨ awakeState st = true ∨ d.mkr.tickets = [] →
            exec (.powerStateRequest r v) s = nextWith s
              (requestState st .host (logAct 8 (reqRole d r) 0 0 (reqSource r) 0x300000 detail d))))) ∧
      (∀ st q, d.power.heldReq = some (st, q) → d.power.change = none → q ≠ .d3hot →
        exec .stateChangeStart s = nextWith s (startChange st q (modPower (fun w => { w with heldReq := none }) d))) ∧
      (∀ c, d.power.change = some c → c.wake = false →
        let d' := entryStep c.target c.step d
        ((stepDomains c.step).all (entryDone c.target d') = false → exec .stateEntryStepDone s = nextWith s d') ∧
        ((stepDomains c.step).all (entryDone c.target d') = true →
          let last := if c.target = .deep then 5 else 4
          (c.step = last → exec .stateEntryStepDone s = nextWith s (endEntry c.target d')) ∧
          (c.step ≠ last → exec .stateEntryStepDone s = nextWith s (entryStep c.target (c.step + 1)
            (modPower (fun w => { w with change := some { c with step := c.step + 1 } }) d'))))) ∧
      (linkBusy d = false → ∀ v : Word,
        let t := 2 ^ 32 * v.toNat + d.power.wakeAtLo.toNat
        let d' := modPower (fun w => { w with wakeAtHi := v, wakeWait := none }) (modMk (fun m =>
          { m with table := m.table.filter (fun ie => !(eSlot ie.2 = 0xFFF && eAction ie.2 = 6)) }) d)
        let e : BitVec 128 := place 128 127 108 (t / 4096) ||| place 128 107 96 (t % 4096) ||| place 128 95 92 6
          ||| place 128 91 80 0xFFF ||| place 128 47 44 6 ||| place 128 43 32 201 ||| 1#128
        (t < d.now → exec (.wakeAtArm v) s = nextWith s (wakeEvent 3 none .makeready d')) ∧
        (d.now ≤ t → t / 4096 ≤ d.sheet + 524287 → ∀ i, lowestFree d' = some i →
          exec (.wakeAtArm v) s = nextWith s (writeEntries [(i, e)] d')) ∧
        (d.now ≤ t → d.sheet + 524287 < t / 4096 ∨ lowestFree d' = none →
          exec (.wakeAtArm v) s = nextWith s (modPower (fun w => { w with wakeWait := some t }) d')))) ∧
    (inReset d = false → d.power.tripped = false →
      (∀ w : BitVec 8,
        let d' := times (emit (.sideband none)) w.toNat (emit .sidebandAck d)
        (d.power.state = .deep → d.power.change = none →
          exec (.sidebandAddressMatch w) s = nextWith s (wakeFromDeep d')) ∧
        (d.power.state = .stand → d.power.change = none → exec (.sidebandAddressMatch w) s =
          nextWith s (beginWake 1 (wakeTarget d') .sideband d')) ∧
        (awakeState d.power.state = true → d.power.change = none → exec (.sidebandAddressMatch w) s = nextWith s d')) ∧
      (awakeState d.power.state = true → d.power.deepWake = false → (∀ c, d.power.change = some c → c.wake = false) →
        exec .sidebandRead s = nextWith s (emit (.sideband (some (leBytes 4 (pwStatus d.power).toNat))) d)) ∧
      (d.power.state = .stand ∨ d.power.state = .deep ∨ d.power.deepWake = true →
        exec .sidebandRead s = nextWith s (emit (.sideband none) d)) ∧
      (∀ src asked, d.power.change = none → d.power.latched = some (src, asked) →
        (d.power.state = .stand → exec .latchedWake s = nextWith s
          (beginWake src.toNat (asked.getD (wakeTarget d)) (if src = 1 then .sideband else .host) d)) ∧
        (d.power.state = .deep → exec .latchedWake s = nextWith s (wakeFromDeep d))))

/-- PW_GATE_QUAD_WRITE, PW_GATE_REGION_WRITE, GOVERNOR_TICK, DOMAIN_POWER_GOOD, DOMAIN_FAULT, DOMAIN_OFF,
PAD_HOLD_RELEASE on their own paths. Domains that must stay on, failures and what the pins of a held region do after a release are
the model's choice (logs 67, 73, 58); the detail of PW_NOT_PERMITTED is log 84. -/
def Obligations.DomainsSwitch : Prop :=
  ∀ (s : State), asleep s.dev = false →
    let d := s.dev
    (∀ (r : Requester) (v : Word),
      let refused (d' : Device) : Device := if lockable d r 2 then d' else logPlain unitPower 0x0801 (pwDetail {}) d'
      (r = .foreman ∨ linkBusy d = false) →
        exec (.pwGateQuadWrite r v) s = nextWith s (refused (withRight (lockable d r 2) r 0x300020 v (fun d =>
          if awakeState d.power.state then
            (rangeFrom 152 24).foldl regate (modPower (fun w => { w with gateQuad := field v 23 0 }) d)
          else d) d)) ∧
        exec (.pwGateRegionWrite r v) s = nextWith s (refused (withRight (lockable d r 2) r 0x300024 v (fun d =>
          if awakeState d.power.state then
            (rangeFrom 176 24).foldl regate (modPower (fun w => { w with gateRegion := field v 23 0 }) d)
          else d) d))) ∧
    (d.now % 16 = 0 → d.power.lastTick ≠ some d.now →
      let d' := modPower (fun w =>
        { w with lastTick := some d.now,
                 tokens := BitVec.ofNat 8 (min w.cap.toNat (w.tokens.toNat + max 1 w.rate.toNat)) }) d
      exec .governorTick s = nextWith s (settleDomains (grantWakes d'.power.queue d'))) ∧
    (d.now % 16 ≠ 0 → exec .governorTick s = nextWith s d) ∧
    (∀ (n : DomainId), (domain d n.1).dstate = .waking → (domain d n.1).ramp.isSome = true →
      (n.1 < 152 → exec (.domainPowerGood n) s = nextWith s (modDomain n.1 (fun x => { x with ramp := none }) d)) ∧
      (∀ q, domKind n.1 = .quad q →
        exec (.domainPowerGood n) s = nextWith s (beginTraining (portOf d q) (domainUp n.1 d))) ∧
      (∀ r, domKind n.1 = .region r → exec (.domainPowerGood n) s = nextWith s (regionUp r (domainUp n.1 d))) ∧
      (200 ≤ n.1 → exec (.domainPowerGood n) s = nextWith s (domainUp n.1 d)) ∧
      (∀ t, (domain d n.1).ramp = some t →
        (d.now < t + 2 * domRamp n.1 → exec (.domainFault n) s = nextWith s d) ∧
        (t + 2 * domRamp n.1 ≤ d.now →
          let d' := logPlain unitPower 0x0805 (pwDetail { domain := n.1, req := 4 })
            (modDomain n.1 (fun x => { x with dstate := .goingOff, failed := true, held := false, ramp := none }) d)
          exec (.domainFault n) s = nextWith s (wakeCheck (if n.1 < 128 then goOffline n.1 d' else d'))))) ∧
    (∀ (n : DomainId), (domain d n.1).dstate = .goingOff →
      let d0 := beforeOff n.1 d
      let d' := domainOff n.1 (offState d0 n.1) d0
      (mayBeOff d0 n.1 = false → exec (.domainOff n) s = nextWith s d0) ∧
      (mayBeOff d0 n.1 = true → exec (.domainOff n) s =
        nextWith s (if pressCycling d' n.1 then govRequest n.1 true (dropRequest n.1 d') else settleDomain d' n.1))) ∧
    (linkBusy d = false → ∀ b : BitVec 8, exec (.padHoldRelease b) s = nextWith s (modPower (fun w =>
      { w with padHeld := w.padHeld &&& ~~~b }) (modCf (fun c =>
      { c with pinOpen := c.pinOpen ||| (b &&& d.power.padHeld &&& bankMask c.held) }) d)))

/-- PW_THROTTLE_APPLY, PW_THROTTLE_N, TEMPERATURE_CROSSING, DROOP_TRIP, POWER_WINDOW, PW_ALERT_N, STRETCH_HOLD_EXPIRED,
THERMAL_TRIP on their own paths. The points of release of the hot levels, the hold after a droop and what a record's episode covers
are the model's reading (log 72). -/
def Obligations.BudgetsAndStretch : Prop :=
  ∀ (s : State), asleep s.dev = false →
    let d := s.dev
    (∀ (r : Requester) (v : Word), (r = .foreman ∨ linkBusy d = false) → exec (.pwThrottleApply r v) s =
      nextWith s (withRight (lockable d r 3) r 0x300050 v (fun d =>
        let d := modPower (fun w => { w with opBudget := field v 24 16, lead := field v 7 0 }) d
        if bit v 31 then
          rebudget 0x20 (max 1 (fieldN v 7 0)) .host (modPower (fun w =>
            { w with applied := if (field v 24 16 : BitVec 9) = 0x1FF then none else some (field v 24 16) }) d)
        else d) d)) ∧
    (∀ low : Bool, exec (.pwThrottleN low) s =
      nextWith s (rebudget 0x10 2 .powerUnit (modPower (fun w => { w with pinLow := low }) d))) ∧
    (∀ c : BitVec 8,
      let t := c.toInt
      let l : Int := d.power.tempThrottle.toNat
      let hot := decide (l ≤ t) || (d.power.tempHot && decide (l - 5 < t))
      let level := decide (110 ≤ t) || (d.power.tempLevel && decide (105 ≤ t))
      exec (.temperatureCrossing c) s = nextWith s (updateStretch (rebudget 0x08 2 .powerUnit
        (modPower (fun w => { w with temp := c, tempHot := hot, tempLevel := level }) d)))) ∧
    exec (.droopTrip true) s =
      nextWith s (updateStretch (modPower (fun w => { w with droop := true, droopEnd := none }) d)) ∧
    (d.power.droop = true → d.power.droopEnd = none →
      exec (.droopTrip false) s = nextWith s (modPower (fun w => { w with droopEnd := some d.now }) d)) ∧
    (∀ t, d.power.droop = true → d.power.droopEnd = some t →
      (d.now < t + 64 → exec .stretchHoldExpired s = nextWith s d) ∧
      (t + 64 ≤ d.now → exec .stretchHoldExpired s =
        nextWith s (updateStretch (modPower (fun w => { w with droop := false, droopEnd := none }) d)))) ∧
    (d.now % 64 = 0 → d.power.lastWindow ≠ some d.now → ∀ v : BitVec 12,
      let above := decide (4 * effectiveNow d < v.toNat)
      let up := if above then min 4 (d.power.overRun + 1) else 0
      let down := if above then 0 else min 4 (d.power.underRun + 1)
      exec (.powerWindow v) s = nextWith s (updateStretch (modPower (fun w =>
        { w with power := v, lastWindow := some d.now, overRun := up, underRun := down,
                 powerOver := decide (up = 4) || (w.powerOver && !decide (down = 4)) }) d))) ∧
    (∀ low : Bool, exec (.pwAlertN low) s = nextWith s (updateStretch (modPower (fun w => { w with alert := low }) d))) ∧
    exec .thermalTrip s = nextWith s (emit .thermTrip (modPower (fun w => { w with tripped := true }) d))
/-- GET_CERT, GET_WRAP_KEY, QUOTE, LOG_READ, CLAIM, OPEN, CLOSE, TRANSFER, RELEASE, STORE_WRITE on their own paths. The order of a command's checks, the byte order of numbers and the encoding of signatures,
the draw of the primes, and waiting on the link are the model's choice (logs 77, 75, 76, 92). -/
def Obligations.MailboxCommands : Prop :=
  ∀ (s : State) (n : BitVec 14), asleep s.dev = false → linkBusy s.dev = false →
    let d := s.dev
    let k := mboxRead d 0 516
    let ka : Act := ⟨2, 1, keyDetail k⟩
    (d.trust.cmd.isSome = true →
      exec (.getCert n) s = nextWith s (logPlain unitTrust 0x0905 0 d) ∧
      exec (.claim n) s = nextWith s (logRefused 2 (reqRole d .pf0) 2 0x0905 0 1 (keyDetail k) d)) ∧
    (d.trust.cmd = none → d.trust.running.isSome = true →
      (n = 0 → exec (.getCert n) s = nextWith s (startCmd 1 0 (Config.certificate.take 4096) false d)) ∧
      (d.trust.identity = true →
        (n = 0 →
          let m := beBytes 512 (keyModulus wrapLabel) ++ beBytes 4 65537
          exec (.getWrapKey n) s = nextWith s (startCmd 2 0 (signed m d).1 false { d with free := d.free + 1 })) ∧
        (n = 64 → exec (.quote n) s =
          nextWith s (startCmd 3 0 (signed (quoteBytes (mboxRead d 0 64) d) d).1 false { d with free := d.free + 1 })) ∧
        (let f := leNat (mboxRead d 64 8)
         let c := leNat (mboxRead d 72 2)
         n = 74 → 1 ≤ c → c ≤ 64 → rangeHeld d.trust f c = true → exec (.logRead n) s =
          nextWith s (startCmd 4 0 (signed (readoutBytes (mboxRead d 0 64) f c d) d).1 false { d with free := d.free + 1 }))) ∧
      (storeBusy d = false → d.trust.logFails = false →
        (n = 516 → d.trust.store.installer = none → exec (.claim n) s = nextWith s (beginJob 0x10 ka (keyJob k) d)) ∧
        (d.trust.session = true →
          (n = 516 → exec (.transferOwner n) s = nextWith s (beginJob 0x13 ka (keyJob k) d)) ∧
          (n = 0 → exec (.releaseOwner n) s = nextWith s (endSession 2 0 2 (beginJob 0x14 ⟨2, 1, 0⟩ .release d))) ∧
          (∀ j, 4 ≤ n.toNat → mboxRead d 1 3 = [0, 0, 0] →
            let item := leNat (mboxRead d 0 1)
            (8 ≤ item → item ≤ 15 → d.trust.identity = true) →
            storeItem item (mboxRead d 4 (n.toNat - 4)) = some j →
            exec (.storeWrite n) s = nextWith s (beginJob 0x15 ⟨4, item, BitVec.ofNat 256 item⟩ j d))))) ∧
    (d.trust.cmd = none → d.trust.logFails = true → storeBusy d = false → d.trust.running.isSome = true → n = 516 →
      d.trust.store.installer = none → exec (.claim n) s = nextWith s (startCmd 0x10 0x0908 [] false
        (logRefused 2 (reqRole d .pf0) 2 0x0908 0 1 (keyDetail k) d))) ∧
    (d.trust.cmd = none →
      (d.trust.store.installer.isSome = true → n = 1024 → grantGood (mboxRead d 0 1024) d = true →
        let sheets := leAt (mboxRead d 0 1024) 4 4
        exec (.openSession n) s = nextWith s (newChallenge (startCmd 0x11 0 [] false (modTrust (fun t =>
          { t with session := true, sheets := BitVec.ofNat 25 sheets, granted := BitVec.ofNat 25 sheets })
          (actDone ⟨3, 4, sessionDetail sheets 0⟩ d))))) ∧
      (d.trust.session = true → n = 0 →
        exec (.closeSession n) s = nextWith s (startCmd 0x12 0 [] false (endSession 2 0 1 d))) ∧
      (d.trust.session = false →
        exec (.closeSession n) s = nextWith s (startCmd 0x12 0x0901 [] false
          (logRefused 3 (reqRole d .pf0) 1 0x0901 0 4 (sessionDetail 0 1) d))))

/-- FW_LOAD, FW_ACTIVATE, ROLLBACK_ADVANCE, SESSION_EXPIRED, STORE_WRITE_DONE, IDENTITY_DERIVED, LOG_ENTRY_DURABLE,
MAILBOX_COMMAND_DONE on their own paths. When a command's effect comes, the skipped power-on count, a count that cannot be
programmed, the copies at manufacture and what FW_LOAD logs are the model's choice (logs 77 to 81). -/
def Obligations.FirmwareAndStore : Prop :=
  ∀ (s : State) (n : BitVec 14), asleep s.dev = false →
    let d := s.dev
    (linkBusy d = false → d.trust.cmd = none → d.trust.session = true →
      (let off := leNat (mboxRead d 0 4)
       let len := leNat (mboxRead d 4 4)
       let x := 1 - activeSlot d
       off % 64 = 0 → 1 ≤ len → len ≤ 8128 → n.toNat = 8 + len → off + len ≤ 1048576 →
       let old : List (Nat × Byte) := match vgetN FwSlot.erased d.trust.slots x with
         | .written m => if d.trust.loading then m else []
         | _ => []
       let new := ((mboxRead d 8 len).foldl (fun (a : List (Nat × Byte) × Nat) b =>
         (smapSet 0xFF a.1 a.2 b, a.2 + 1)) (old, off)).1
       exec (.fwLoad n) s = nextWith s (startCmd 0x16 0 [] false (modTrust (fun t =>
         { t with loading := true, slots := vmodN t.slots x fun _ => .written new }) d))) ∧
      (∀ i, n = 0 → checkSlot d (1 - activeSlot d) = .ok i → d.trust.logFails = false →
        let head := slotHead (vgetN .erased d.trust.slots (1 - activeSlot d))
        let a : Act := ⟨5, 1 - activeSlot d, fwDetail head.1 head.2 d.trust.store.rollback.toNat⟩
        let d1 := modTrust (fun t => { t with activeB := decide (1 - activeSlot d = 1), loading := false })
          (logFlushed (actDone a d))
        exec (.fwActivate n) s = nextWith s (startCmd 0x17 0 [] false
          (if d1.trust.running.isNone then modTrust (fun t => { t with booting := some i }) (logStart i d1) else d1))) ∧
      (∀ i, n = 0 → d.trust.running = some i → storeBusy d = false → d.trust.logFails = false →
        let v := BitVec.ofNat 32 (max d.trust.store.rollback.toNat i.svn.toNat)
        exec (.rollbackAdvance n) s = nextWith s
          (beginJob 0x18 ⟨5, 6, fwDetail i.version.toNat i.svn.toNat v.toNat⟩ (.rollback v) d))) ∧
    (d.trust.sheets = 0 → exec .sessionExpired s = nextWith s (endSession 0 4 0 d)) ∧
    (d.trust.sheets ≠ 0 → exec .sessionExpired s = nextWith s d) ∧
    (d.forron.countPending = true → d.forron.countFailed = false → ∀ ok : Bool,
      let d' := modTrust (writeItems [7] (fun s => { s with powerOns := nextCount s.powerOns }) ok) d
      exec (.storeWriteDone ok) s = nextWith s (
        if ok then trainAll (modForron (fun f => { f with countPending := false }) d')
        else logPlain unitTrust 0x0908 0 (modForron (fun f => { f with countFailed := true }) d'))) ∧
    (d.forron.countPending = false ∨ d.forron.countFailed = true → ∀ j, d.trust.job = some j →
      let post (ok : Bool) (code : BitVec 16) (d : Device) : Device := modTrust (fun t =>
        { writeItems (jobItems j) (applyJob j) ok t with
            job := none, jobLog := none,
            cmd := t.cmd.map fun c => if c.store then { c with store := false, code := code } else c }) d
      exec (.storeWriteDone true) s = nextWith s ((rangeFrom 152 48).foldl regate (post true 0 d)) ∧
      exec (.storeWriteDone false) s = nextWith s ((rangeFrom 152 48).foldl regate (post false 0x0908
        (logPlain unitTrust 0x0908 ((d.trust.jobLog.map logHead).getD 0) d)))) ∧
    (∀ items g t, (writeItems items g true t).store = g t.store ∧ (writeItems items g false t).store = t.store) ∧
    (d.trust.running.isSome = true →
      exec .identityDerived s = nextWith s (modTrust (fun t => { t with identity := true }) d)) ∧
    (∀ ok : Bool, exec (.logEntryDurable ok) s = nextWith s (modTrust (fun t =>
      { t with log := if ok then firstDurable t.log else t.log, logFails := !ok }) d)) ∧
    (∀ c, d.trust.cmd = some c →
      (c.store = true → exec .mailboxCommandDone s = nextWith s d) ∧
      (c.store = false → exec .mailboxCommandDone s = nextWith s (modTrust (fun t =>
        { t with cmd := none, result := c.code, outLen := BitVec.ofNat 14 c.output.length,
                 mbox := mboxPut c.output t.mbox }) d)))
/-- Requests for receive space are granted in the order in which they arrived as soon as the whole chunk fits (R254, R257), an
engine refuses a chunk that disagrees with its collective (R364) and a changed feed map takes effect once no FEED holds the
feed (R412): none of the three ever stays undone from one command to the next. -/
def Obligations.StepKeepsFollowed : Prop :=
  ∀ s s' : State, Followed s.dev → step s = .next s' → Followed s'.dev

/-- The invariant of `StepKeepsFollowed` holds at `State.reset`. -/
def Obligations.ResetFollowed : Prop := Followed State.reset.dev

/-- A write that covers a whole block stores it with a new check word (R302); it supersedes the narrow writes that wait for
the block, and a read of it passes the mending stage with no error (R300). -/
def Obligations.MemoryReadsBack : Prop :=
  ∀ (m : Mem) (b k : Nat) (v : List Byte), m.wf = true → 0 < k → v.length = 32 * k →
    let m' := (memWrite m (32 * b) v).1
    m'.wf = true ∧ (memWrite m (32 * b) v).2 = [] ∧ memRead m' (32 * b) (32 * k) = (m', v, []) ∧
    (∀ a, a < 32 * b ∨ 32 * (b + k) ≤ a → memByte m' a = memByte m a) ∧
    m'.merge = m.merge.filter (fun e => !(decide (b ≤ e.block) && decide (e.block < b + k)))
end

