-- ==== Sys2Proof/Laws/State.lean ====
section
/-!
SUPPORT. Laws/State.lean: what an update of one part of the device leaves of every part, one lemma per field per update.
-/
namespace Sys2Proof.Machine

/-! ## modTime -/

@[simp] theorem modTime_part (g : PressTime → PressTime) (d : Device) : (modTime g d).part = d.part := rfl
@[simp] theorem modTime_out (g : PressTime → PressTime) (d : Device) : (modTime g d).out = d.out := rfl
@[simp] theorem modTime_free (g : PressTime → PressTime) (d : Device) : (modTime g d).free = d.free := rfl
@[simp] theorem modTime_time (g : PressTime → PressTime) (d : Device) : (modTime g d).time = g d.time := rfl
@[simp] theorem modTime_mkr (g : PressTime → PressTime) (d : Device) : (modTime g d).mkr = d.mkr := rfl
@[simp] theorem modTime_host (g : PressTime → PressTime) (d : Device) : (modTime g d).host = d.host := rfl
@[simp] theorem modTime_errata (g : PressTime → PressTime) (d : Device) : (modTime g d).errata = d.errata := rfl
@[simp] theorem modTime_formes (g : PressTime → PressTime) (d : Device) : (modTime g d).formes = d.formes := rfl
@[simp] theorem modTime_presses (g : PressTime → PressTime) (d : Device) : (modTime g d).presses = d.presses := rfl
@[simp] theorem modTime_chase (g : PressTime → PressTime) (d : Device) : (modTime g d).chase = d.chase := rfl
@[simp] theorem modTime_hbmStacks (g : PressTime → PressTime) (d : Device) : (modTime g d).hbmStacks = d.hbmStacks := rfl
@[simp] theorem modTime_hbm (g : PressTime → PressTime) (d : Device) : (modTime g d).hbm = d.hbm := rfl
@[simp] theorem modTime_quads (g : PressTime → PressTime) (d : Device) : (modTime g d).quads = d.quads := rfl
@[simp] theorem modTime_forron (g : PressTime → PressTime) (d : Device) : (modTime g d).forron = d.forron := rfl
@[simp] theorem modTime_fount (g : PressTime → PressTime) (d : Device) : (modTime g d).fount = d.fount := rfl
@[simp] theorem modTime_cf (g : PressTime → PressTime) (d : Device) : (modTime g d).cf = d.cf := rfl
@[simp] theorem modTime_power (g : PressTime → PressTime) (d : Device) : (modTime g d).power = d.power := rfl
@[simp] theorem modTime_trust (g : PressTime → PressTime) (d : Device) : (modTime g d).trust = d.trust := rfl

/-! ## modMk -/

@[simp] theorem modMk_part (g : Makeready → Makeready) (d : Device) : (modMk g d).part = d.part := rfl
@[simp] theorem modMk_out (g : Makeready → Makeready) (d : Device) : (modMk g d).out = d.out := rfl
@[simp] theorem modMk_free (g : Makeready → Makeready) (d : Device) : (modMk g d).free = d.free := rfl
@[simp] theorem modMk_time (g : Makeready → Makeready) (d : Device) : (modMk g d).time = d.time := rfl
@[simp] theorem modMk_mkr (g : Makeready → Makeready) (d : Device) : (modMk g d).mkr = g d.mkr := rfl
@[simp] theorem modMk_host (g : Makeready → Makeready) (d : Device) : (modMk g d).host = d.host := rfl
@[simp] theorem modMk_errata (g : Makeready → Makeready) (d : Device) : (modMk g d).errata = d.errata := rfl
@[simp] theorem modMk_formes (g : Makeready → Makeready) (d : Device) : (modMk g d).formes = d.formes := rfl
@[simp] theorem modMk_presses (g : Makeready → Makeready) (d : Device) : (modMk g d).presses = d.presses := rfl
@[simp] theorem modMk_chase (g : Makeready → Makeready) (d : Device) : (modMk g d).chase = d.chase := rfl
@[simp] theorem modMk_hbmStacks (g : Makeready → Makeready) (d : Device) : (modMk g d).hbmStacks = d.hbmStacks := rfl
@[simp] theorem modMk_hbm (g : Makeready → Makeready) (d : Device) : (modMk g d).hbm = d.hbm := rfl
@[simp] theorem modMk_quads (g : Makeready → Makeready) (d : Device) : (modMk g d).quads = d.quads := rfl
@[simp] theorem modMk_forron (g : Makeready → Makeready) (d : Device) : (modMk g d).forron = d.forron := rfl
@[simp] theorem modMk_fount (g : Makeready → Makeready) (d : Device) : (modMk g d).fount = d.fount := rfl
@[simp] theorem modMk_cf (g : Makeready → Makeready) (d : Device) : (modMk g d).cf = d.cf := rfl
@[simp] theorem modMk_power (g : Makeready → Makeready) (d : Device) : (modMk g d).power = d.power := rfl
@[simp] theorem modMk_trust (g : Makeready → Makeready) (d : Device) : (modMk g d).trust = d.trust := rfl

/-! ## modHost -/

@[simp] theorem modHost_part (g : HostIf → HostIf) (d : Device) : (modHost g d).part = d.part := rfl
@[simp] theorem modHost_out (g : HostIf → HostIf) (d : Device) : (modHost g d).out = d.out := rfl
@[simp] theorem modHost_free (g : HostIf → HostIf) (d : Device) : (modHost g d).free = d.free := rfl
@[simp] theorem modHost_time (g : HostIf → HostIf) (d : Device) : (modHost g d).time = d.time := rfl
@[simp] theorem modHost_mkr (g : HostIf → HostIf) (d : Device) : (modHost g d).mkr = d.mkr := rfl
@[simp] theorem modHost_host (g : HostIf → HostIf) (d : Device) : (modHost g d).host = g d.host := rfl
@[simp] theorem modHost_errata (g : HostIf → HostIf) (d : Device) : (modHost g d).errata = d.errata := rfl
@[simp] theorem modHost_formes (g : HostIf → HostIf) (d : Device) : (modHost g d).formes = d.formes := rfl
@[simp] theorem modHost_presses (g : HostIf → HostIf) (d : Device) : (modHost g d).presses = d.presses := rfl
@[simp] theorem modHost_chase (g : HostIf → HostIf) (d : Device) : (modHost g d).chase = d.chase := rfl
@[simp] theorem modHost_hbmStacks (g : HostIf → HostIf) (d : Device) : (modHost g d).hbmStacks = d.hbmStacks := rfl
@[simp] theorem modHost_hbm (g : HostIf → HostIf) (d : Device) : (modHost g d).hbm = d.hbm := rfl
@[simp] theorem modHost_quads (g : HostIf → HostIf) (d : Device) : (modHost g d).quads = d.quads := rfl
@[simp] theorem modHost_forron (g : HostIf → HostIf) (d : Device) : (modHost g d).forron = d.forron := rfl
@[simp] theorem modHost_fount (g : HostIf → HostIf) (d : Device) : (modHost g d).fount = d.fount := rfl
@[simp] theorem modHost_cf (g : HostIf → HostIf) (d : Device) : (modHost g d).cf = d.cf := rfl
@[simp] theorem modHost_power (g : HostIf → HostIf) (d : Device) : (modHost g d).power = d.power := rfl
@[simp] theorem modHost_trust (g : HostIf → HostIf) (d : Device) : (modHost g d).trust = d.trust := rfl

/-! ## modErrata -/

@[simp] theorem modErrata_part (g : Errata → Errata) (d : Device) : (modErrata g d).part = d.part := rfl
@[simp] theorem modErrata_out (g : Errata → Errata) (d : Device) : (modErrata g d).out = d.out := rfl
@[simp] theorem modErrata_free (g : Errata → Errata) (d : Device) : (modErrata g d).free = d.free := rfl
@[simp] theorem modErrata_time (g : Errata → Errata) (d : Device) : (modErrata g d).time = d.time := rfl
@[simp] theorem modErrata_mkr (g : Errata → Errata) (d : Device) : (modErrata g d).mkr = d.mkr := rfl
@[simp] theorem modErrata_host (g : Errata → Errata) (d : Device) : (modErrata g d).host = d.host := rfl
@[simp] theorem modErrata_errata (g : Errata → Errata) (d : Device) : (modErrata g d).errata = g d.errata := rfl
@[simp] theorem modErrata_formes (g : Errata → Errata) (d : Device) : (modErrata g d).formes = d.formes := rfl
@[simp] theorem modErrata_presses (g : Errata → Errata) (d : Device) : (modErrata g d).presses = d.presses := rfl
@[simp] theorem modErrata_chase (g : Errata → Errata) (d : Device) : (modErrata g d).chase = d.chase := rfl
@[simp] theorem modErrata_hbmStacks (g : Errata → Errata) (d : Device) : (modErrata g d).hbmStacks = d.hbmStacks := rfl
@[simp] theorem modErrata_hbm (g : Errata → Errata) (d : Device) : (modErrata g d).hbm = d.hbm := rfl
@[simp] theorem modErrata_quads (g : Errata → Errata) (d : Device) : (modErrata g d).quads = d.quads := rfl
@[simp] theorem modErrata_forron (g : Errata → Errata) (d : Device) : (modErrata g d).forron = d.forron := rfl
@[simp] theorem modErrata_fount (g : Errata → Errata) (d : Device) : (modErrata g d).fount = d.fount := rfl
@[simp] theorem modErrata_cf (g : Errata → Errata) (d : Device) : (modErrata g d).cf = d.cf := rfl
@[simp] theorem modErrata_power (g : Errata → Errata) (d : Device) : (modErrata g d).power = d.power := rfl
@[simp] theorem modErrata_trust (g : Errata → Errata) (d : Device) : (modErrata g d).trust = d.trust := rfl

/-! ## modChase -/

@[simp] theorem modChase_part (g : Chase → Chase) (d : Device) : (modChase g d).part = d.part := rfl
@[simp] theorem modChase_out (g : Chase → Chase) (d : Device) : (modChase g d).out = d.out := rfl
@[simp] theorem modChase_free (g : Chase → Chase) (d : Device) : (modChase g d).free = d.free := rfl
@[simp] theorem modChase_time (g : Chase → Chase) (d : Device) : (modChase g d).time = d.time := rfl
@[simp] theorem modChase_mkr (g : Chase → Chase) (d : Device) : (modChase g d).mkr = d.mkr := rfl
@[simp] theorem modChase_host (g : Chase → Chase) (d : Device) : (modChase g d).host = d.host := rfl
@[simp] theorem modChase_errata (g : Chase → Chase) (d : Device) : (modChase g d).errata = d.errata := rfl
@[simp] theorem modChase_formes (g : Chase → Chase) (d : Device) : (modChase g d).formes = d.formes := rfl
@[simp] theorem modChase_presses (g : Chase → Chase) (d : Device) : (modChase g d).presses = d.presses := rfl
@[simp] theorem modChase_chase (g : Chase → Chase) (d : Device) : (modChase g d).chase = g d.chase := rfl
@[simp] theorem modChase_hbmStacks (g : Chase → Chase) (d : Device) : (modChase g d).hbmStacks = d.hbmStacks := rfl
@[simp] theorem modChase_hbm (g : Chase → Chase) (d : Device) : (modChase g d).hbm = d.hbm := rfl
@[simp] theorem modChase_quads (g : Chase → Chase) (d : Device) : (modChase g d).quads = d.quads := rfl
@[simp] theorem modChase_forron (g : Chase → Chase) (d : Device) : (modChase g d).forron = d.forron := rfl
@[simp] theorem modChase_fount (g : Chase → Chase) (d : Device) : (modChase g d).fount = d.fount := rfl
@[simp] theorem modChase_cf (g : Chase → Chase) (d : Device) : (modChase g d).cf = d.cf := rfl
@[simp] theorem modChase_power (g : Chase → Chase) (d : Device) : (modChase g d).power = d.power := rfl
@[simp] theorem modChase_trust (g : Chase → Chase) (d : Device) : (modChase g d).trust = d.trust := rfl

/-! ## modHbm -/

@[simp] theorem modHbm_part (g : HbmCommon → HbmCommon) (d : Device) : (modHbm g d).part = d.part := rfl
@[simp] theorem modHbm_out (g : HbmCommon → HbmCommon) (d : Device) : (modHbm g d).out = d.out := rfl
@[simp] theorem modHbm_free (g : HbmCommon → HbmCommon) (d : Device) : (modHbm g d).free = d.free := rfl
@[simp] theorem modHbm_time (g : HbmCommon → HbmCommon) (d : Device) : (modHbm g d).time = d.time := rfl
@[simp] theorem modHbm_mkr (g : HbmCommon → HbmCommon) (d : Device) : (modHbm g d).mkr = d.mkr := rfl
@[simp] theorem modHbm_host (g : HbmCommon → HbmCommon) (d : Device) : (modHbm g d).host = d.host := rfl
@[simp] theorem modHbm_errata (g : HbmCommon → HbmCommon) (d : Device) : (modHbm g d).errata = d.errata := rfl
@[simp] theorem modHbm_formes (g : HbmCommon → HbmCommon) (d : Device) : (modHbm g d).formes = d.formes := rfl
@[simp] theorem modHbm_presses (g : HbmCommon → HbmCommon) (d : Device) : (modHbm g d).presses = d.presses := rfl
@[simp] theorem modHbm_chase (g : HbmCommon → HbmCommon) (d : Device) : (modHbm g d).chase = d.chase := rfl
@[simp] theorem modHbm_hbmStacks (g : HbmCommon → HbmCommon) (d : Device) : (modHbm g d).hbmStacks = d.hbmStacks := rfl
@[simp] theorem modHbm_hbm (g : HbmCommon → HbmCommon) (d : Device) : (modHbm g d).hbm = g d.hbm := rfl
@[simp] theorem modHbm_quads (g : HbmCommon → HbmCommon) (d : Device) : (modHbm g d).quads = d.quads := rfl
@[simp] theorem modHbm_forron (g : HbmCommon → HbmCommon) (d : Device) : (modHbm g d).forron = d.forron := rfl
@[simp] theorem modHbm_fount (g : HbmCommon → HbmCommon) (d : Device) : (modHbm g d).fount = d.fount := rfl
@[simp] theorem modHbm_cf (g : HbmCommon → HbmCommon) (d : Device) : (modHbm g d).cf = d.cf := rfl
@[simp] theorem modHbm_power (g : HbmCommon → HbmCommon) (d : Device) : (modHbm g d).power = d.power := rfl
@[simp] theorem modHbm_trust (g : HbmCommon → HbmCommon) (d : Device) : (modHbm g d).trust = d.trust := rfl

/-! ## modForron -/

@[simp] theorem modForron_part (g : Forron → Forron) (d : Device) : (modForron g d).part = d.part := rfl
@[simp] theorem modForron_out (g : Forron → Forron) (d : Device) : (modForron g d).out = d.out := rfl
@[simp] theorem modForron_free (g : Forron → Forron) (d : Device) : (modForron g d).free = d.free := rfl
@[simp] theorem modForron_time (g : Forron → Forron) (d : Device) : (modForron g d).time = d.time := rfl
@[simp] theorem modForron_mkr (g : Forron → Forron) (d : Device) : (modForron g d).mkr = d.mkr := rfl
@[simp] theorem modForron_host (g : Forron → Forron) (d : Device) : (modForron g d).host = d.host := rfl
@[simp] theorem modForron_errata (g : Forron → Forron) (d : Device) : (modForron g d).errata = d.errata := rfl
@[simp] theorem modForron_formes (g : Forron → Forron) (d : Device) : (modForron g d).formes = d.formes := rfl
@[simp] theorem modForron_presses (g : Forron → Forron) (d : Device) : (modForron g d).presses = d.presses := rfl
@[simp] theorem modForron_chase (g : Forron → Forron) (d : Device) : (modForron g d).chase = d.chase := rfl
@[simp] theorem modForron_hbmStacks (g : Forron → Forron) (d : Device) : (modForron g d).hbmStacks = d.hbmStacks := rfl
@[simp] theorem modForron_hbm (g : Forron → Forron) (d : Device) : (modForron g d).hbm = d.hbm := rfl
@[simp] theorem modForron_quads (g : Forron → Forron) (d : Device) : (modForron g d).quads = d.quads := rfl
@[simp] theorem modForron_forron (g : Forron → Forron) (d : Device) : (modForron g d).forron = g d.forron := rfl
@[simp] theorem modForron_fount (g : Forron → Forron) (d : Device) : (modForron g d).fount = d.fount := rfl
@[simp] theorem modForron_cf (g : Forron → Forron) (d : Device) : (modForron g d).cf = d.cf := rfl
@[simp] theorem modForron_power (g : Forron → Forron) (d : Device) : (modForron g d).power = d.power := rfl
@[simp] theorem modForron_trust (g : Forron → Forron) (d : Device) : (modForron g d).trust = d.trust := rfl

/-! ## modFount -/

@[simp] theorem modFount_part (g : Fount → Fount) (d : Device) : (modFount g d).part = d.part := rfl
@[simp] theorem modFount_out (g : Fount → Fount) (d : Device) : (modFount g d).out = d.out := rfl
@[simp] theorem modFount_free (g : Fount → Fount) (d : Device) : (modFount g d).free = d.free := rfl
@[simp] theorem modFount_time (g : Fount → Fount) (d : Device) : (modFount g d).time = d.time := rfl
@[simp] theorem modFount_mkr (g : Fount → Fount) (d : Device) : (modFount g d).mkr = d.mkr := rfl
@[simp] theorem modFount_host (g : Fount → Fount) (d : Device) : (modFount g d).host = d.host := rfl
@[simp] theorem modFount_errata (g : Fount → Fount) (d : Device) : (modFount g d).errata = d.errata := rfl
@[simp] theorem modFount_formes (g : Fount → Fount) (d : Device) : (modFount g d).formes = d.formes := rfl
@[simp] theorem modFount_presses (g : Fount → Fount) (d : Device) : (modFount g d).presses = d.presses := rfl
@[simp] theorem modFount_chase (g : Fount → Fount) (d : Device) : (modFount g d).chase = d.chase := rfl
@[simp] theorem modFount_hbmStacks (g : Fount → Fount) (d : Device) : (modFount g d).hbmStacks = d.hbmStacks := rfl
@[simp] theorem modFount_hbm (g : Fount → Fount) (d : Device) : (modFount g d).hbm = d.hbm := rfl
@[simp] theorem modFount_quads (g : Fount → Fount) (d : Device) : (modFount g d).quads = d.quads := rfl
@[simp] theorem modFount_forron (g : Fount → Fount) (d : Device) : (modFount g d).forron = d.forron := rfl
@[simp] theorem modFount_fount (g : Fount → Fount) (d : Device) : (modFount g d).fount = g d.fount := rfl
@[simp] theorem modFount_cf (g : Fount → Fount) (d : Device) : (modFount g d).cf = d.cf := rfl
@[simp] theorem modFount_power (g : Fount → Fount) (d : Device) : (modFount g d).power = d.power := rfl
@[simp] theorem modFount_trust (g : Fount → Fount) (d : Device) : (modFount g d).trust = d.trust := rfl

/-! ## modCf -/

@[simp] theorem modCf_part (g : Conf → Conf) (d : Device) : (modCf g d).part = d.part := rfl
@[simp] theorem modCf_out (g : Conf → Conf) (d : Device) : (modCf g d).out = d.out := rfl
@[simp] theorem modCf_free (g : Conf → Conf) (d : Device) : (modCf g d).free = d.free := rfl
@[simp] theorem modCf_time (g : Conf → Conf) (d : Device) : (modCf g d).time = d.time := rfl
@[simp] theorem modCf_mkr (g : Conf → Conf) (d : Device) : (modCf g d).mkr = d.mkr := rfl
@[simp] theorem modCf_host (g : Conf → Conf) (d : Device) : (modCf g d).host = d.host := rfl
@[simp] theorem modCf_errata (g : Conf → Conf) (d : Device) : (modCf g d).errata = d.errata := rfl
@[simp] theorem modCf_formes (g : Conf → Conf) (d : Device) : (modCf g d).formes = d.formes := rfl
@[simp] theorem modCf_presses (g : Conf → Conf) (d : Device) : (modCf g d).presses = d.presses := rfl
@[simp] theorem modCf_chase (g : Conf → Conf) (d : Device) : (modCf g d).chase = d.chase := rfl
@[simp] theorem modCf_hbmStacks (g : Conf → Conf) (d : Device) : (modCf g d).hbmStacks = d.hbmStacks := rfl
@[simp] theorem modCf_hbm (g : Conf → Conf) (d : Device) : (modCf g d).hbm = d.hbm := rfl
@[simp] theorem modCf_quads (g : Conf → Conf) (d : Device) : (modCf g d).quads = d.quads := rfl
@[simp] theorem modCf_forron (g : Conf → Conf) (d : Device) : (modCf g d).forron = d.forron := rfl
@[simp] theorem modCf_fount (g : Conf → Conf) (d : Device) : (modCf g d).fount = d.fount := rfl
@[simp] theorem modCf_cf (g : Conf → Conf) (d : Device) : (modCf g d).cf = g d.cf := rfl
@[simp] theorem modCf_power (g : Conf → Conf) (d : Device) : (modCf g d).power = d.power := rfl
@[simp] theorem modCf_trust (g : Conf → Conf) (d : Device) : (modCf g d).trust = d.trust := rfl

/-! ## modPower -/

@[simp] theorem modPower_part (g : Power → Power) (d : Device) : (modPower g d).part = d.part := rfl
@[simp] theorem modPower_out (g : Power → Power) (d : Device) : (modPower g d).out = d.out := rfl
@[simp] theorem modPower_free (g : Power → Power) (d : Device) : (modPower g d).free = d.free := rfl
@[simp] theorem modPower_time (g : Power → Power) (d : Device) : (modPower g d).time = d.time := rfl
@[simp] theorem modPower_mkr (g : Power → Power) (d : Device) : (modPower g d).mkr = d.mkr := rfl
@[simp] theorem modPower_host (g : Power → Power) (d : Device) : (modPower g d).host = d.host := rfl
@[simp] theorem modPower_errata (g : Power → Power) (d : Device) : (modPower g d).errata = d.errata := rfl
@[simp] theorem modPower_formes (g : Power → Power) (d : Device) : (modPower g d).formes = d.formes := rfl
@[simp] theorem modPower_presses (g : Power → Power) (d : Device) : (modPower g d).presses = d.presses := rfl
@[simp] theorem modPower_chase (g : Power → Power) (d : Device) : (modPower g d).chase = d.chase := rfl
@[simp] theorem modPower_hbmStacks (g : Power → Power) (d : Device) : (modPower g d).hbmStacks = d.hbmStacks := rfl
@[simp] theorem modPower_hbm (g : Power → Power) (d : Device) : (modPower g d).hbm = d.hbm := rfl
@[simp] theorem modPower_quads (g : Power → Power) (d : Device) : (modPower g d).quads = d.quads := rfl
@[simp] theorem modPower_forron (g : Power → Power) (d : Device) : (modPower g d).forron = d.forron := rfl
@[simp] theorem modPower_fount (g : Power → Power) (d : Device) : (modPower g d).fount = d.fount := rfl
@[simp] theorem modPower_cf (g : Power → Power) (d : Device) : (modPower g d).cf = d.cf := rfl
@[simp] theorem modPower_power (g : Power → Power) (d : Device) : (modPower g d).power = g d.power := rfl
@[simp] theorem modPower_trust (g : Power → Power) (d : Device) : (modPower g d).trust = d.trust := rfl

/-! ## modTrust -/

@[simp] theorem modTrust_part (g : Trust → Trust) (d : Device) : (modTrust g d).part = d.part := rfl
@[simp] theorem modTrust_out (g : Trust → Trust) (d : Device) : (modTrust g d).out = d.out := rfl
@[simp] theorem modTrust_free (g : Trust → Trust) (d : Device) : (modTrust g d).free = d.free := rfl
@[simp] theorem modTrust_time (g : Trust → Trust) (d : Device) : (modTrust g d).time = d.time := rfl
@[simp] theorem modTrust_mkr (g : Trust → Trust) (d : Device) : (modTrust g d).mkr = d.mkr := rfl
@[simp] theorem modTrust_host (g : Trust → Trust) (d : Device) : (modTrust g d).host = d.host := rfl
@[simp] theorem modTrust_errata (g : Trust → Trust) (d : Device) : (modTrust g d).errata = d.errata := rfl
@[simp] theorem modTrust_formes (g : Trust → Trust) (d : Device) : (modTrust g d).formes = d.formes := rfl
@[simp] theorem modTrust_presses (g : Trust → Trust) (d : Device) : (modTrust g d).presses = d.presses := rfl
@[simp] theorem modTrust_chase (g : Trust → Trust) (d : Device) : (modTrust g d).chase = d.chase := rfl
@[simp] theorem modTrust_hbmStacks (g : Trust → Trust) (d : Device) : (modTrust g d).hbmStacks = d.hbmStacks := rfl
@[simp] theorem modTrust_hbm (g : Trust → Trust) (d : Device) : (modTrust g d).hbm = d.hbm := rfl
@[simp] theorem modTrust_quads (g : Trust → Trust) (d : Device) : (modTrust g d).quads = d.quads := rfl
@[simp] theorem modTrust_forron (g : Trust → Trust) (d : Device) : (modTrust g d).forron = d.forron := rfl
@[simp] theorem modTrust_fount (g : Trust → Trust) (d : Device) : (modTrust g d).fount = d.fount := rfl
@[simp] theorem modTrust_cf (g : Trust → Trust) (d : Device) : (modTrust g d).cf = d.cf := rfl
@[simp] theorem modTrust_power (g : Trust → Trust) (d : Device) : (modTrust g d).power = d.power := rfl
@[simp] theorem modTrust_trust (g : Trust → Trust) (d : Device) : (modTrust g d).trust = g d.trust := rfl

/-! ## modForme -/

@[simp] theorem modForme_part (i : Nat) (g : Forme → Forme) (d : Device) : (modForme i g d).part = d.part := rfl
@[simp] theorem modForme_out (i : Nat) (g : Forme → Forme) (d : Device) : (modForme i g d).out = d.out := rfl
@[simp] theorem modForme_free (i : Nat) (g : Forme → Forme) (d : Device) : (modForme i g d).free = d.free := rfl
@[simp] theorem modForme_time (i : Nat) (g : Forme → Forme) (d : Device) : (modForme i g d).time = d.time := rfl
@[simp] theorem modForme_mkr (i : Nat) (g : Forme → Forme) (d : Device) : (modForme i g d).mkr = d.mkr := rfl
@[simp] theorem modForme_host (i : Nat) (g : Forme → Forme) (d : Device) : (modForme i g d).host = d.host := rfl
@[simp] theorem modForme_errata (i : Nat) (g : Forme → Forme) (d : Device) : (modForme i g d).errata = d.errata := rfl
@[simp] theorem modForme_formes (i : Nat) (g : Forme → Forme) (d : Device) : (modForme i g d).formes = vmodN d.formes i g := rfl
@[simp] theorem modForme_presses (i : Nat) (g : Forme → Forme) (d : Device) : (modForme i g d).presses = d.presses := rfl
@[simp] theorem modForme_chase (i : Nat) (g : Forme → Forme) (d : Device) : (modForme i g d).chase = d.chase := rfl
@[simp] theorem modForme_hbmStacks (i : Nat) (g : Forme → Forme) (d : Device) : (modForme i g d).hbmStacks = d.hbmStacks := rfl
@[simp] theorem modForme_hbm (i : Nat) (g : Forme → Forme) (d : Device) : (modForme i g d).hbm = d.hbm := rfl
@[simp] theorem modForme_quads (i : Nat) (g : Forme → Forme) (d : Device) : (modForme i g d).quads = d.quads := rfl
@[simp] theorem modForme_forron (i : Nat) (g : Forme → Forme) (d : Device) : (modForme i g d).forron = d.forron := rfl
@[simp] theorem modForme_fount (i : Nat) (g : Forme → Forme) (d : Device) : (modForme i g d).fount = d.fount := rfl
@[simp] theorem modForme_cf (i : Nat) (g : Forme → Forme) (d : Device) : (modForme i g d).cf = d.cf := rfl
@[simp] theorem modForme_power (i : Nat) (g : Forme → Forme) (d : Device) : (modForme i g d).power = d.power := rfl
@[simp] theorem modForme_trust (i : Nat) (g : Forme → Forme) (d : Device) : (modForme i g d).trust = d.trust := rfl

/-! ## modPress -/

@[simp] theorem modPress_part (i : Nat) (g : Press → Press) (d : Device) : (modPress i g d).part = d.part := rfl
@[simp] theorem modPress_out (i : Nat) (g : Press → Press) (d : Device) : (modPress i g d).out = d.out := rfl
@[simp] theorem modPress_free (i : Nat) (g : Press → Press) (d : Device) : (modPress i g d).free = d.free := rfl
@[simp] theorem modPress_time (i : Nat) (g : Press → Press) (d : Device) : (modPress i g d).time = d.time := rfl
@[simp] theorem modPress_mkr (i : Nat) (g : Press → Press) (d : Device) : (modPress i g d).mkr = d.mkr := rfl
@[simp] theorem modPress_host (i : Nat) (g : Press → Press) (d : Device) : (modPress i g d).host = d.host := rfl
@[simp] theorem modPress_errata (i : Nat) (g : Press → Press) (d : Device) : (modPress i g d).errata = d.errata := rfl
@[simp] theorem modPress_formes (i : Nat) (g : Press → Press) (d : Device) : (modPress i g d).formes = d.formes := rfl
@[simp] theorem modPress_presses (i : Nat) (g : Press → Press) (d : Device) : (modPress i g d).presses = vmodN d.presses i g := rfl
@[simp] theorem modPress_chase (i : Nat) (g : Press → Press) (d : Device) : (modPress i g d).chase = d.chase := rfl
@[simp] theorem modPress_hbmStacks (i : Nat) (g : Press → Press) (d : Device) : (modPress i g d).hbmStacks = d.hbmStacks := rfl
@[simp] theorem modPress_hbm (i : Nat) (g : Press → Press) (d : Device) : (modPress i g d).hbm = d.hbm := rfl
@[simp] theorem modPress_quads (i : Nat) (g : Press → Press) (d : Device) : (modPress i g d).quads = d.quads := rfl
@[simp] theorem modPress_forron (i : Nat) (g : Press → Press) (d : Device) : (modPress i g d).forron = d.forron := rfl
@[simp] theorem modPress_fount (i : Nat) (g : Press → Press) (d : Device) : (modPress i g d).fount = d.fount := rfl
@[simp] theorem modPress_cf (i : Nat) (g : Press → Press) (d : Device) : (modPress i g d).cf = d.cf := rfl
@[simp] theorem modPress_power (i : Nat) (g : Press → Press) (d : Device) : (modPress i g d).power = d.power := rfl
@[simp] theorem modPress_trust (i : Nat) (g : Press → Press) (d : Device) : (modPress i g d).trust = d.trust := rfl

/-! ## modQuad -/

@[simp] theorem modQuad_part (i : Nat) (g : Quad → Quad) (d : Device) : (modQuad i g d).part = d.part := rfl
@[simp] theorem modQuad_out (i : Nat) (g : Quad → Quad) (d : Device) : (modQuad i g d).out = d.out := rfl
@[simp] theorem modQuad_free (i : Nat) (g : Quad → Quad) (d : Device) : (modQuad i g d).free = d.free := rfl
@[simp] theorem modQuad_time (i : Nat) (g : Quad → Quad) (d : Device) : (modQuad i g d).time = d.time := rfl
@[simp] theorem modQuad_mkr (i : Nat) (g : Quad → Quad) (d : Device) : (modQuad i g d).mkr = d.mkr := rfl
@[simp] theorem modQuad_host (i : Nat) (g : Quad → Quad) (d : Device) : (modQuad i g d).host = d.host := rfl
@[simp] theorem modQuad_errata (i : Nat) (g : Quad → Quad) (d : Device) : (modQuad i g d).errata = d.errata := rfl
@[simp] theorem modQuad_formes (i : Nat) (g : Quad → Quad) (d : Device) : (modQuad i g d).formes = d.formes := rfl
@[simp] theorem modQuad_presses (i : Nat) (g : Quad → Quad) (d : Device) : (modQuad i g d).presses = d.presses := rfl
@[simp] theorem modQuad_chase (i : Nat) (g : Quad → Quad) (d : Device) : (modQuad i g d).chase = d.chase := rfl
@[simp] theorem modQuad_hbmStacks (i : Nat) (g : Quad → Quad) (d : Device) : (modQuad i g d).hbmStacks = d.hbmStacks := rfl
@[simp] theorem modQuad_hbm (i : Nat) (g : Quad → Quad) (d : Device) : (modQuad i g d).hbm = d.hbm := rfl
@[simp] theorem modQuad_quads (i : Nat) (g : Quad → Quad) (d : Device) : (modQuad i g d).quads = vmodN d.quads i g := rfl
@[simp] theorem modQuad_forron (i : Nat) (g : Quad → Quad) (d : Device) : (modQuad i g d).forron = d.forron := rfl
@[simp] theorem modQuad_fount (i : Nat) (g : Quad → Quad) (d : Device) : (modQuad i g d).fount = d.fount := rfl
@[simp] theorem modQuad_cf (i : Nat) (g : Quad → Quad) (d : Device) : (modQuad i g d).cf = d.cf := rfl
@[simp] theorem modQuad_power (i : Nat) (g : Quad → Quad) (d : Device) : (modQuad i g d).power = d.power := rfl
@[simp] theorem modQuad_trust (i : Nat) (g : Quad → Quad) (d : Device) : (modQuad i g d).trust = d.trust := rfl

/-! ## modStack -/

@[simp] theorem modStack_part (i : Nat) (g : Stack → Stack) (d : Device) : (modStack i g d).part = d.part := rfl
@[simp] theorem modStack_out (i : Nat) (g : Stack → Stack) (d : Device) : (modStack i g d).out = d.out := rfl
@[simp] theorem modStack_free (i : Nat) (g : Stack → Stack) (d : Device) : (modStack i g d).free = d.free := rfl
@[simp] theorem modStack_time (i : Nat) (g : Stack → Stack) (d : Device) : (modStack i g d).time = d.time := rfl
@[simp] theorem modStack_mkr (i : Nat) (g : Stack → Stack) (d : Device) : (modStack i g d).mkr = d.mkr := rfl
@[simp] theorem modStack_host (i : Nat) (g : Stack → Stack) (d : Device) : (modStack i g d).host = d.host := rfl
@[simp] theorem modStack_errata (i : Nat) (g : Stack → Stack) (d : Device) : (modStack i g d).errata = d.errata := rfl
@[simp] theorem modStack_formes (i : Nat) (g : Stack → Stack) (d : Device) : (modStack i g d).formes = d.formes := rfl
@[simp] theorem modStack_presses (i : Nat) (g : Stack → Stack) (d : Device) : (modStack i g d).presses = d.presses := rfl
@[simp] theorem modStack_chase (i : Nat) (g : Stack → Stack) (d : Device) : (modStack i g d).chase = d.chase := rfl
@[simp] theorem modStack_hbmStacks (i : Nat) (g : Stack → Stack) (d : Device) : (modStack i g d).hbmStacks = vmodN d.hbmStacks i g := rfl
@[simp] theorem modStack_hbm (i : Nat) (g : Stack → Stack) (d : Device) : (modStack i g d).hbm = d.hbm := rfl
@[simp] theorem modStack_quads (i : Nat) (g : Stack → Stack) (d : Device) : (modStack i g d).quads = d.quads := rfl
@[simp] theorem modStack_forron (i : Nat) (g : Stack → Stack) (d : Device) : (modStack i g d).forron = d.forron := rfl
@[simp] theorem modStack_fount (i : Nat) (g : Stack → Stack) (d : Device) : (modStack i g d).fount = d.fount := rfl
@[simp] theorem modStack_cf (i : Nat) (g : Stack → Stack) (d : Device) : (modStack i g d).cf = d.cf := rfl
@[simp] theorem modStack_power (i : Nat) (g : Stack → Stack) (d : Device) : (modStack i g d).power = d.power := rfl
@[simp] theorem modStack_trust (i : Nat) (g : Stack → Stack) (d : Device) : (modStack i g d).trust = d.trust := rfl

/-! ## One unit -/

/-- An element after a change of an element. -/
theorem vgetN_vmodN {α : Type} {n : Nat} (dflt : α) (v : Vector α n) (i j : Nat) (f : α → α) :
    vgetN dflt (vmodN v i f) j = if i = j ∧ j < n then f (vgetN dflt v j) else vgetN dflt v j := by
  unfold vgetN vmodN
  by_cases hj : j < n
  · rw [dif_pos hj, dif_pos hj]
    by_cases hi : i < n
    · rw [dif_pos hi]
      by_cases e : i = j
      · subst e; rw [if_pos ⟨rfl, hj⟩]; simp
      · rw [if_neg (fun h => e h.1)]; simp [e]
    · rw [dif_neg hi, if_neg (fun (h : i = j ∧ j < n) => hi (h.1 ▸ h.2))]
  · rw [dif_neg hj, dif_neg hj, if_neg (fun h => hj h.2)]

theorem forme_modForme (i j : Nat) (g : Forme → Forme) (d : Device) :
    forme (modForme i g d) j = if i = j ∧ j < 16 then g (forme d j) else forme d j := vgetN_vmodN _ _ _ _ _
theorem press_modPress (i j : Nat) (g : Press → Press) (d : Device) :
    press (modPress i g d) j = if i = j ∧ j < 128 then g (press d j) else press d j := vgetN_vmodN _ _ _ _ _
theorem quad_modQuad (i j : Nat) (g : Quad → Quad) (d : Device) :
    quad (modQuad i g d) j = if i = j ∧ j < 24 then g (quad d j) else quad d j := vgetN_vmodN _ _ _ _ _
theorem stack_modStack (i j : Nat) (g : Stack → Stack) (d : Device) :
    stack (modStack i g d) j = if i = j ∧ j < 8 then g (stack d j) else stack d j := vgetN_vmodN _ _ _ _ _

end Sys2Proof.Machine
end

