-- ==== Sys2Proof/Laws/Clean.lean ====
section
/-!
SUPPORT. Laws/Clean.lean: a memory with right check words and an empty merge buffer is read without an event and without a
change (08_memory_and_stored_data.md R300 to R304), alone, through HBM addresses and into a save image.
-/
namespace Sys2Proof.Machine

/-- Nothing that a read would report, mend or flush. -/
def Mem.clean (m : Mem) : Prop := m.syn = [] ∧ m.merge = []

theorem vmodN_same {α : Type} {n : Nat} (dflt : α) (v : Vector α n) (i : Nat) (f : α → α) (h : f (vgetN dflt v i) = vgetN dflt v i) :
    vmodN v i f = v := by
  unfold vmodN
  split
  · next hi =>
    rw [vgetN, dif_pos hi] at h
    rw [h]; apply Vector.ext; intro j hj
    rw [Vector.getElem_set]; split
    · next e => subst e; rfl
    · rfl
  · rfl

/-- Putting back what a memory holds changes nothing. -/
theorem memPut_memGet (id : MemId) (d : Device) : memPut id (memGet d id) d = d := by
  cases id with
  | hbm n => show { d with hbmStacks := vmodN d.hbmStacks n _ } = d; rw [vmodN_same {} d.hbmStacks n _ rfl]
  | galley p => show { d with presses := vmodN d.presses p _ } = d; rw [vmodN_same {} d.presses p _ rfl]
  | case f => show { d with formes := vmodN d.formes f _ } = d; rw [vmodN_same {} d.formes f _ rfl]
  | xmem f => show { d with formes := vmodN d.formes f _ } = d; rw [vmodN_same {} d.formes f _ rfl]
  | ymem f => show { d with formes := vmodN d.formes f _ } = d; rw [vmodN_same {} d.formes f _ rfl]
  | imem f => show { d with formes := vmodN d.formes f _ } = d; rw [vmodN_same {} d.formes f _ rfl]

theorem flushWhere_clean (p : MergeEntry → Bool) {m : Mem} (h : m.clean) : flushWhere p m = (m, []) := by
  obtain ⟨b, s, g⟩ := m
  obtain ⟨rfl, rfl⟩ := h
  rfl

theorem memRead_clean {m : Mem} (h : m.clean) (a n : Nat) : memRead m a n = (m, memBytes m a n, []) := by
  unfold memRead
  split
  · next e => subst e; rfl
  · simp only [flushWhere_clean _ h, h.1, if_true]

/-- A clean memory answers its bytes and is as before. -/
theorem readMem_clean {d : Device} {id : MemId} (h : (memGet d id).clean) (a n req : Nat) (st : Option (BitVec 12)) :
    readMem id a n req st d = (d, memBytes (memGet d id) a n, none) := by
  simp only [readMem, memRead_clean h, memPut_memGet]; rfl

/-- A memory with an empty merge buffer flushes nothing. -/
theorem noteFlushes_clean {d : Device} {id : MemId} (h : (memGet d id).clean) (a n : Nat) (m : Mem) (req : Nat) :
    noteFlushes id a n m req d = d := by
  unfold noteFlushes
  rw [h.2]
  cases id <;> rfl

theorem flushMem_clean {d : Device} {id : MemId} (h : (memGet d id).clean) (req slot : Nat) :
    flushMem id req slot d = (d, false) := by
  simp only [flushMem, flushAll, flushWhere_clean _ h, noteFlushes_clean h, memPut_memGet]; rfl

/-- The bytes of a range of HBM addresses, where every stack is clean. -/
def hbmBytesAt (d : Device) (l : List (Nat × Nat)) : List Byte :=
  (l.map fun ak => memBytes (memGet d (.hbm (hbmMap d.part ak.1).1)) (hbmMap d.part ak.1).2 ak.2).flatten

theorem readHbm_clean {d : Device} (h : ∀ n, (memGet d (.hbm n)).clean) (a n req : Nat) (st : Option (BitVec 12)) :
    readHbm a n req st d = (d, hbmBytesAt d (granules (n / 4096 + 2) a n), none) := by
  have key : ∀ (l : List (Nat × Nat)) (v : List Byte),
      l.foldl (fun (s : Device × List Byte × Option (MemId × MemEv)) (ak : Nat × Nat) =>
        if s.2.2.isSome then s
        else
          let (st', l) := hbmMap s.1.part ak.1
          let id := MemId.hbm st'
          let (d, v, bad) := readMem id l ak.2 req st s.1
          (d, s.2.1 ++ v, bad.map fun e => (id, e))) (d, v, none) = (d, v ++ hbmBytesAt d l, none) := by
    intro l
    induction l with
    | nil => intro v; simp [hbmBytesAt]
    | cons x r ih =>
      intro v
      rw [List.foldl_cons]
      simp only [Option.isSome_none, Bool.false_eq_true, if_false, readMem_clean (h _), Option.map_none]
      rw [ih]; simp [hbmBytesAt]
  exact (key (granules (n / 4096 + 2) a n) []).trans (by rw [List.nil_append])

/-- `d'` is `d` but for what the stacks hold beside their memories. -/
def sameMemories (d d' : Device) : Prop :=
  d' = { d with hbmStacks := d'.hbmStacks } ∧ ∀ n, (stack d' n).mem = (stack d n).mem

theorem sameMemories_trans {a b c : Device} (h : sameMemories a b) (k : sameMemories b c) : sameMemories a c :=
  ⟨by rw [k.1, h.1], fun n => (k.2 n).trans (h.2 n)⟩

theorem stackIssue_mem (pc : Nat) (s : Stack) : (stackIssue pc s).mem = s.mem := by
  unfold stackIssue; split <;> rfl

theorem stackCommand_mem (c : RetryCmd) (s : Stack) : (stackCommand c s).mem = s.mem := stackIssue_mem _ _

/-- A change of one stack that keeps its memory. -/
theorem modStack_same (k : Nat) (g : Stack → Stack) (d : Device) (h : (g (stack d k)).mem = (stack d k).mem) :
    sameMemories d (modStack k g d) := by
  refine ⟨rfl, fun n => ?_⟩
  rw [stack_modStack]
  split
  · next e => rw [← e.1]; exact h
  · rfl

theorem unitCommand_mem (u : Nat) (w : Bool) (who : Option Writer) (req : Nat) (s : Stack) :
    (unitCommand u w who req s).mem = s.mem := stackCommand_mem _ _

theorem flushCommands_mem (p : MergeEntry → Bool) (req : Nat) (s : Stack) (e : MergeEntry) :
    (flushCommands p req s e).mem = s.mem := by
  simp only [flushCommands]
  split
  · exact unitCommand_mem _ _ _ _ s
  · split <;> simp only [unitCommand_mem]

/-- A fold whose steps keep a stack's memory keeps it. -/
theorem foldl_mem {α : Type} (g : Stack → α → Stack) (hg : ∀ s x, (g s x).mem = s.mem) (l : List α) (s : Stack) :
    (l.foldl g s).mem = s.mem := by
  induction l generalizing s with
  | nil => rfl
  | cons x r ih => rw [List.foldl_cons, ih, hg]

theorem noteHbm_same (k a n req : Nat) (w : Bool) (who : Option Writer) (d : Device) :
    sameMemories d (noteHbm (.hbm k) a n w req who d) := by
  apply modStack_same
  split
  · exact foldl_mem _ (fun s u => unitCommand_mem u true who req s) _ _
  · exact (foldl_mem _ (fun s u => unitCommand_mem u false who req s) _ _).trans
      (foldl_mem _ (flushCommands_mem _ req) _ _)

/-- A read that enters the queues changes no memory and nothing beside the stacks. -/
theorem noteRead_same (a n req : Nat) (who : Option Writer) (d : Device) : sameMemories d (noteRead a n req who d) := by
  unfold noteRead
  generalize granules (n / 4096 + 2) a n = l
  induction l generalizing d with
  | nil => exact ⟨rfl, fun _ => rfl⟩
  | cons x r ih => rw [List.foldl_cons]; exact sameMemories_trans (noteHbm_same _ _ _ _ _ _ d) (ih _)

theorem noteLoad_same (f a n : Nat) (d : Device) : sameMemories d (noteLoad f a n d) := noteRead_same _ _ _ _ d

/-- Devices with the same memories hold the same HBM bytes. -/
theorem hbmBytesAt_same {d d' : Device} (h : sameMemories d d') (l : List (Nat × Nat)) : hbmBytesAt d' l = hbmBytesAt d l := by
  have hp : d'.part = d.part := by rw [h.1]
  have hm : ∀ n, memGet d' (.hbm n) = memGet d (.hbm n) := h.2
  simp only [hbmBytesAt, hp, hm]

/-- The loader reads a range that lies in HBM and holds no retired granule. -/
theorem readLoad_clean {d : Device} (h : ∀ n, (memGet d (.hbm n)).clean) (f a n : Nat) (hb : a + n ≤ hbmBytes d.part)
    (hr : hbmRetired d a n = false) : readLoad f a n d = (noteLoad f a n d, some (hbmBytesAt d (granules (n / 4096 + 2) a n))) := by
  have same := noteLoad_same f a n d
  have hc : ∀ m, (memGet (noteLoad f a n d) (.hbm m)).clean := fun m => by
    have e : memGet (noteLoad f a n d) (.hbm m) = memGet d (.hbm m) := same.2 m
    rw [e]; exact h m
  simp only [readLoad, if_neg (Nat.not_lt.mpr hb), hr, readHbm_clean hc, hbmBytesAt_same same]; rfl

/-- The memories of forme `f` and its presses are clean. -/
def formeClean (d : Device) (f : Nat) : Prop :=
  (memGet d (.imem f)).clean ∧ (memGet d (.xmem f)).clean ∧ (memGet d (.ymem f)).clean ∧ (memGet d (.case f)).clean ∧
    ∀ k, k < 8 → (memGet d (.galley (8 * f + k))).clean

theorem saveMem_clean {d : Device} {id : MemId} (h : (memGet d id).clean) (n : Nat) (v : List Byte) :
    saveMem id n (d, v, none) = (d, v ++ memBytes (memGet d id) 0 n, none) := by
  simp only [saveMem, readMem_clean h]; rfl

/-- A clean forme is saved without an error and without a change. -/
theorem saveForme_clean {d : Device} {f : Nat} (h : formeClean d f) (mask : BitVec 8) (v : List Byte) :
    ∃ w, saveForme (d, v, none) (f, mask) = (d, v ++ w, none) := by
  obtain ⟨h1, h2, h3, h4, h5⟩ := h
  have one : ∀ k, k < 8 → ∀ v, ∃ w, savePress f mask (d, v, none) k = (d, v ++ w, none) := by
    intro k hk v
    simp only [savePress, saveBytes]
    split
    · exact ⟨_, by rw [saveMem_clean (h5 k hk), List.append_assoc]⟩
    · exact ⟨_, rfl⟩
  have all : ∀ (l : List Nat), (∀ k ∈ l, k < 8) → ∀ v, ∃ w, l.foldl (savePress f mask) (d, v, none) = (d, v ++ w, none) := by
    intro l
    induction l with
    | nil => intro _ v; exact ⟨[], by simp⟩
    | cons k r ih =>
      intro hl v
      obtain ⟨w, hw⟩ := one k (hl k (by simp)) v
      obtain ⟨w', hw'⟩ := ih (fun j hj => hl j (by simp [hj])) (v ++ w)
      exact ⟨w ++ w', by rw [List.foldl_cons, hw, hw', List.append_assoc]⟩
  have go (x : List Byte) : ∃ w, (List.range 8).foldl (savePress f mask) (d, v ++ x, none) = (d, v ++ w, none) := by
    obtain ⟨w, hw⟩ := all (List.range 8) (fun k hk => List.mem_range.mp hk) (v ++ x)
    exact ⟨x ++ w, by rw [hw, List.append_assoc]⟩
  simp only [saveForme, saveBytes]
  rw [saveMem_clean h1, saveMem_clean h2, saveMem_clean h3, saveMem_clean h4]
  simp only [List.append_assoc]
  exact go _

/-- Every byte is zero. -/
def allZero (l : List Byte) : Prop := ∀ b ∈ l, b = 0

theorem allZero_drop {l : List Byte} (h : allZero l) (n : Nat) : allZero (l.drop n) := fun b hb => h b (List.mem_of_mem_drop hb)
theorem allZero_take {l : List Byte} (h : allZero l) (n : Nat) : allZero (l.take n) := fun b hb => h b (List.mem_of_mem_take hb)
theorem allZero_append {l r : List Byte} (h : allZero l) (h' : allZero r) : allZero (l ++ r) := by
  intro b hb; rcases List.mem_append.mp hb with x | x
  · exact h b x
  · exact h' b x

theorem leNat_zero {l : List Byte} (h : allZero l) : leNat l = 0 := by
  induction l with
  | nil => rfl
  | cons b r ih =>
    have hb : b = 0 := h b (by simp)
    rw [leNat, ih (fun x hx => h x (by simp [hx])), hb]; rfl

theorem leAt_zero {l : List Byte} (h : allZero l) (o k : Nat) : leAt l o k = 0 := leNat_zero (allZero_take (allZero_drop h o) k)

/-- The tally of zeros is zero (R252). -/
theorem tally_zero {l : List Byte} (h : allZero l) : tally l = 0 := by
  have : ∀ (fuel : Nat) (l : List Byte), allZero l → tallyFrom fuel l = 0 := by
    intro fuel
    induction fuel with
    | zero => intro l _; rfl
    | succ n ih =>
      intro l hl
      unfold tallyFrom
      split
      · rfl
      · rw [leNat_zero (allZero_take hl 4), ih _ (allZero_drop hl 4)]
  simp [tally, this _ _ h]

/-- No piece of a range begins before it. -/
theorem granules_from {fuel a n : Nat} {x : Nat × Nat} (h : x ∈ granules fuel a n) : a ≤ x.1 := by
  induction fuel generalizing a n with
  | zero => simp [granules] at h
  | succ k ih =>
    unfold granules at h
    split at h
    · simp at h
    · rcases List.mem_cons.mp h with e | e
      · exact e ▸ Nat.le_refl _
      · exact Nat.le_trans (Nat.le_add_right _ _) (ih e)

end Sys2Proof.Machine
end

