-- ==== Sys2Proof/Laws/Exec.lean ====
section
/-!
SUPPORT. Laws/Exec.lean: each command's answer as the shared operation over its effect on the device: one lemma per
command, and what that operation answers. Proofs cite these and never unfold `exec`.
-/
namespace Sys2Proof.Machine

/-- A command of a part that is awake answers its effect and what follows from it. -/
theorem onDev_awake {s : State} (h : asleep s.dev = false) (g : Device → Device) :
    onDev g s = .next { s with dev := settled (g s.dev) } := by
  simp [onDev, onAlways, h]

/-- A part that is asleep takes no notice of a command. -/
theorem onDev_asleep {s : State} (h : asleep s.dev = true) (g : Device → Device) :
    onDev g s = .next { s with dev := settled s.dev } := by
  simp [onDev, onAlways, h]

/-- Whatever an awake part does in answer to a command, `d` is the device that the command leaves where its effect is
`d`. -/
theorem onDev_eq {s : State} {d : Device} {g : Device → Device} (h : asleep s.dev = false) (e : g s.dev = d) :
    onDev g s = .next { s with dev := settled d } := by
  rw [onDev_awake h, e]

theorem exec_registerWrite (src : Requester) (addr : RegAddr) (value : Word) (be : BitVec 4) (more : List (Word × BitVec 4)) (poisoned : Bool) (config : Bool) (s : State) :
    exec (.registerWrite src addr value be more poisoned config) s = onSource src (.registerWrite src addr value be more poisoned config) (registerEffect src addr value be more poisoned config) s := rfl
theorem exec_lowWordRead (fn : FnId) (addr : RegAddr) (be : BitVec 4) (more : List (BitVec 4)) (config : Bool) (s : State) :
    exec (.lowWordRead fn addr be more config) s = onHost (.lowWordRead fn addr be more config) (doLowWord fn addr be more config) s := rfl
theorem exec_refclkInTolerance (s : State) :
    exec .refclkInTolerance s = onDev doRefclkInTolerance s := rfl
theorem exec_ptSyncEdge (sinceLast : Nat) (phase : Int) (s : State) :
    exec (.ptSyncEdge sinceLast phase) s = onDev (doPtSyncEdge sinceLast phase) s := rfl
theorem exec_ptCodeFrame (frame : BitVec 100) (s : State) :
    exec (.ptCodeFrame frame) s = onDev (doPtCodeFrame frame) s := rfl
theorem exec_inputLost (input : TimeInput) (s : State) :
    exec (.inputLost input) s = onDev (doInputLost input) s := rfl
theorem exec_holdoverExpired (s : State) :
    exec .holdoverExpired s = onDev doHoldoverExpired s := rfl
theorem exec_ptClearCounts (s : State) :
    exec .ptClearCounts s = onHost .ptClearCounts doPtClearCounts s := rfl
theorem exec_mkTableRead (be : BitVec 4) (s : State) :
    exec (.mkTableRead be) s = onHost (.mkTableRead be) (doMkTableRead be) s := rfl
theorem exec_doorbell (ring : RingId) (tail : BitVec 12) (poisoned : Bool) (s : State) :
    exec (.doorbell ring tail poisoned) s = onHost (.doorbell ring tail poisoned) (hostWrite .pf1 poisoned (doDoorbell ring tail)) s := rfl
theorem exec_doorbellService (s : State) :
    exec .doorbellService s = onDev doDoorbellService s := rfl
theorem exec_ticketReadFailed (poisoned : Bool) (s : State) :
    exec (.ticketReadFailed poisoned) s = onDev (doTicketReadFailed poisoned) s := rfl
theorem exec_submit (ticket : BitVec 512) (s : State) :
    exec (.submit ticket) s = onDev (takeTicket 0 ticket) s := rfl
theorem exec_resume (ticket : BitVec 512) (s : State) :
    exec (.resume ticket) s = onDev (takeTicket 1 ticket) s := rfl
theorem exec_pause (ticket : BitVec 512) (s : State) :
    exec (.pause ticket) s = onDev (doPause ticket) s := rfl
theorem exec_abort (ticket : BitVec 512) (s : State) :
    exec (.abort ticket) s = onDev (doAbort ticket) s := rfl
theorem exec_admitTicket (s : State) :
    exec .admitTicket s = onDev doAdmit s := rfl
theorem exec_startFire (entry : BitVec 16) (s : State) :
    exec (.startFire entry) s = onDev (fireIf 1 entry) s := rfl
theorem exec_xferWindowOpen (entry : BitVec 16) (s : State) :
    exec (.xferWindowOpen entry) s = onDev (fireIf 2 entry) s := rfl
theorem exec_collectiveWindowOpen (entry : BitVec 16) (s : State) :
    exec (.collectiveWindowOpen entry) s = onDev (fireIf 3 entry) s := rfl
theorem exec_refreshFire (entry : BitVec 16) (s : State) :
    exec (.refreshFire entry) s = onDev (fireIf 4 entry) s := rfl
theorem exec_powerStepFire (entry : BitVec 16) (s : State) :
    exec (.powerStepFire entry) s = onDev (fireIf 5 entry) s := rfl
theorem exec_wakeFire (entry : BitVec 16) (s : State) :
    exec (.wakeFire entry) s = onDev (fireIf 6 entry) s := rfl
theorem exec_holdFire (entry : BitVec 16) (s : State) :
    exec (.holdFire entry) s = onDev (fireIf 8 entry) s := rfl
theorem exec_promiseFire (entry : BitVec 16) (s : State) :
    exec (.promiseFire entry) s = onDev (fireIf 7 entry) s := rfl
theorem exec_reservationEnd (entry : BitVec 16) (s : State) :
    exec (.reservationEnd entry) s = onDev (endReservation entry.toNat) s := rfl
theorem exec_programLoaded (f : FormeId) (s : State) :
    exec (.programLoaded f) s = onDev (doProgramLoaded f.1) s := rfl
theorem exec_compositorIdle (f : FormeId) (s : State) :
    exec (.compositorIdle f) s = onDev (doCompositorIdle f.1) s := rfl
theorem exec_nop (f : FormeId) (s : State) :
    exec (.nop f) s = onDev (runScalar 0x01 coNop f.1) s := rfl
theorem exec_halt (f : FormeId) (s : State) :
    exec (.halt f) s = onDev (runScalar 0x02 coHalt f.1) s := rfl
theorem exec_aluGroup (f : FormeId) (s : State) :
    exec (.aluGroup f) s = onDev (runScalar 0x04 coAlu f.1) s := rfl
theorem exec_addi (f : FormeId) (s : State) :
    exec (.addi f) s = onDev (runScalar 0x05 coAddi f.1) s := rfl
theorem exec_movi (f : FormeId) (s : State) :
    exec (.movi f) s = onDev (runScalar 0x06 coMovi f.1) s := rfl
theorem exec_ld (f : FormeId) (s : State) :
    exec (.ld f) s = onDev (runScalar 0x08 coLd f.1) s := rfl
theorem exec_st (f : FormeId) (s : State) :
    exec (.st f) s = onDev (runScalar 0x09 coSt f.1) s := rfl
theorem exec_amov (f : FormeId) (s : State) :
    exec (.amov f) s = onDev (runScalar 0x0A coAmov f.1) s := rfl
theorem exec_smov (f : FormeId) (s : State) :
    exec (.smov f) s = onDev (runScalar 0x0B coSmov f.1) s := rfl
theorem exec_ldt (f : FormeId) (s : State) :
    exec (.ldt f) s = onDev (runScalar 0x0C coLdt f.1) s := rfl
theorem exec_mtt (f : FormeId) (s : State) :
    exec (.mtt f) s = onDev (runScalar 0x0D coMtt f.1) s := rfl
theorem exec_mft (f : FormeId) (s : State) :
    exec (.mft f) s = onDev (runScalar 0x0E coMft f.1) s := rfl
theorem exec_mpy (f : FormeId) (s : State) :
    exec (.mpy f) s = onDev (runScalar 0x10 (coMul 0 false) f.1) s := rfl
theorem exec_mac (f : FormeId) (s : State) :
    exec (.mac f) s = onDev (runScalar 0x11 (coMul 1 false) f.1) s := rfl
theorem exec_msu (f : FormeId) (s : State) :
    exec (.msu f) s = onDev (runScalar 0x12 (coMul 2 false) f.1) s := rfl
theorem exec_mpyr (f : FormeId) (s : State) :
    exec (.mpyr f) s = onDev (runScalar 0x13 (coMul 0 true) f.1) s := rfl
theorem exec_macr (f : FormeId) (s : State) :
    exec (.macr f) s = onDev (runScalar 0x14 (coMul 1 true) f.1) s := rfl
theorem exec_accGroup (f : FormeId) (s : State) :
    exec (.accGroup f) s = onDev (runScalar 0x15 coAcc f.1) s := rfl
theorem exec_j (f : FormeId) (s : State) :
    exec (.j f) s = onDev (runScalar 0x18 coJ f.1) s := rfl
theorem exec_jr (f : FormeId) (s : State) :
    exec (.jr f) s = onDev (runScalar 0x19 coJr f.1) s := rfl
theorem exec_call (f : FormeId) (s : State) :
    exec (.call f) s = onDev (runScalar 0x1A coCall f.1) s := rfl
theorem exec_bcc (f : FormeId) (s : State) :
    exec (.bcc f) s = onDev (runScalar 0x1B coBcc f.1) s := rfl
theorem exec_dbnz (f : FormeId) (s : State) :
    exec (.dbnz f) s = onDev (runScalar 0x1C coDbnz f.1) s := rfl
theorem exec_brc (f : FormeId) (s : State) :
    exec (.brc f) s = onDev (runScalar 0x1D coBrc f.1) s := rfl
theorem exec_lpset (f : FormeId) (s : State) :
    exec (.lpset f) s = onDev (runScalar 0x1E coLpset f.1) s := rfl
theorem exec_pass (f : FormeId) (s : State) :
    exec (.pass f) s = onDev (runTensor 0x20 f.1) s := rfl
theorem exec_feed (f : FormeId) (s : State) :
    exec (.feed f) s = onDev (runTensor 0x21 f.1) s := rfl
theorem exec_drain (f : FormeId) (s : State) :
    exec (.drain f) s = onDev (runTensor 0x22 f.1) s := rfl
theorem exec_ink (f : FormeId) (s : State) :
    exec (.ink f) s = onDev (runTensor 0x23 f.1) s := rfl
theorem exec_justify (f : FormeId) (s : State) :
    exec (.justify f) s = onDev (runTensor 0x24 f.1) s := rfl
theorem exec_xfer (f : FormeId) (s : State) :
    exec (.xfer f) s = onDev (runTensor 0x25 f.1) s := rfl
theorem exec_link (f : FormeId) (s : State) :
    exec (.link f) s = onDev (runTensor 0x26 f.1) s := rfl
theorem exec_waitpt (f : FormeId) (s : State) :
    exec (.waitpt f) s = onDev (runTensor 0x28 f.1) s := rfl
theorem exec_signal (f : FormeId) (s : State) :
    exec (.signal f) s = onDev (runTensor 0x29 f.1) s := rfl
theorem exec_wait (f : FormeId) (s : State) :
    exec (.wait f) s = onDev (runTensor 0x2A f.1) s := rfl
theorem exec_fence (f : FormeId) (s : State) :
    exec (.fence f) s = onDev (runTensor 0x2B f.1) s := rfl
theorem exec_pwr (f : FormeId) (s : State) :
    exec (.pwr f) s = onDev (runTensor 0x2C f.1) s := rfl
theorem exec_prd (f : FormeId) (s : State) :
    exec (.prd f) s = onDev (runTensor 0x2D f.1) s := rfl
theorem exec_passDispatch (p : PressId) (s : State) :
    exec (.passDispatch p) s = onDev (doPassDispatch p.1) s := rfl
theorem exec_preloadDone (p : PressId) (pl : PlatenId) (s : State) :
    exec (.preloadDone p pl) s = onDev (doPreloadDone p.1 pl) s := rfl
theorem exec_passFeedStart (p : PressId) (pl : PlatenId) (s : State) :
    exec (.passFeedStart p pl) s = onDev (doPassFeedStart p.1 pl) s := rfl
theorem exec_passSettle (p : PressId) (pl : PlatenId) (s : State) :
    exec (.passSettle p pl) s = onDev (doPassSettle p.1 pl) s := rfl
theorem exec_drainDispatch (p : PressId) (s : State) :
    exec (.drainDispatch p) s = onDev (doDrainDispatch p.1) s := rfl
theorem exec_drainStart (p : PressId) (pl : PlatenId) (s : State) :
    exec (.drainStart p pl) s = onDev (doDrainStart p.1 pl) s := rfl
theorem exec_drainDone (p : PressId) (pl : PlatenId) (s : State) :
    exec (.drainDone p pl) s = onDev (doDrainDone p.1 pl) s := rfl
theorem exec_inkDispatch (p : PressId) (s : State) :
    exec (.inkDispatch p) s = onDev (doInkDispatch p.1) s := rfl
theorem exec_inkDone (p : PressId) (s : State) :
    exec (.inkDone p) s = onDev (doInkDone p.1) s := rfl
theorem exec_justifyDispatch (p : PressId) (s : State) :
    exec (.justifyDispatch p) s = onDev (doJustifyDispatch p.1) s := rfl
theorem exec_justifyDone (p : PressId) (s : State) :
    exec (.justifyDone p) s = onDev (doJustifyDone p.1) s := rfl
theorem exec_waitptDispatch (p : PressId) (s : State) :
    exec (.waitptDispatch p) s = onDev (doWaitpt p.1) s := rfl
theorem exec_waitDispatch (p : PressId) (s : State) :
    exec (.waitDispatch p) s = onDev (doWait p.1) s := rfl
theorem exec_signalDispatch (p : PressId) (s : State) :
    exec (.signalDispatch p) s = onDev (doSignal p.1) s := rfl
theorem exec_fenceDispatch (p : PressId) (s : State) :
    exec (.fenceDispatch p) s = onDev (doFence p.1) s := rfl
theorem exec_pwrDispatch (p : PressId) (s : State) :
    exec (.pwrDispatch p) s = onDev (doPwr p.1) s := rfl
theorem exec_prdDispatch (p : PressId) (s : State) :
    exec (.prdDispatch p) s = onDev (doPrd p.1) s := rfl
theorem exec_preemptRequest (p : PressId) (s : State) :
    exec (.preemptRequest p) s = onDev (doPreemptRequest p.1) s := rfl
theorem exec_preempted (p : PressId) (s : State) :
    exec (.preempted p) s = onDev (doPreempted p.1) s := rfl
theorem exec_xferDispatch (p : PressId) (s : State) :
    exec (.xferDispatch p) s = onDev (doXferDispatch p.1) s := rfl
theorem exec_poolOpen (p : PressId) (s : State) :
    exec (.poolOpen p) s = onDev (doPoolOpen p.1) s := rfl
theorem exec_poolRelease (p : PressId) (s : State) :
    exec (.poolRelease p) s = onDev (doPoolRelease p.1) s := rfl
theorem exec_chunkRequest (p : PressId) (transfer : Nat) (s : State) :
    exec (.chunkRequest p transfer) s = onDev (doChunkRequest p.1 transfer) s := rfl
theorem exec_chaseReserve (msg : Nat) (cond : HopCondition) (s : State) :
    exec (.chaseReserve msg cond) s = onDev (doReserve msg cond) s := rfl
theorem exec_chaseGrant (msg : Nat) (cond : HopCondition) (s : State) :
    exec (.chaseGrant msg cond) s = onDev (doGrant msg cond) s := rfl
theorem exec_chaseRead (msg : Nat) (cond : HopCondition) (s : State) :
    exec (.chaseRead msg cond) s = onDev (doRead msg cond) s := rfl
theorem exec_chaseData (msg : Nat) (cond : HopCondition) (s : State) :
    exec (.chaseData msg cond) s = onDev (doData msg cond) s := rfl
theorem exec_chaseEnd (msg : Nat) (cond : HopCondition) (s : State) :
    exec (.chaseEnd msg cond) s = onDev (doEnd msg cond) s := rfl
theorem exec_chaseAck (msg : Nat) (cond : HopCondition) (s : State) :
    exec (.chaseAck msg cond) s = onDev (doAck msg cond) s := rfl
theorem exec_chaseCancel (msg : Nat) (cond : HopCondition) (s : State) :
    exec (.chaseCancel msg cond) s = onDev (doCancel msg cond) s := rfl
theorem exec_chunkCommit (chunk : Nat) (s : State) :
    exec (.chunkCommit chunk) s = onDev (doChunkCommit chunk) s := rfl
theorem exec_galleySideChange (p : PressId) (s : State) :
    exec (.galleySideChange p) s = onDev (doGalleySide p.1) s := rfl
theorem exec_multicastGrantDeadline (p : PressId) (transfer : Nat) (s : State) :
    exec (.multicastGrantDeadline p transfer) s = onDev (doMcastDeadline p.1 transfer) s := rfl
theorem exec_streamDeadline (p : PressId) (transfer : Nat) (s : State) :
    exec (.streamDeadline p transfer) s = onDev (doStreamDeadline p.1 transfer) s := rfl
theorem exec_hbmRequest (stack : StackId) (req : HbmReq) (s : State) :
    exec (.hbmRequest stack req) s = onDev (doHbmRequest stack.1 req) s := rfl
theorem exec_coalesceExpire (mem : CoalesceUnit) (entry : Nat) (s : State) :
    exec (.coalesceExpire mem entry) s = onDev (doCoalesceExpire mem entry) s := rfl
theorem exec_bucketLeak (s : State) :
    exec .bucketLeak s = onDev doBucketLeak s := rfl
theorem exec_hbBucketCtrlWrite (value : Word) (s : State) :
    exec (.hbBucketCtrlWrite value) s = onHost (.hbBucketCtrlWrite value) (doBucketCtrl value) s := rfl
theorem exec_hbmHot (stack : StackId) (hot : Bool) (s : State) :
    exec (.hbmHot stack hot) s = onDev (doHbmHot stack.1 hot) s := rfl
theorem exec_cmdParityAlert (stack : StackId) (bus : BusId) (s : State) :
    exec (.cmdParityAlert stack bus) s = onDev (doParityAlert stack.1 bus.1) s := rfl
theorem exec_replayDone (stack : StackId) (bus : BusId) (s : State) :
    exec (.replayDone stack bus) s = onDev (doReplayDone stack.1 bus.1) s := rfl
theorem exec_hbClearCounts (stack : StackId) (s : State) :
    exec (.hbClearCounts stack) s = onHost (.hbClearCounts stack) (doHbClearCounts stack.1) s := rfl
theorem exec_fillDone (unit : FillUnit) (s : State) :
    exec (.fillDone unit) s = onDev (doFillDone unit) s := rfl
theorem exec_quadModeWrite (q : QuadId) (mode : BitVec 2) (s : State) :
    exec (.quadModeWrite q mode) s = onHost (.quadModeWrite q mode) (doQuadMode q.1 mode) s := rfl
theorem exec_prbsSelect (q : QuadId) (prbs : BitVec 2) (heard : List (List Bool)) (s : State) :
    exec (.prbsSelect q prbs heard) s = onHost (.prbsSelect q prbs heard) (doPrbsSelect q.1 prbs heard) s := rfl
theorem exec_retrain (q : QuadId) (s : State) :
    exec (.retrain q) s = onHost (.retrain q) (doRetrain q.1) s := rfl
theorem exec_flClearCounts (q : QuadId) (s : State) :
    exec (.flClearCounts q) s = onHost (.flClearCounts q) (doFlClearCounts q.1) s := rfl
theorem exec_clockRecoveryLock (q : QuadId) (lanes : BitVec 4) (s : State) :
    exec (.clockRecoveryLock q lanes) s = onDev (doClockLock q.1 lanes) s := rfl
theorem exec_laneLock (q : QuadId) (lane : LaneId) (hunt : LaneHunt) (s : State) :
    exec (.laneLock q lane hunt) s = onDev (doLaneLock q.1 lane.1 hunt) s := rfl
theorem exec_laneLockLost (q : QuadId) (lane : LaneId) (headers : BitVec 128) (s : State) :
    exec (.laneLockLost q lane headers) s = onDev (doLaneLockLost q.1 lane.1 headers) s := rfl
theorem exec_trainingTimeout (q : QuadId) (s : State) :
    exec (.trainingTimeout q) s = onDev (doTrainingTimeout q.1) s := rfl
theorem exec_trainBlock (q : QuadId) (block : BitVec 130) (codewords : List Codeword) (s : State) :
    exec (.trainBlock q block codewords) s = onDev (doTrainBlock q.1 block codewords) s := rfl
theorem exec_flit (q : QuadId) (flit : BitVec 2048) (codewords : List Codeword) (s : State) :
    exec (.flit q flit codewords) s = onDev (doFlit q.1 flit codewords) s := rfl
theorem exec_retryTimeout (q : QuadId) (s : State) :
    exec (.retryTimeout q) s = onDev (doRetryTimeout q.1) s := rfl
theorem exec_linkDispatch (p : PressId) (s : State) :
    exec (.linkDispatch p) s = onDev (doLinkDispatch p.1) s := rfl
theorem exec_collectiveDispatch (p : PressId) (s : State) :
    exec (.collectiveDispatch p) s = onDev (doCollectiveDispatch p.1) s := rfl
theorem exec_forronChunkRequest (sender : ForronSender) (s : State) :
    exec (.forronChunkRequest sender) s = onDev (doForronChunkRequest sender) s := rfl
theorem exec_forronReserve (msg : Nat) (s : State) :
    exec (.forronReserve msg) s = onDev (doForronReserve msg) s := rfl
theorem exec_forronGrant (msg : Nat) (cond : HopCondition) (flit : BitVec 6) (s : State) :
    exec (.forronGrant msg cond flit) s = onDev (doForronGrant msg cond flit) s := rfl
theorem exec_forronData (msg : Nat) (s : State) :
    exec (.forronData msg) s = onDev (doForronData msg) s := rfl
theorem exec_receipt (msg : Nat) (s : State) :
    exec (.receipt msg) s = onDev (doReceipt msg) s := rfl
theorem exec_forronCancel (msg : Nat) (s : State) :
    exec (.forronCancel msg) s = onDev (doForronCancel msg) s := rfl
theorem exec_grantHoldExpired (chunk : Nat) (s : State) :
    exec (.grantHoldExpired chunk) s = onDev (doGrantHold chunk) s := rfl
theorem exec_forronDeadline (sender : ForronSender) (s : State) :
    exec (.forronDeadline sender) s = onDev (doForronDeadline sender) s := rfl
theorem exec_flRouteDataWrite (src : Requester) (q : QuadId) (value : Word) (s : State) :
    exec (.flRouteDataWrite src q value) s = onSource src (.flRouteDataWrite src q value) (doRouteWrite src q.1 value) s := rfl
theorem exec_flOrouteDataWrite (src : Requester) (value : Word) (s : State) :
    exec (.flOrouteDataWrite src value) s = onSource src (.flOrouteDataWrite src value) (doOrouteWrite src value) s := rfl
theorem exec_saveDone (ticketId : BitVec 64) (s : State) :
    exec (.saveDone ticketId) s = onDev (doSaveDone ticketId) s := rfl
theorem exec_restoreDone (f : FormeId) (s : State) :
    exec (.restoreDone f) s = onDev (doRestoreDone f.1) s := rfl
theorem exec_treeWindow (tree : TreeId) (edges : Nat) (cycles : List QuadCycle) (user : List UserEdge) (s : State) :
    exec (.treeWindow tree edges cycles user) s = onDev (doTreeWindow tree.1 edges cycles user) s := rfl
theorem exec_fountPllLock (pll : PllId) (locked : Bool) (s : State) :
    exec (.fountPllLock pll locked) s = onDev (doPllLock pll.1 locked) s := rfl
theorem exec_iwBeat (r : RegionId) (s : State) :
    exec (.iwBeat r) s = onDev (doIwBeat r.1) s := rfl
theorem exec_rqAccept (r : RegionId) (s : State) :
    exec (.rqAccept r) s = onDev (doRqAccept r.1) s := rfl
theorem exec_rdBeat (r : RegionId) (beat : ReadBeat) (s : State) :
    exec (.rdBeat r beat) s = onDev (doRdBeat r.1 beat) s := rfl
theorem exec_feedBeat (feed : FeedId) (data : BitVec 4096) (s : State) :
    exec (.feedBeat feed data) s = onDev (doFeedBeat feed.1 data) s := rfl
theorem exec_feedMapWrite (feed : FeedId) (value : Word) (s : State) :
    exec (.feedMapWrite feed value) s = onHost (.feedMapWrite feed value) (doFeedMapWrite feed.1 value) s := rfl
theorem exec_ftClearCounts (s : State) :
    exec .ftClearCounts s = onHost .ftClearCounts doFtClearCounts s := rfl
theorem exec_cfBegin (src : Requester) (s : State) :
    exec (.cfBegin src) s = onSource src (.cfBegin src) (doCfBegin src) s := rfl
theorem exec_cfAbort (s : State) :
    exec .cfAbort s = onHost .cfAbort doCfAbort s := rfl
theorem exec_cfDoneRelease (s : State) :
    exec .cfDoneRelease s = onHost .cfDoneRelease doDoneRelease s := rfl
theorem exec_streamWord (word : Word) (whole : Bool) (poisoned : Bool) (s : State) :
    exec (.streamWord word whole poisoned) s = onHost (.streamWord word whole poisoned) (hostWrite .pf2 poisoned (doStreamWord word whole)) s := rfl
theorem exec_headerAccepted (s : State) :
    exec .headerAccepted s = onDev doHeaderAccepted s := rfl
theorem exec_clearingDone (s : State) :
    exec .clearingDone s = onDev doClearingDone s := rfl
theorem exec_cfNop (s : State) :
    exec .cfNop s = onDev doCfNop s := rfl
theorem exec_frames (s : State) :
    exec .frames s = onDev doFrames s := rfl
theorem exec_wreg (s : State) :
    exec .wreg s = onDev doWreg s := rfl
theorem exec_raminit (s : State) :
    exec .raminit s = onDev doRaminit s := rfl
theorem exec_tag (s : State) :
    exec .tag s = onDev doTag s := rfl
theorem exec_endCmd (s : State) :
    exec .endCmd s = onDev doEnd_ s := rfl
theorem exec_loadTruncated (s : State) :
    exec .loadTruncated s = onDev doLoadTruncated s := rfl
theorem exec_fullLoadComplete (s : State) :
    exec .fullLoadComplete s = onDev doFullComplete s := rfl
theorem exec_globalRelease (lineHigh : Bool) (level : Bool) (s : State) :
    exec (.globalRelease lineHigh level) s = onDev (doGlobalRelease lineHigh level) s := rfl
theorem exec_peersAbsent (s : State) :
    exec .peersAbsent s = onDev doPeersAbsent s := rfl
theorem exec_partialCommit (s : State) :
    exec .partialCommit s = onDev doPartialCommit s := rfl
theorem exec_shadowDiscardRelease (s : State) :
    exec .shadowDiscardRelease s = onDev doDiscardRelease s := rfl
theorem exec_releaseStage (s : State) :
    exec .releaseStage s = onDev doReleaseStage s := rfl
theorem exec_captureStart (tree : TreeId) (s : State) :
    exec (.captureStart tree) s = onHost (.captureStart tree) (doCaptureStart tree.1) s := rfl
theorem exec_captureRelease (s : State) :
    exec .captureRelease s = onHost .captureRelease doCaptureRelease s := rfl
theorem exec_captureCancel (s : State) :
    exec .captureCancel s = onHost .captureCancel doCaptureCancel s := rfl
theorem exec_captureEdge (s : State) :
    exec .captureEdge s = onDev doCaptureEdge s := rfl
theorem exec_captureCopyDone (s : State) :
    exec .captureCopyDone s = onDev doCaptureCopied s := rfl
theorem exec_captureTimeout (s : State) :
    exec .captureTimeout s = onDev doCaptureTimeout s := rfl
theorem exec_clockStopWrite (stop : Bool) (s : State) :
    exec (.clockStopWrite stop) s = onHost (.clockStopWrite stop) (doClockStop stop) s := rfl
theorem exec_fountStopped (s : State) :
    exec .fountStopped s = onDev doFountStopped s := rfl
theorem exec_fountResumed (s : State) :
    exec .fountResumed s = onDev doFountResumed s := rfl
theorem exec_readSelWrite (value : Word) (s : State) :
    exec (.readSelWrite value) s = onHost (.readSelWrite value) (doReadSel value) s := rfl
theorem exec_frameCheck (s : State) :
    exec .frameCheck s = onDev doFrameCheck s := rfl
theorem exec_cfErrorClear (s : State) :
    exec .cfErrorClear s = onHost .cfErrorClear doCfErrorClear s := rfl
theorem exec_hbmWindowRead (offset : BitVec 36) (len : BitVec 13) (s : State) :
    exec (.hbmWindowRead offset len) s = onDev (onLink (.windowRead offset none len.toNat) (doWindowRead offset none len.toNat)) s := rfl
theorem exec_hbmWindowWrite (offset : BitVec 36) (data : List Byte) (poisoned : Bool) (s : State) :
    exec (.hbmWindowWrite offset data poisoned) s = onDev (onLink (.windowWrite offset none data poisoned) (doWindowWrite offset none data poisoned)) s := rfl
theorem exec_userWindowWrite (offset : BitVec 28) (data : List Byte) (poisoned : Bool) (s : State) :
    exec (.userWindowWrite offset data poisoned) s = onHost (.userWindowWrite offset data poisoned) (doUserWrite offset data poisoned) s := rfl
theorem exec_userWindowRead (offset : BitVec 28) (len : BitVec 10) (s : State) :
    exec (.userWindowRead offset len) s = onHost (.userWindowRead offset len) (doUserRead offset len.toNat) s := rfl
theorem exec_userWindowTimeout (req : Nat) (s : State) :
    exec (.userWindowTimeout req) s = onDev (doUserTimeout req) s := rfl
theorem exec_hostReadCompletion (chunk : Nat) (result : HostReadResult) (s : State) :
    exec (.hostReadCompletion chunk result) s = onDev (doHostCompletion chunk result) s := rfl
theorem exec_ringEnable (ring : RingId) (value : Word) (poisoned : Bool) (s : State) :
    exec (.ringEnable ring value poisoned) s = onHost (.ringEnable ring value poisoned) (hostWrite .pf1 poisoned (doRingEnable ring.1 value)) s := rfl
theorem exec_pqEnable (q : PqId) (value : Word) (poisoned : Bool) (s : State) :
    exec (.pqEnable q value poisoned) s = onHost (.pqEnable q value poisoned) (hostWrite .pf1 poisoned (doPqEnable q.1 value)) s := rfl
theorem exec_pqHeadWrite (q : PqId) (head : BitVec 16) (poisoned : Bool) (s : State) :
    exec (.pqHeadWrite q head poisoned) s = onHost (.pqHeadWrite q head poisoned) (hostWrite .pf1 poisoned (doPqHead q.1 head)) s := rfl
theorem exec_holdoffEnd (q : PqId) (s : State) :
    exec (.holdoffEnd q) s = onDev (doHoldoffEnd q.1) s := rfl
theorem exec_d3hotEntry (fns : BitVec 3) (s : State) :
    exec (.d3hotEntry fns) s = onDev (doD3hot fns) s := rfl
theorem exec_functionD0 (fn : FnId) (s : State) :
    exec (.functionD0 fn) s = onDev (doFunctionD0 (fnIndex fn)) s := rfl
theorem exec_flrPf0 (s : State) :
    exec .flrPf0 s = onDev doFlrPf0 s := rfl
theorem exec_flrPf1 (s : State) :
    exec .flrPf1 s = onDev doFlrPf1 s := rfl
theorem exec_flrPf2 (s : State) :
    exec .flrPf2 s = onDev doFlrPf2 s := rfl
theorem exec_hotReset (s : State) :
    exec .hotReset s = onDev doHotReset s := rfl
theorem exec_linkDown (s : State) :
    exec .linkDown s = onDev doLinkDown s := rfl
theorem exec_errataSpill (s : State) :
    exec .errataSpill s = onDev doErrataSpill s := rfl
theorem exec_erRead (be : BitVec 4) (s : State) :
    exec (.erRead be) s = onHost (.erRead be) (doErRead be) s := rfl
theorem exec_erClearLost (s : State) :
    exec .erClearLost s = onHost .erClearLost doErClearLost s := rfl
theorem exec_firstErrorClear (unit : CaptureUnit) (s : State) :
    exec (.firstErrorClear unit) s = onHost (.firstErrorClear unit) (doFirstErrorClear unit) s := rfl
theorem exec_abortComplete (ticketId : BitVec 64) (s : State) :
    exec (.abortComplete ticketId) s = onDev (doAbortComplete ticketId) s := rfl
theorem exec_abortDeadline (p : PressId) (s : State) :
    exec (.abortDeadline p) s = onDev (doAbortDeadline p.1) s := rfl
theorem exec_psResetRequested (src : Requester) (p : PressId) (s : State) :
    exec (.psResetRequested src p) s = onSource src (.psResetRequested src p) (doResetRequested src p.1) s := rfl
theorem exec_psInternal (p : PressId) (platen : Option PlatenId) (s : State) :
    exec (.psInternal p platen) s = onDev (doPsInternal p.1 platen) s := rfl
theorem exec_pressQuiet (p : PressId) (s : State) :
    exec (.pressQuiet p) s = onDev (doPressQuiet p.1) s := rfl
theorem exec_drainBoundExpired (p : PressId) (s : State) :
    exec (.drainBoundExpired p) s = onDev (doDrainExpired p.1) s := rfl
theorem exec_pressResetDone (p : PressId) (s : State) :
    exec (.pressResetDone p) s = onDev (doResetDone p.1) s := rfl
theorem exec_resetBoundExpired (p : PressId) (s : State) :
    exec (.resetBoundExpired p) s = onDev (doResetExpired p.1) s := rfl
theorem exec_powerCycleBoundExpired (p : PressId) (s : State) :
    exec (.powerCycleBoundExpired p) s = onDev (doCycleExpired p.1) s := rfl
theorem exec_powerStateRequest (src : Requester) (request : BitVec 3) (s : State) :
    exec (.powerStateRequest src request) s = onSource src (.powerStateRequest src request) (doStateRequest src request) s := rfl
theorem exec_stateChangeStart (s : State) :
    exec .stateChangeStart s = onDev doChangeStart s := rfl
theorem exec_stateEntryStepDone (s : State) :
    exec .stateEntryStepDone s = onDev doEntryStepDone s := rfl
theorem exec_sidebandAddressMatch (written : BitVec 8) (s : State) :
    exec (.sidebandAddressMatch written) s = onAlways (doSideband written.toNat) s := rfl
theorem exec_sidebandRead (s : State) :
    exec .sidebandRead s = onAlways doSidebandRead s := rfl
theorem exec_latchedWake (s : State) :
    exec .latchedWake s = onAlways doLatchedWake s := rfl
theorem exec_wakeAtArm (value : Word) (s : State) :
    exec (.wakeAtArm value) s = onHost (.wakeAtArm value) (doWakeAtArm value) s := rfl
theorem exec_pwGateQuadWrite (src : Requester) (value : Word) (s : State) :
    exec (.pwGateQuadWrite src value) s = onSource src (.pwGateQuadWrite src value) (doGateQuad src value) s := rfl
theorem exec_pwGateRegionWrite (src : Requester) (value : Word) (s : State) :
    exec (.pwGateRegionWrite src value) s = onSource src (.pwGateRegionWrite src value) (doGateRegion src value) s := rfl
theorem exec_governorTick (s : State) :
    exec .governorTick s = onDev doGovernorTick s := rfl
theorem exec_domainPowerGood (d : DomainId) (s : State) :
    exec (.domainPowerGood d) s = onDev (doPowerGood d.1) s := rfl
theorem exec_domainFault (d : DomainId) (s : State) :
    exec (.domainFault d) s = onDev (doDomainFault d.1) s := rfl
theorem exec_domainOff (d : DomainId) (s : State) :
    exec (.domainOff d) s = onDev (doDomainOff d.1) s := rfl
theorem exec_padHoldRelease (banks : BitVec 8) (s : State) :
    exec (.padHoldRelease banks) s = onHost (.padHoldRelease banks) (doPadRelease banks) s := rfl
theorem exec_pwThrottleApply (src : Requester) (value : Word) (s : State) :
    exec (.pwThrottleApply src value) s = onSource src (.pwThrottleApply src value) (doThrottleApply src value) s := rfl
theorem exec_pwThrottleN (low : Bool) (s : State) :
    exec (.pwThrottleN low) s = onAlways (doThrottleN low) s := rfl
theorem exec_temperatureCrossing (celsius : BitVec 8) (s : State) :
    exec (.temperatureCrossing celsius) s = onDev (doTemperature celsius) s := rfl
theorem exec_droopTrip (tripped : Bool) (s : State) :
    exec (.droopTrip tripped) s = onDev (doDroop tripped) s := rfl
theorem exec_powerWindow (watts : BitVec 12) (s : State) :
    exec (.powerWindow watts) s = onDev (doPowerWindow watts) s := rfl
theorem exec_pwAlertN (low : Bool) (s : State) :
    exec (.pwAlertN low) s = onAlways (doAlertN low) s := rfl
theorem exec_stretchHoldExpired (s : State) :
    exec .stretchHoldExpired s = onDev doHoldExpired s := rfl
theorem exec_thermalTrip (s : State) :
    exec .thermalTrip s = onAlways doThermalTrip s := rfl
theorem exec_getCert (inLen : BitVec 14) (s : State) :
    exec (.getCert inLen) s = onHost (.getCert inLen) (doGetCert inLen) s := rfl
theorem exec_getWrapKey (inLen : BitVec 14) (s : State) :
    exec (.getWrapKey inLen) s = onHost (.getWrapKey inLen) (doGetWrapKey inLen) s := rfl
theorem exec_quote (inLen : BitVec 14) (s : State) :
    exec (.quote inLen) s = onHost (.quote inLen) (doQuote inLen) s := rfl
theorem exec_logRead (inLen : BitVec 14) (s : State) :
    exec (.logRead inLen) s = onHost (.logRead inLen) (doLogRead inLen) s := rfl
theorem exec_claim (inLen : BitVec 14) (s : State) :
    exec (.claim inLen) s = onHost (.claim inLen) (doClaim inLen) s := rfl
theorem exec_openSession (inLen : BitVec 14) (s : State) :
    exec (.openSession inLen) s = onHost (.openSession inLen) (doOpen inLen) s := rfl
theorem exec_closeSession (inLen : BitVec 14) (s : State) :
    exec (.closeSession inLen) s = onHost (.closeSession inLen) (doClose inLen) s := rfl
theorem exec_transferOwner (inLen : BitVec 14) (s : State) :
    exec (.transferOwner inLen) s = onHost (.transferOwner inLen) (doTransfer inLen) s := rfl
theorem exec_releaseOwner (inLen : BitVec 14) (s : State) :
    exec (.releaseOwner inLen) s = onHost (.releaseOwner inLen) (doRelease inLen) s := rfl
theorem exec_storeWrite (inLen : BitVec 14) (s : State) :
    exec (.storeWrite inLen) s = onHost (.storeWrite inLen) (doStoreWrite inLen) s := rfl
theorem exec_fwLoad (inLen : BitVec 14) (s : State) :
    exec (.fwLoad inLen) s = onHost (.fwLoad inLen) (doFwLoad inLen) s := rfl
theorem exec_fwActivate (inLen : BitVec 14) (s : State) :
    exec (.fwActivate inLen) s = onHost (.fwActivate inLen) (doFwActivate inLen) s := rfl
theorem exec_rollbackAdvance (inLen : BitVec 14) (s : State) :
    exec (.rollbackAdvance inLen) s = onHost (.rollbackAdvance inLen) (doRollback inLen) s := rfl
theorem exec_sessionExpired (s : State) :
    exec .sessionExpired s = onDev doSessionExpired s := rfl
theorem exec_storeWriteDone (programmed : Bool) (s : State) :
    exec (.storeWriteDone programmed) s = onDev (doStoreDone programmed) s := rfl
theorem exec_identityDerived (s : State) :
    exec .identityDerived s = onDev doIdentity s := rfl
theorem exec_logEntryDurable (programmed : Bool) (s : State) :
    exec (.logEntryDurable programmed) s = onDev (doLogDurable programmed) s := rfl
theorem exec_deviceReset (kind : ResetKind) (s : State) :
    exec (.deviceReset kind) s = onAlways (doDeviceReset kind) s := rfl
theorem exec_railFault (s : State) :
    exec .railFault s = onAlways doRailFault s := rfl
theorem exec_fmtClearCounts (p : PressId) (s : State) :
    exec (.fmtClearCounts p) s = onHost (.fmtClearCounts p) (clearPress p.1 fun x => { x with fmt := fmtClear x.fmt }) s := rfl
theorem exec_plClearCounts (p : PressId) (pl : PlatenId) (s : State) :
    exec (.plClearCounts p pl) s = onHost (.plClearCounts p pl) (clearPress p.1 fun x => setPlaten x pl (plClear (getPlaten x pl))) s := rfl
theorem exec_inClearCounts (p : PressId) (s : State) :
    exec (.inClearCounts p) s = onHost (.inClearCounts p) (clearPress p.1 fun x => { x with ink := inClear x.ink }) s := rfl
theorem exec_juClearCounts (p : PressId) (s : State) :
    exec (.juClearCounts p) s = onHost (.juClearCounts p) (clearPress p.1 fun x => { x with ink := juClear x.ink }) s := rfl
theorem exec_fmCoClearCounts (f : FormeId) (s : State) :
    exec (.fmCoClearCounts f) s = onHost (.fmCoClearCounts f) (doFmCoClearCounts f.1) s := rfl
theorem exec_psStallClearCounts (p : PressId) (s : State) :
    exec (.psStallClearCounts p) s = onHost (.psStallClearCounts p) (clearPress p.1 fun x => { x with stalls := {} }) s := rfl
theorem exec_hostLinkUp (rate width : BitVec 4) (flit : Bool) (s : State) :
    exec (.hostLinkUp rate width flit) s = onDev (doLinkUp rate width flit) s := rfl
theorem exec_foremanStarted (s : State) :
    exec .foremanStarted s = onDev doForemanStarted s := rfl
theorem exec_partialRegionsHeld (s : State) :
    exec .partialRegionsHeld s = onDev doRegionsHeld s := rfl
theorem exec_flrComplete (fn : FnId) (s : State) :
    exec (.flrComplete fn) s = onDev (doFlrComplete (fnIndex fn)) s := rfl
theorem exec_mailboxCommandDone (s : State) :
    exec .mailboxCommandDone s = onDev doMailboxDone s := rfl

end Sys2Proof.Machine
end

