-- ==== Sys2Proof/Laws/Memory.lean ====
section
/-!
SUPPORT. Laws/Memory.lean: sparse maps keep their canonical form and read back what was written; every operation of a
protected memory keeps `Mem.wf`, and the memories of the reset state have it.
-/
namespace Sys2Proof.Machine

/-! ## Sparse maps -/

section
variable {α : Type} [DecidableEq α]

theorem smapWfFrom_mono {dflt : α} {lo lo' : Nat} {m : List (Nat × α)} (h : smapWfFrom dflt lo m = true) (hl : lo' ≤ lo) :
    smapWfFrom dflt lo' m = true := by
  cases m with
  | nil => rfl
  | cons e r => simp only [smapWfFrom, Bool.and_eq_true, decide_eq_true_eq] at h ⊢; exact ⟨⟨by omega, h.1.2⟩, h.2⟩

theorem smapPut_wfFrom {dflt : α} {m : List (Nat × α)} {lo k : Nat} {v : α} (h : smapWfFrom dflt lo m = true)
    (hk : lo ≤ k) (hv : v ≠ dflt) : smapWfFrom dflt lo (smapPut m k v) = true := by
  induction m generalizing lo with
  | nil => simp [smapPut, smapWfFrom, hk, hv]
  | cons e r ih =>
    obtain ⟨k', v'⟩ := e
    simp only [smapWfFrom, Bool.and_eq_true, decide_eq_true_eq] at h
    unfold smapPut
    by_cases h1 : k' = k
    · subst h1; simp [smapWfFrom, h.1.1, hv, h.2]
    · rw [if_neg h1]
      by_cases h2 : k < k'
      · rw [if_pos h2]; simp [smapWfFrom, hk, hv, h.1.2, h.2]; omega
      · rw [if_neg h2]; simp only [smapWfFrom, Bool.and_eq_true, decide_eq_true_eq]
        exact ⟨h.1, ih h.2 (by omega)⟩

theorem smapDel_wfFrom {dflt : α} {m : List (Nat × α)} {lo k : Nat} (h : smapWfFrom dflt lo m = true) :
    smapWfFrom dflt lo (smapDel m k) = true := by
  induction m generalizing lo with
  | nil => rfl
  | cons e r ih =>
    obtain ⟨k', v'⟩ := e
    have h' := h
    simp only [smapWfFrom, Bool.and_eq_true, decide_eq_true_eq] at h
    unfold smapDel
    by_cases h1 : k' = k
    · rw [if_pos h1]; exact smapWfFrom_mono h.2 (by omega)
    · rw [if_neg h1]
      by_cases h2 : k < k'
      · rw [if_pos h2]; exact h'
      · rw [if_neg h2]; simp only [smapWfFrom, Bool.and_eq_true, decide_eq_true_eq]; exact ⟨h.1, ih h.2⟩

/-- Writing keeps the canonical form. -/
theorem smapSet_wf {dflt : α} {m : List (Nat × α)} (k : Nat) (v : α) (h : smapWf dflt m = true) :
    smapWf dflt (smapSet dflt m k v) = true := by
  unfold smapSet
  by_cases hv : v = dflt
  · rw [if_pos hv]; exact smapDel_wfFrom h
  · rw [if_neg hv]; exact smapPut_wfFrom h (Nat.zero_le k) hv

theorem smapGet_below {dflt : α} {m : List (Nat × α)} {lo k : Nat} (h : smapWfFrom dflt lo m = true) (hk : k < lo) :
    smapGet dflt m k = dflt := by
  cases m with
  | nil => rfl
  | cons e r =>
    simp only [smapWfFrom, Bool.and_eq_true, decide_eq_true_eq] at h
    unfold smapGet; rw [if_neg (by omega), if_pos (by omega)]

theorem smapGet_put {dflt : α} {m : List (Nat × α)} (k j : Nat) (v : α) :
    smapGet dflt (smapPut m k v) j = if j = k then v else smapGet dflt m j := by
  induction m with
  | nil => simp only [smapPut, smapGet]; split <;> split <;> try split
           all_goals first | rfl | omega
  | cons e r ih =>
    obtain ⟨k', v'⟩ := e
    unfold smapPut
    by_cases h1 : k' = k
    · subst h1; rw [if_pos rfl]; simp only [smapGet]
      by_cases h : j = k'
      · subst h; simp
      · simp [h, Ne.symm h]
    · rw [if_neg h1]
      by_cases h2 : k < k'
      · rw [if_pos h2]; simp only [smapGet]
        by_cases h : j = k
        · subst h; simp
        · rw [if_neg (fun h' => h h'.symm), if_neg h]
          by_cases h3 : j < k
          · rw [if_pos h3, if_neg (by omega), if_pos (by omega)]
          · rw [if_neg h3]
      · rw [if_neg h2]; simp only [smapGet, ih]
        by_cases h : j = k
        · subst h; rw [if_neg h1, if_neg h2, if_pos rfl, if_pos rfl]
        · rw [if_neg h, if_neg h]

theorem smapGet_del {dflt : α} {m : List (Nat × α)} {lo : Nat} (k j : Nat) (h : smapWfFrom dflt lo m = true) :
    smapGet dflt (smapDel m k) j = if j = k then dflt else smapGet dflt m j := by
  induction m generalizing lo with
  | nil => simp [smapDel, smapGet]
  | cons e r ih =>
    obtain ⟨k', v'⟩ := e
    simp only [smapWfFrom, Bool.and_eq_true, decide_eq_true_eq] at h
    unfold smapDel
    by_cases h1 : k' = k
    · subst h1; rw [if_pos rfl]; simp only [smapGet]
      by_cases h' : j = k'
      · subst h'; rw [if_pos rfl]; exact smapGet_below h.2 (by omega)
      · rw [if_neg h', if_neg (fun x => h' x.symm)]
        by_cases h3 : j < k'
        · rw [if_pos h3]; exact smapGet_below h.2 (by omega)
        · rw [if_neg h3]
    · rw [if_neg h1]
      by_cases h2 : k < k'
      · rw [if_pos h2]; simp only [smapGet]
        by_cases h' : j = k
        · subst h'; rw [if_neg h1, if_pos h2, if_pos rfl]
        · rw [if_neg h']
      · rw [if_neg h2]; simp only [smapGet, ih h.2]
        by_cases h' : j = k
        · subst h'; rw [if_neg h1, if_neg h2, if_pos rfl, if_pos rfl]
        · rw [if_neg h', if_neg h']

/-- Read after write. -/
theorem smapGet_set {dflt : α} {m : List (Nat × α)} (k j : Nat) (v : α) (h : smapWf dflt m = true) :
    smapGet dflt (smapSet dflt m k v) j = if j = k then v else smapGet dflt m j := by
  unfold smapSet
  by_cases hv : v = dflt
  · subst hv; rw [if_pos rfl]; exact smapGet_del k j h
  · rw [if_neg hv]; exact smapGet_put k j v

/-- A part of a canonical map is canonical. -/
theorem smapWf_filter {dflt : α} {m : List (Nat × α)} {lo : Nat} (p : Nat × α → Bool) (h : smapWfFrom dflt lo m = true) :
    smapWfFrom dflt lo (m.filter p) = true := by
  induction m generalizing lo with
  | nil => rfl
  | cons e r ih =>
    obtain ⟨k, v⟩ := e
    simp only [smapWfFrom, Bool.and_eq_true, decide_eq_true_eq] at h
    by_cases hp : p (k, v) = true
    · rw [List.filter_cons_of_pos hp]; simp only [smapWfFrom, Bool.and_eq_true, decide_eq_true_eq]
      exact ⟨h.1, ih h.2⟩
    · rw [List.filter_cons_of_neg hp]; exact smapWfFrom_mono (ih h.2) (by omega)

end

/-! ## Protected memories (R299 to R304) -/

theorem rawPut_wf {l : List (Nat × Byte)} (a : Nat) (v : List Byte) (h : smapWf 0 l = true) :
    smapWf 0 (rawPut l a v) = true := by
  induction v generalizing l a with
  | nil => exact h
  | cons b r ih => exact ih (a + 1) (smapSet_wf a b h)

theorem rawPut_get {l : List (Nat × Byte)} (a : Nat) (v : List Byte) (x : Nat) (h : smapWf 0 l = true) :
    smapGet 0 (rawPut l a v) x = if a ≤ x ∧ x < a + v.length then v.getD (x - a) 0 else smapGet 0 l x := by
  induction v generalizing l a with
  | nil => simp only [rawPut, List.length_nil]; rw [if_neg (by omega)]
  | cons b r ih =>
    simp only [rawPut, List.length_cons]
    rw [ih (a + 1) (smapSet_wf a b h), smapGet_set a x b h]
    by_cases h1 : x = a
    · subst h1; rw [if_neg (by omega), if_pos rfl, if_pos (by omega)]; simp
    · rw [if_neg h1]
      by_cases h2 : a + 1 ≤ x ∧ x < a + 1 + r.length
      · rw [if_pos h2, if_pos (by omega)]
        have : x - a = (x - (a + 1)) + 1 := by omega
        rw [this]; simp
      · rw [if_neg h2, if_neg (by omega)]

theorem Mem.wf_iff (m : Mem) : m.wf = true ↔ smapWf 0 m.bytes = true ∧ smapWf 0 m.syn = true ∧ m.merge.length ≤ 16 := by
  simp only [Mem.wf, Bool.and_eq_true, decide_eq_true_eq, and_assoc]

theorem putBlock_wf {m : Mem} (b : Nat) (d : BitVec 256) (h : m.wf = true) : (putBlock m b d).wf = true := by
  rw [Mem.wf_iff] at h ⊢
  exact ⟨rawPut_wf _ _ h.1, smapSet_wf b 0 h.2.1, h.2.2⟩

/-- A merge buffer that grows no longer than another stays within its length. -/
theorem wf_merge {m : Mem} {l : List MergeEntry} (h : m.wf = true) (hl : l.length ≤ 16) : { m with merge := l }.wf = true := by
  rw [Mem.wf_iff] at h ⊢; exact ⟨h.1, h.2.1, hl⟩

theorem flushEntry_wf {m : Mem} (e : MergeEntry) (h : m.wf = true) : (flushEntry m e).1.wf = true := by
  unfold flushEntry
  split
  · exact putBlock_wf _ _ h
  · simp only []; split
    · exact h
    · exact putBlock_wf _ _ h

theorem flushEntry_merge (m : Mem) (e : MergeEntry) : (flushEntry m e).1.merge = m.merge := by
  unfold flushEntry
  split
  · rfl
  · simp only []; split <;> rfl

theorem flushFold_wf (l : List MergeEntry) (a : Mem × List MemEv) (h : a.1.wf = true) :
    (l.foldl (fun (a : Mem × List MemEv) e => let (m', evs) := flushEntry a.1 e; (m', a.2 ++ evs)) a).1.wf = true := by
  induction l generalizing a with
  | nil => exact h
  | cons e r ih => exact ih _ (flushEntry_wf e h)

theorem flushWhere_wf {m : Mem} (p : MergeEntry → Bool) (h : m.wf = true) : (flushWhere p m).1.wf = true := by
  unfold flushWhere
  refine flushFold_wf _ _ (wf_merge h ?_)
  exact Nat.le_trans (List.length_filter_le _ _) ((Mem.wf_iff m).1 h).2.2

theorem flushAll_wf {m : Mem} (h : m.wf = true) : (flushAll m).1.wf = true := flushWhere_wf _ h

/-- Making room in the merge buffer: the oldest entry of a full one is flushed. -/
theorem narrowRoom_wf {m : Mem} (h : m.wf = true) :
    let r : Mem × List MemEv :=
      if m.merge.length < 16 then (m, [])
      else match m.merge with
        | [] => (m, [])
        | e :: r => flushEntry { m with merge := r } e
    r.1.wf = true ∧ r.1.merge.length < 16 := by
  have hl := ((Mem.wf_iff m).1 h).2.2
  intro r
  by_cases h1 : m.merge.length < 16
  · simp only [r, if_pos h1]; exact ⟨h, h1⟩
  · simp only [r, if_neg h1]
    cases hm : m.merge with
    | nil => rw [hm] at h1; simp at h1
    | cons e q =>
      rw [hm] at hl; simp only [List.length_cons] at hl
      exact ⟨flushEntry_wf e (wf_merge h (by omega)), by rw [flushEntry_merge]; show q.length < 16; omega⟩

theorem narrowPut_wf {m : Mem} (b off : Nat) (v : List Byte) (h : m.wf = true) : (narrowPut m b off v).1.wf = true := by
  have hl := ((Mem.wf_iff m).1 h).2.2
  unfold narrowPut
  refine flushWhere_wf _ ?_
  split
  · exact wf_merge h (by simpa [modWhere] using hl)
  · have hr := narrowRoom_wf h
    exact wf_merge hr.1 (by rw [List.length_append]; exact Nat.succ_le_of_lt hr.2)

theorem writeOne_wf {m : Mem} (b off : Nat) (v : List Byte) (h : m.wf = true) : (writeOne m b off v).1.wf = true := by
  unfold writeOne
  split
  · refine putBlock_wf _ _ (wf_merge h ?_)
    exact Nat.le_trans (List.length_filter_le _ _) ((Mem.wf_iff m).1 h).2.2
  · exact narrowPut_wf _ _ _ h

theorem writeFrom_wf (fuel : Nat) {m : Mem} (a : Nat) (v : List Byte) (h : m.wf = true) :
    (writeFrom fuel m a v).1.wf = true := by
  induction fuel generalizing m a v with
  | zero => exact h
  | succ n ih =>
    cases v with
    | nil => exact h
    | cons b r => exact ih _ _ (writeOne_wf _ _ _ h)

/-- Every write keeps the canonical form. -/
theorem memWrite_wf {m : Mem} (a : Nat) (v : List Byte) (h : m.wf = true) : (memWrite m a v).1.wf = true :=
  writeFrom_wf _ _ _ h

/-- Every read keeps the canonical form. -/
theorem memRead_wf {m : Mem} (a n : Nat) (h : m.wf = true) : (memRead m a n).1.wf = true := by
  unfold memRead
  split
  · exact h
  · simp only []; split
    · exact flushWhere_wf _ h
    · exact flushWhere_wf _ h

/-- What a partial self-refresh retains is canonical. -/
theorem memKeepBelow_wf {m : Mem} (lim : Nat) (h : m.wf = true) : (memKeepBelow lim m).wf = true := by
  rw [Mem.wf_iff] at h ⊢
  exact ⟨smapWf_filter _ h.1, smapWf_filter _ h.2.1, Nat.zero_le _⟩

theorem memEmpty_wf : memEmpty.wf = true := rfl

theorem vgetN_replicate {α : Type} (n : Nat) (x : α) (i : Nat) : vgetN x (Vector.replicate n x) i = x := by
  unfold vgetN; split <;> simp

/-- The memories of the reset state list nothing. -/
theorem reset_mem_wf (id : MemId) : (memGet State.reset.dev id).wf = true := by
  cases id with
  | hbm n =>
    have : (stack State.reset.dev n).mem = {} := by
      show (vgetN {} (resetStacks .xg9480) n).mem = {}
      unfold vgetN; split
      · simp only [resetStacks, resetStack, Vector.getElem_ofFn]; split <;> rfl
      · rfl
    show (stack State.reset.dev n).mem.wf = true; rw [this]; rfl
  | galley p =>
    have : press State.reset.dev p = {} := vgetN_replicate _ _ _
    show (press State.reset.dev p).galley.wf = true; rw [this]; rfl
  | case f =>
    have : forme State.reset.dev f = {} := vgetN_replicate _ _ _
    show (forme State.reset.dev f).case.wf = true; rw [this]; rfl
  | xmem f =>
    have : forme State.reset.dev f = {} := vgetN_replicate _ _ _
    show (forme State.reset.dev f).xmem.wf = true; rw [this]; rfl
  | ymem f =>
    have : forme State.reset.dev f = {} := vgetN_replicate _ _ _
    show (forme State.reset.dev f).ymem.wf = true; rw [this]; rfl
  | imem f =>
    have : forme State.reset.dev f = {} := vgetN_replicate _ _ _
    show (forme State.reset.dev f).imem.wf = true; rw [this]; rfl

end Sys2Proof.Machine
end

