-- ==== Sys2Proof/Laws/Report.lean ====
section
/-!
SUPPORT. Laws/Report.lean: all that the operations that report can change: a record in a proof queue (R487, R491), an
entry of the Errata log with its capture (R498 to R502).
-/
namespace Sys2Proof.Machine

/-- A vector message changes the host interface and what has left the block. -/
theorem sendVector_frame (v : Nat) (d : Device) : ∃ h o, sendVector v d = { d with host := h, out := o } := by
  unfold sendVector
  split
  · exact ⟨d.host, d.out, rfl⟩
  · simp only []
    split
    · exact ⟨_, d.out, rfl⟩
    · exact ⟨d.host, _, rfl⟩

theorem signalPq_frame (q : Nat) (d : Device) : ∃ h o, signalPq q d = { d with host := h, out := o } := by
  unfold signalPq
  simp only []
  split
  · exact ⟨_, d.out, rfl⟩
  · obtain ⟨h, o, e⟩ := sendVector_frame (pqueue d q).vector.toNat d
    rw [e]; exact ⟨_, o, rfl⟩

theorem pqWrite_frame (q : Nat) (r : Rec) (d : Device) : ∃ h o, pqWrite q r d = { d with host := h, out := o } := by
  unfold pqWrite
  simp only []
  split
  · obtain ⟨h, o, e⟩ := signalPq_frame q (modPq q (fun x => { x with
        tail := BitVec.ofNat 16 (((pqueue d q).tail.toNat + 1) % pqSlots x),
        phase := if (pqueue d q).tail.toNat + 1 = pqSlots x then !x.phase else x.phase })
      (emit (.hostWrite ((pqueue d q).base.toNat + 64 * (pqueue d q).tail.toNat)
        (recBytes { r with incarnation := d.forron.inc } (pqueue d q).phase)) d))
    rw [e]; exact ⟨h, o, rfl⟩
  · exact ⟨_, _, rfl⟩

theorem postPlain_frame (q : Nat) (r : Rec) (d : Device) : ∃ h o, postPlain q r d = { d with host := h, out := o } := by
  unfold postPlain
  simp only []
  split
  · exact ⟨_, d.out, rfl⟩
  · split
    · exact pqWrite_frame q r d
    · split
      · exact ⟨_, d.out, rfl⟩
      · exact ⟨_, d.out, rfl⟩

theorem tellLost_frame (q : Nat) (d : Device) : ∃ h o, tellLost q d = { d with host := h, out := o } := by
  unfold tellLost
  simp only []
  split
  · split
    · obtain ⟨h, o, e⟩ := pqWrite_frame q (lostRec d q) (modPq q (fun x => { x with lostSince := 0 }) d)
      rw [e]; exact ⟨h, o, rfl⟩
    · obtain ⟨h, o, e⟩ := postPlain_frame d.host.errataPq.toNat (lostRec d q) (modPq q (fun x => { x with lostSince := 0 }) d)
      rw [e]; exact ⟨h, o, rfl⟩
  · exact ⟨d.host, d.out, rfl⟩

/-- A record posted changes the host interface and what has left the block, and nothing else. -/
theorem postRec_frame (q : Nat) (r : Rec) (d : Device) : ∃ h o, postRec q r d = { d with host := h, out := o } := by
  unfold postRec
  obtain ⟨h, o, e⟩ := tellLost_frame q d
  rw [e]
  obtain ⟨h', o', e'⟩ := postPlain_frame q r { d with host := h, out := o }
  rw [e']; exact ⟨h', o', rfl⟩

/-- A capture changes the captures alone. -/
theorem capture_frame (r : Rec) (pc : Option (BitVec 15)) (st : Option (BitVec 12)) (d : Device) : ∃ p f s q e,
    capture r pc st d = { d with presses := p, formes := f, hbmStacks := s, quads := q, errata := e } := by
  unfold capture
  simp only []
  split <;> exact ⟨_, _, _, _, _, rfl⟩

theorem noteEscalation_frame (u : BitVec 32) (c : BitVec 16) (d : Device) : ∃ e, noteEscalation u c d = { d with errata := e } := by
  unfold noteEscalation
  split
  · split
    · exact ⟨d.errata, rfl⟩
    · split
      · exact ⟨d.errata, rfl⟩
      · exact ⟨_, rfl⟩
  · exact ⟨d.errata, rfl⟩

/-- A logged error changes the Errata log and captures, and nothing else. -/
theorem logError_frame (sev : Nat) (u : BitVec 32) (t : BitVec 64) (c : BitVec 16) (dt : BitVec 256) (pc : Option (BitVec 15))
    (st : Option (BitVec 12)) (d : Device) : ∃ p f s q e,
    logError sev u t c dt pc st d = { d with presses := p, formes := f, hbmStacks := s, quads := q, errata := e } := by
  unfold logError
  obtain ⟨p, f, s, q, e, h⟩ := capture_frame { unit := u, time := d.time.count, ticket := t, code := c } pc st d
  rw [h]
  obtain ⟨e', h'⟩ := noteEscalation_frame u c (errataEntry sev u t c dt
    { d with presses := p, formes := f, hbmStacks := s, quads := q, errata := e })
  rw [h']; exact ⟨p, f, s, q, e', rfl⟩

theorem logPlain_frame (u : BitVec 32) (c : BitVec 16) (dt : BitVec 256) (d : Device) : ∃ p f s q e,
    logPlain u c dt d = { d with presses := p, formes := f, hbmStacks := s, quads := q, errata := e } :=
  logError_frame ..

end Sys2Proof.Machine
end

