-- ==== Sys2Proof/Laws/Settle.lean ====
section
/-!
SUPPORT. Laws/Settle.lean: what the operations that follow at once from a command change of the device, and what they
leave alone (`settleGrants`, `settleEngines`, `settleFeeds`).
-/
namespace Sys2Proof.Machine

/-! ## Sending at a Forron port changes quads and what has left the block only -/

theorem foldl_emit_frame {α : Type} (l : List α) (f : α → Output) (d : Device) :
    ∃ o, l.foldl (fun d k => emit (f k) d) d = { d with out := o } := by
  induction l generalizing d with
  | nil => exact ⟨d.out, rfl⟩
  | cons a l ih => obtain ⟨o, h⟩ := ih (emit (f a) d); exact ⟨o, by rw [List.foldl_cons, h]; rfl⟩

theorem sendMarks_frame (p n : Nat) (d : Device) : ∃ o, sendMarks p n d = { d with out := o } :=
  foldl_emit_frame (List.range (portWidth d p)) (fun k => .laneMark p k (laneMark k (portWidth d p) n)) d

theorem sendBlocks_frame (p : Nat) (l : List Block) (d : Device) :
    ∃ qs o, sendBlocks p l d = { d with quads := qs, out := o } := by
  unfold sendBlocks
  simp only []
  generalize hd : modQuad p (fun x => { x with stream := x.stream ++ l }) d = d1
  have h1 : ∃ qs, d1 = { d with quads := qs } := ⟨_, hd.symm⟩
  obtain ⟨qs, rfl⟩ := h1
  split
  · exact ⟨qs, d.out, rfl⟩
  · obtain ⟨o, h⟩ := foldl_emit_frame (List.range (portWidth { d with quads := qs } p))
      (fun k => .superframe p k (BitVec.ofNat 70720 (superframeWire
        (laneBlocks (portWidth { d with quads := qs } p) k (quad { d with quads := qs } p).frames
          (quad { d with quads := qs } p).stream)))) { d with quads := qs }
    rw [h]
    generalize hm : modQuad p (fun x => { x with
        stream := x.stream.drop (513 * portWidth { d with quads := qs } p),
        frames := x.frames + 1 }) { d with quads := qs, out := o } = d2
    have h2 : ∃ qs, d2 = { d with quads := qs, out := o } := ⟨_, hm.symm⟩
    obtain ⟨qs2, rfl⟩ := h2
    obtain ⟨o', h'⟩ := sendMarks_frame p ((quad { d with quads := qs } p).frames + 1) { d with quads := qs2, out := o }
    refine ⟨qs2, o', ?_⟩
    rw [← h', ← hm]

theorem emitFlit_frame (q : Nat) (h : BitVec 96) (m : Option FMsg) (d : Device) :
    ∃ qs o, emitFlit q h m d = { d with quads := qs, out := o } := by
  obtain ⟨qs, o, e⟩ := sendBlocks_frame q
    (flitBlocks (flitBytes h (match m with | some m => fmsgBytes m | none => bytesOf 240 0))) (emit (.flit q h m
      (flitBlocks (flitBytes h (match m with | some m => fmsgBytes m | none => bytesOf 240 0)))) d)
  exact ⟨qs, o, e⟩

theorem pumpPort_frame (n q : Nat) (d : Device) :
    ∃ qs o, pumpPort n q d = { d with quads := qs, out := o } := by
  induction n generalizing d with
  | zero => exact ⟨d.quads, d.out, rfl⟩
  | succ n ih =>
    have step : ∀ h m (d' : Device), (∃ qs o, d' = { d with quads := qs, out := o }) →
        ∃ qs o, pumpPort n q (emitFlit q h m d') = { d with quads := qs, out := o } := by
      rintro h m _ ⟨qs, o, rfl⟩
      obtain ⟨qs1, o1, h1⟩ := emitFlit_frame q h m { d with quads := qs, out := o }
      obtain ⟨qs2, o2, h2⟩ := ih (emitFlit q h m { d with quads := qs, out := o })
      exact ⟨qs2, o2, by rw [h2, h1]⟩
    unfold pumpPort
    simp only []
    split
    · split
      · exact ⟨d.quads, d.out, rfl⟩
      · split <;> exact step _ _ _ ⟨_, _, rfl⟩
    · exact ⟨d.quads, d.out, rfl⟩

theorem sendAt_frame (q : Nat) (tr : Option Nat) (m : FMsg) (d : Device) :
    ∃ qs o, sendAt q tr m d = { d with quads := qs, out := o } := by
  unfold sendAt; simp only []
  obtain ⟨qs, o, h⟩ := pumpPort_frame 1024 q (modQuad q _ d)
  rw [h]; exact ⟨qs, o, rfl⟩

theorem flAnswer_frame (t st ca v : Nat) (x : FRx) (d : Device) :
    ∃ qs o, flAnswer t st ca v x d = { d with quads := qs, out := o } := by
  unfold flAnswer originate
  split
  · exact ⟨d.quads, d.out, rfl⟩
  · exact sendAt_frame _ _ _ _

/-- With no chunk at a Forron receiver, no engine has a RESERVE to answer. -/
theorem settleEngines_idle (d : Device) (h : d.forron.rx = []) : settleEngines d = d := by
  simp [settleEngines, h]

/-- One feed map changes the fount only. -/
def settleFeed (d : Device) (k : Nat) : Device :=
  match vgetN none d.fount.feedNext k with
  | none => d
  | some v =>
    if feedHeld d k then d
    else modFount (fun f => { f with feedMap := vmodN f.feedMap k fun _ => v,
                                     feedNext := vmodN f.feedNext k fun _ => none }) d

theorem settleFeeds_eq (d : Device) : settleFeeds d = (List.range 32).foldl settleFeed d := rfl

theorem settleFeed_frame (d : Device) (k : Nat) :
    ∃ m n, settleFeed d k = { d with fount := { d.fount with feedMap := m, feedNext := n } } := by
  unfold settleFeed
  split
  · exact ⟨d.fount.feedMap, d.fount.feedNext, rfl⟩
  · split
    · exact ⟨d.fount.feedMap, d.fount.feedNext, rfl⟩
    · exact ⟨_, _, rfl⟩

theorem settleFeeds_frame (d : Device) :
    ∃ m n, settleFeeds d = { d with fount := { d.fount with feedMap := m, feedNext := n } } := by
  rw [settleFeeds_eq]
  suffices H : ∀ (l : List Nat) (d : Device),
      ∃ m n, l.foldl settleFeed d = { d with fount := { d.fount with feedMap := m, feedNext := n } } from H _ d
  intro l
  induction l with
  | nil => intro d; exact ⟨d.fount.feedMap, d.fount.feedNext, rfl⟩
  | cons x l ih =>
    intro d
    obtain ⟨m, n, h⟩ := settleFeed_frame d x
    obtain ⟨m', n', h'⟩ := ih (settleFeed d x)
    rw [List.foldl_cons, h', h]; exact ⟨m', n', rfl⟩

/-- A grant changes pools, receive space and the chase's flight: whether a receiver is shut does not change. -/
theorem grantChunk_frame (c : RxChunk) (d : Device) :
    ∃ ps fs ch, grantChunk c d = { d with presses := ps, formes := fs, chase := ch } := by
  unfold grantChunk modRx chaseSend modPool modChase noteService modChase
  simp only []
  repeat' split
  all_goals exact ⟨_, _, _, rfl⟩

end Sys2Proof.Machine
end

