-- ==== Sys2Proof/Tests/Slice0.lean ====
section
/-!
SUPPORT. Tests/Slice0.lean: the checks of WellFormed with a term that each refuses, small tests of single commands whose
expected values are worked out by hand from the rules named beside them, and for every statement of
Certificates/Slice0/Obligations.lean that has hypotheses a theorem showing that something meets them.
-/
namespace Sys2Proof.Tests
set_option Elab.async false
open Sys2Proof Sys2Proof.Machine

/-- The device right after reset. -/
abbrev r0 : Device := Device.reset

/-- A state with a given device and no command waiting. -/
def on (d : Device) : State := ⟨d, []⟩

/-- The device after one command. -/
def after (c : Instr) (d : Device) : Device :=
  match exec c ⟨d, []⟩ with
  | .next t => t.dev
  | _ => d

/-- A part that is Locked at point 0 of sheet 1 with its reference and PT_CODE good. -/
def locked : Device := modTime (fun t => { t with count := 4096, state := .locked, refOk := true }) r0

/-- A part whose host link is up, its functions enabled as bus masters. -/
def linked : Device := modHost (fun h => { h with linkUp := true, linkRate := 5, linkWidth := 4, command := Vector.replicate 3 6, msixEnable := true }) locked

/-- A posted write to the stream waits on the link. -/
def blocked (d : Device) : Device := modHost (fun h => { h with linkUp := true, link := [.row (.streamWord 0 true)] }) d

/-- Every stack ready, Foreman running. -/
def ready : Device :=
  { modTrust (fun t => { t with running := some { slot := 0, digest := none, version := 1, svn := 0 } }) linked with
    hbmStacks := Vector.ofFn fun i => { resetStack .xg9480 i.1 with state := .ready } }

/-! ## WellFormed: each check refuses a term, and admits its boundary -/

theorem test_wf_register_write_aligned : (Instr.registerWrite .pf0 0x100040 0 0xF).wf = true := by decide
theorem test_wf_register_write_misaligned : (Instr.registerWrite .pf0 0x100041 0 0xF).wf = false := by decide
theorem test_wf_low_word_read_misaligned : (Instr.lowWordRead .pf0 0x10000A 0xF).wf = false := by decide
theorem test_wf_phase_low : (Instr.ptSyncEdge 1600 (-2048)).wf = true := by decide
theorem test_wf_phase_too_low : (Instr.ptSyncEdge 1600 (-2049)).wf = false := by decide
theorem test_wf_phase_too_high : (Instr.ptSyncEdge 1600 2048).wf = false := by decide
theorem test_wf_window_read_longest : (Instr.hbmWindowRead 0 4096).wf = true := by decide
theorem test_wf_window_read_too_long : (Instr.hbmWindowRead 0 4097).wf = false := by decide
theorem test_wf_window_read_empty : (Instr.hbmWindowRead 0 0).wf = false := by decide
theorem test_wf_window_write_empty : (Instr.hbmWindowWrite 0 [] false).wf = false := by decide
theorem test_wf_user_write_empty : (Instr.userWindowWrite 0 [] false).wf = false := by decide
theorem test_wf_user_read_too_long : (Instr.userWindowRead 0 513).wf = false := by decide
theorem test_wf_link_up : (Instr.hostLinkUp 7 8 true).wf = true := by decide
theorem test_wf_link_up_rate : (Instr.hostLinkUp 0 4 true).wf = false := by decide
theorem test_wf_link_up_width : (Instr.hostLinkUp 5 3 true).wf = false := by decide
theorem test_wf_mailbox_input : (Instr.storeWrite 8192).wf = true := by decide
theorem test_wf_mailbox_input_too_long : (Instr.storeWrite 8193).wf = false := by decide
theorem test_wf_mailbox_claim_too_long : (Instr.claim 8193).wf = false := by decide
theorem test_safe_queue_refuses : safeQueue [.erRead 0xF, .claim 8193] = false := by decide

/-! ## The table gives its rows no bits -/

theorem test_no_table_words : decodeTableWord 32 0x05000000 = none := rfl

/-! ## Whole-part statements (O1 to O5, O58 to O60) -/

theorem witness_FrontCommandRuns : (State.mk r0 [.erRead 0xF, .ptClearCounts]).pending = .erRead 0xF :: [.ptClearCounts] := rfl
theorem witness_IdleStepIsOnePoint_awake : State.reset.pending = [] ∧ asleep State.reset.dev = false :=
  ⟨rfl, by decide +kernel⟩
theorem witness_IdleStepIsOnePoint_asleep : asleep (modTrust (fun t => { t with porLow := true }) r0) = true := by
  decide +kernel
theorem witness_EveryCommandAnswers :
    asleep (modPower (fun w => { w with tripped := true }) r0) = true ∧ alwaysOn (.erRead 0xF) = false ∧
      calm (modPower (fun w => { w with tripped := true }) r0) = true := by decide +kernel
theorem witness_EveryCommandAnswers_host : asleep linked = false ∧ (rowEffect (.erRead 0xF)).isSome = true ∧
    linkBusy linked = false ∧ linkBusy (blocked linked) = true := by decide +kernel
theorem witness_IdleStepIsOnePoint_link : linked.power.wakeWait = none ∧ linked.host.linkUp = true ∧
    linkNext linked [.row (.erRead 0xF)] = some 0 ∧ linkNext linked linked.host.link = none := by decide +kernel
theorem witness_SettledFrame : calm r0 = true ∧ abortsBegun r0 = true ∧ r0.errata.failed = [] ∧ r0.errata.escalate = [] ∧
    r0.forron.rx.all (·.granted) = true := by decide +kernel
theorem witness_FullSheetNumber : 2 ^ 32 - 1 < 2 ^ 32 ∧ ((5 : Int) - 3) % 2 ^ 32 = 2 := by decide
/-- R478 by hand: in sheet 2^32 + 5 the field 3 is two sheets back and the field 8 three sheets on. -/
theorem test_full_sheet_number : fullSheet (2 ^ 32 + 5) 3 = 2 ^ 32 + 3 ∧ fullSheet (2 ^ 32 + 5) 8 = 2 ^ 32 + 8 := by decide
theorem reset_no_chunk : r0.chase.rx = [] := by
  have h : r0.chase.rx.isEmpty = true := by decide +kernel
  exact List.isEmpty_iff.1 h
theorem witness_StepKeepsFollowed : feedsSettled r0 = true ∧ enginesSettled r0 = true ∧
    ∀ dst : Nat, r0.chase.rx.find? (fun c => c.dst = dst && !c.granted) = none :=
  ⟨by decide +kernel, by decide +kernel, fun dst => by rw [reset_no_chunk]; rfl⟩
theorem witness_MemoryReadsBack :
    let m : Mem := { bytes := [(3, 1), (70, 5)], syn := [(1, 3), (2, 5)], merge := [⟨2, 1, 9, none⟩, ⟨7, 3, 1, none⟩] }
    m.wf = true ∧ 0 < 2 ∧ (List.replicate 64 (7 : Byte)).length = 32 * 2 := by decide +kernel
/-- R302 to R304 by hand: a byte written to a block stays in the merge buffer until a read of the block flushes it. -/
theorem test_narrow_write_reads_back :
    let m := (memWrite memEmpty 0x23 [0xA5]).1
    m.bytes = [] ∧ m.merge.length = 1 ∧ (memRead m 0x20 5).2.1 = [0, 0, 0, 0xA5, 0] ∧ (memRead m 0x20 5).1.merge = [] := by
  decide +kernel
/-- R299, R300 by hand: one data bit that differs from its check word is mended: row 1, column 2 is bit 18. -/
theorem test_syndrome_names_the_bit : judgeSyndrome 0x00040002 = .dataBit 18 ∧ judgeSyndrome 0x00040000 = .checkBit
    ∧ judgeSyndrome 0x00040003 = .bad ∧ judgeSyndrome 0 = .good := by decide +kernel

/-! ## Press Time (O6) -/

def trusted : Device := modTime (fun t => { t with refPoints := 4096, edgeRun := 4, frameRun := 4, frameSeen := true }) locked

theorem witness_TimeInputs_awake : asleep locked = false ∧ r0.time.refOk = false := by decide +kernel
theorem witness_TimeInputs_edge : locked.time.refOk = true ∧ locked.time.state = .locked ∧ locked.point = 0 ∧
    locked.time.mismatch = none := by decide +kernel
theorem witness_TimeInputs_slip : (5 : Int) ≠ 0 ∧
    (((modTime (fun t => { t with count := 4091 }) locked).point : Int) + 5) % 4096 = 0 := by decide +kernel
theorem witness_TimeInputs_mismatch :
    let d := modTime (fun t => { t with mismatch := some 17 }) locked
    d.time.refOk = true ∧ d.time.mismatch = some 17 ∧ ((17 : Int) - d.sheet).natAbs = 16 ∧ ((18 : Int) - d.sheet).natAbs = 17 := by
  decide +kernel
theorem witness_TimeInputs_early :
    let d := modTime (fun t => { t with state := .acquiring }) locked
    d.time.state ≠ .locked ∧ restorable d.time = false ∧ ((d.point : Int) + 0) % 4096 = 0 := by decide +kernel
theorem witness_TimeInputs_restore :
    let d := modTime (fun t => { t with state := .holdover, lastFrame := some 7 }) trusted
    d.time.refOk = true ∧ d.time.state = .holdover ∧ restorable d.time = true ∧ ((7 : Int) - ((d.now : Int) + 0) / 4096).natAbs ≤ 16 ∧
      ((40 : Int) - ((d.now : Int) + 0) / 4096).natAbs = 39 ∧ ((d.point : Int) + 0) % 4096 = 0 := by decide +kernel
theorem witness_TimeInputs_noCode :
    (modTime (fun t => { t with codeRequired := false }) locked).time.codeRequired = false ∧ r0.time.state ≠ .locked ∧
      linkBusy r0 = false := by decide +kernel
theorem witness_TimeInputs_adopt :
    let d := modTime (fun t => { t with state := .acquiring, lastFrame := some 7, codeOk := true }) trusted
    d.time.refOk = true ∧ d.time.state = .acquiring ∧ restorable d.time = true ∧ d.time.lastFrame = some 7 ∧
      ((d.point : Int) + 0) % 4096 = 0 := by decide +kernel
/-- The frame that announces sheet 7, with its right CRC. -/
def frame7 : BitVec 100 :=
  let f : BitVec 100 := place 100 99 92 0x7E ||| place 100 91 40 7
  f ||| place 100 35 20 (crc16 ((List.range 56).map fun k => f.getLsbD (91 - k))).toNat
theorem witness_TimeInputs_frame : locked.time.codeRequired = true ∧ frameValid 0 = false ∧ frameValid frame7 = true := by
  decide +kernel
theorem witness_TimeInputs_lost :
    let d := modTime (fun t => { t with missedEdges := 2, missedFrames := 4 }) locked
    d.time.state = .locked ∧ 2 ≤ d.time.missedEdges ∧ d.time.codeRequired = true ∧ 4 ≤ d.time.missedFrames := by
  decide +kernel
theorem witness_TimeInputs_expired :
    let d := modTime (fun t => { t with state := .holdover, holdoverSheets := 1024 }) locked
    d.time.state = .holdover ∧ 1024 ≤ d.time.holdoverSheets.toNat := by decide +kernel
/-- R27: the reference comes into tolerance and an Unsynced part acquires. -/
theorem test_refclk : (after .refclkInTolerance r0).time.state = .acquiring ∧ (after .refclkInTolerance r0).time.refOk = true := by
  decide +kernel
/-- R30: Locked, then Holdover on the loss of the reference. -/
theorem test_input_lost : (after (.inputLost .refclk) locked).time.state = .holdover ∧
    (after (.inputLost .refclk) locked).time.refOk = false := by decide +kernel
theorem test_pt_clear : (after .ptClearCounts (modTime (fun t => { t with syncSlips := 9, codeErrors := 4 }) r0)).time.syncSlips
    = 0 := by decide +kernel
/-- R26: a step with nothing waiting is one point. -/
theorem test_idle_step : (match step (on locked) with | .next t => t.dev.time.count | _ => 0) = 4097 := by decide +kernel

/-! ## Registers (O8 to O10) -/

theorem witness_PlainRegisterWrites : asleep linked = false ∧ (0x7 : BitVec 4) ≠ 0xF ∧ fnServes linked .pf1 = true ∧ 63 < 64 ∧
    (vgetN {} linked.host.rings 63).enable = false := by decide +kernel
theorem witness_ProtectedRegisterWrites : bit (0 : Word) 1 ≠ locked.time.codeRequired ∧ bit (2 : Word) 1 = locked.time.codeRequired ∧
    locked.trust.session = false ∧ (modTrust (fun t => { t with session := true }) locked).trust.session = true := by
  decide +kernel
def fencedPress : Device := modPress 127 (fun x => { x with recovery := { x.recovery with state := .fenced } }) locked
theorem witness_ProtectedRegisterWrites_fenced : fenced locked 127 = false ∧ fenced fencedPress 127 = true := by decide +kernel
theorem witness_LowWordReads : fnServes linked .pf0 = true ∧ fnServes linked .pf1 = true ∧ 63 < 64 ∧ 7 < 8 ∧
    (let d := modHost (fun h => { h with flr := 2 }) linked; d.host.linkUp = true ∧ bit d.host.flr 1 = true) ∧
    linkBusy linked = false ∧ linkBusy (blocked linked) = true := by decide +kernel
/-- R9, R11: one read of both words of PT_NOW answers one moment and uses up what it holds. -/
theorem test_two_word_read :
    let d := after (.lowWordRead .pf0 0x100008 0xF [0xF]) (modTime (fun t => { t with count := 0x500001000 }) linked)
    d.out.head? = some (.completion .pf0 (.data [0, 0x10, 0, 0, 5, 0, 0, 0])) ∧ d.host.hold.pf0 = [] := by decide +kernel
/-- R65: search in [28:16], lead in [11:8], admitting in [0]. -/
theorem test_mk_ctrl :
    let d := after (.registerWrite .pf0 0x100040 0x01000301 0xF) locked
    d.mkr.search = 0x100 ∧ d.mkr.lead = 3 ∧ d.mkr.admitting = true := by decide +kernel
/-- R12, R59: PT_CTRL needs a session; without one the write leaves the register and is logged. -/
theorem test_rwi_without_session :
    let d := after (.registerWrite .pf0 0x100000 0 0xF) locked
    d.time.codeRequired = true ∧ d.errata.next = 1 ∧ d.trust.seq = 3 := by decide +kernel
theorem test_rwi_with_session :
    (after (.registerWrite .pf0 0x100000 0 0xF) (modTrust (fun t => { t with session := true }) locked)).time.codeRequired
      = false := by decide +kernel
/-- R11: PT_COUNT is read low word first; its high word is held. -/
theorem test_low_word_read :
    let d := after (.lowWordRead .pf0 0x100008 0xF) (modTime (fun t => { t with count := 0x500001000 }) linked)
    d.out.head? = some (.completion .pf0 (.data [0, 0x10, 0, 0])) ∧ d.host.hold.pf0 = [(0x10000C, some 5)] := by decide +kernel

/-! ## Rings, tickets and Makeready (O11 to O17) -/

/-- Ring 0 enabled with 16 slots, its proof queue 0 enabled. -/
def ringed : Device :=
  modPq 0 (fun x => { x with enable := true, log2size := 8 })
    (modRing 0 (fun x => { x with enable := true, size := 16, base := 0x10000 }) ready)
/-- A doorbell waits; a ticket is being read. -/
def rung : Device := modHost (fun h => { h with doorbells := [⟨0, 1, false⟩] }) ringed
def reading : Device := modHost (fun h => { h with doorbells := [⟨0, 1, true⟩], reading := some (0, 0, 0) }) ringed

theorem witness_DoorbellsAndTicketReads_ring :
    let x := vgetN {} ringed.host.rings 0
    asleep ringed = false ∧ fnServes ringed .pf0 = true ∧ fnServes ringed .pf1 = true ∧ x.enable = true ∧ x.closing = false ∧
      (15 : BitVec 12).toNat < x.size.toNat ∧ (15 : BitVec 12) ≠ x.tail ∧ x.size.toNat ≤ (16 : BitVec 12).toNat := by
  decide +kernel
theorem witness_DoorbellsAndTicketReads_service :
    let x := vgetN {} rung.host.rings 0
    rung.host.doorbells = [⟨0, 1, false⟩] ∧ rung.host.reading = none ∧ rung.mkr.admission = none ∧ x.enable = true ∧
      x.closing = false ∧ ticketsHeld rung x.pq.toNat = false ∧ (1 : Nat) ≠ x.head.toNat ∧ (0 : Nat) = x.head.toNat := by
  decide +kernel
theorem witness_DoorbellsAndTicketReads_failed : reading.host.reading = some (0, 0, 0) := by decide +kernel
/-- R483: the service reads 64 bytes at the head slot. -/
theorem test_doorbell_then_service :
    (after .doorbellService (after (.doorbell 0 1) ringed)).out.head? = some (.hostRead 0x10000 64) := by decide +kernel

/-- A well-formed submit ticket with identifier 7, and one of each other op (R477). -/
def submit7 : BitVec 512 := place 512 63 0 7 ||| place 512 127 64 0x40 ||| place 512 383 320 0x80
def resume7 : BitVec 512 := place 512 63 0 7 ||| place 512 127 64 0x40 ||| place 512 383 320 0x1000 ||| place 512 449 448 1
def pause7 : BitVec 512 := place 512 63 0 7 ||| place 512 383 320 0x1000 ||| place 512 449 448 2
def abort7 : BitVec 512 := place 512 63 0 7 ||| place 512 449 448 3
/-- An open ticket with identifier 7 in slot 5. -/
def ticket5 : Ticket :=
  { slot := 5, id := 7, ring := 0, ringIndex := 0, pq := 0, cls := 0, abortOnBreak := false, resume := false, seed := 0,
    step := 0, program := 0x80, entryTally := 0, start := 1, promise := 2, map := [(0, 0)], entries := [], toStart := 1,
    running := 0, started := false, broken := false, brokenUnit := 0, abort := none, pause := none, elapsed := 0 }
def withTicket (t : Ticket) (d : Device) : Device := modMk (fun m => { m with tickets := [t] }) d

theorem witness_TicketOperations_take :
    asleep reading = false ∧ noImage reading = false ∧ noImage (modTrust (fun t => { t with running := none, booting := none }) reading) = true ∧ openingCheck (readEnd 0 reading) submit7 = none ∧ tkOp submit7 = 0 ∧
      openingCheck (readEnd 0 reading) resume7 = none ∧ tkOp resume7 = 1 ∧
      openingCheck (readEnd 0 reading) 0 = some 0x0701 ∧ tkOp 0 = 0 ∧
      openingCheck (readEnd 0 (withTicket ticket5 reading)) resume7 = some 0x0116 := by decide +kernel
theorem witness_TicketOperations_open :
    let d := readEnd 0 (withTicket ticket5 reading)
    let e := readEnd 0 (withTicket { ticket5 with started := true } reading)
    ticketOk pause7 = true ∧ tkOp pause7 = 2 ∧ ticketOk abort7 = true ∧ tkOp abort7 = 3 ∧
      (openTarget d 7).map (·.started) = some false ∧ (openTarget e 7).map (·.started) = some true ∧
      (openTarget d 7).map (·.pause) = some none ∧
      (openTarget (readEnd 0 (withTicket { ticket5 with pause := some ⟨0, 0⟩ } reading)) 7).map (·.pause.isSome) = some true ∧ openTarget (readEnd 0 reading) 7 = none := by decide +kernel
/-- R46, R477: a ticket whose identifier is zero is refused and counted. -/
theorem test_submit_refused : (after (.submit 0) reading).mkr.refused = 1 ∧ (after (.submit 0) reading).mkr.admission = none := by
  decide +kernel
theorem test_submit_taken : (after (.submit submit7) reading).mkr.admission.map (·.ticket) = some submit7 := by decide +kernel

/-- An entry of a table or an imposition (R36): its sheet, point 0, action, slot, span in points, class, index, quantity and
argument, valid. -/
def entry (sheet action slot span cls idx qty arg : Nat) : BitVec 128 :=
  place 128 127 108 sheet ||| place 128 95 92 action ||| place 128 91 80 slot ||| place 128 79 60 span ||| place 128 47 44 cls
    ||| place 128 43 32 idx ||| place 128 31 24 qty ||| place 128 23 8 arg ||| 1#128
def withEntry (i : Nat) (e : BitVec 128) (d : Device) : Device := modMk (fun m => { m with table := [(i, e)] }) d

/-- The bytes of an imposition (R40) of one sheet: header with the tally, then the entries. -/
def impBytes (es : List (BitVec 128)) : List Byte :=
  let head := leBytes 2 1 ++ leBytes 2 es.length ++ leBytes 2 1 ++ leBytes 2 0x9480 ++ bytesOf 16 0
  let body := es.flatMap fun e => leBytes 16 e.toNat
  head ++ leBytes 8 (tally (head ++ body)).toNat ++ bytesOf 32 0 ++ body
/-- Makeready is handling `submit7` with start sheet 2 and the given deadline, its imposition in HBM at 40h. -/
def admitting (deadline : Nat) (es : List (BitVec 128)) : Device :=
  modStack 0 (fun x => { x with mem := (memWrite x.mem 0x40 (impBytes es)).1 })
    (modMk (fun m => { m with admission := some ⟨0, 0, 0, place 512 159 128 2 ||| place 512 191 160 deadline ||| submit7, false⟩ })
      ringed)
/-- The admission of `submit7`, its imposition read without an exhausted replay. -/
def a0 : Admission := ⟨0, 0, 0, submit7, false⟩
/-- One HOLD of forme 3, and two holds of power beyond the budget (R39, R53). -/
def holdForme : List (BitVec 128) := [entry 0 8 0 100 0 3 1 0]
def holdPower : List (BitVec 128) := [entry 0 8 0 100 5 0 255 0, entry 0 8 0 100 5 0 255 0]
/-- What the search finds for class 0 from the lead sheet on, where the imposition reads well. -/
def search (deadline n : Nat) (es : List (BitVec 128)) (d : Device) : Option SearchOut :=
  (readImp 0x40 (modStack 0 (fun x => { x with mem := (memWrite x.mem 0x40 (impBytes es)).1 }) d)).2.map fun imp =>
    searchFrom d imp 0 deadline n 2
def isPlaced : Option SearchOut → Bool
  | some (.placed _) => true
  | _ => false

theorem witness_AdmitTicketOutcome_refused :
    let d := modMk (fun m => { m with admission := none }) (admitting 9 [])
    asleep d = false ∧ (admitting 9 []).mkr.admission.isSome = true ∧ d.time.state = .locked ∧
      (readImp 0x40 d).2 = none ∧ stateRefusal .holdover = some 0x0102 := by decide +kernel
theorem witness_AdmitTicketOutcome_found :
    let d := modMk (fun m => { m with admission := none }) (admitting 9 holdForme)
    let e := (readImp 0x40 d).1
    ((readImp 0x40 d).2.map fun imp => (needsOffline e imp, fitsEmpty e imp 0)) = some (false, true) ∧
      isPlaced (search 9 256 holdForme e) = true ∧ freeSlot e = some 0 ∧
      search 1 256 holdForme e = some (.deadline 2) ∧
      search 9 1 holdForme (withEntry 0 (entry 2 8 9 100 0 3 1 0) e) = some .noRoom := by decide +kernel
/-- One START of forme 2's presses 16 and 23. -/
def startForme : List (BitVec 128) := [entry 0 1 0 100 0 2 0x81 0]
theorem witness_AdmitTicketOutcome_offline :
    let d := modErrata (fun e => { e with offline := BitVec.ofNat 128 (2 ^ 23) })
      (modMk (fun m => { m with admission := none }) (admitting 9 startForme))
    busesIssue d = true ∧ noImage d = false ∧ a0.lost = false ∧ { a0 with lost := true }.lost = true ∧
      ((readImp 0x40 d).2.map fun imp => needsOffline (readImp 0x40 d).1 imp) = some true := by decide +kernel
theorem witness_AdmitTicketOutcome_overrun :
    let d := withEntry 0 (entry 0 1 9 100 0 3 1 0 ||| 10#128) (modMk (fun m => { m with admission := none }) (admitting 9 holdForme))
    ((readImp 0x40 d).2.map fun imp => (fitsEmpty (readImp 0x40 d).1 imp 0, needsOverrun (readImp 0x40 d).1 imp)) =
      some (true, true) := by decide +kernel
/-- A ticket in each of the first `n` slots. -/
def slotsFull (n : Nat) (d : Device) : Device :=
  modMk (fun m => { m with tickets := (List.range n).map fun s => { ticket5 with slot := s } }) d
theorem slotsFull_isNone (n : Nat) (d : Device) (s : Nat) (hs : s ∈ List.range n) :
    (ticketOf (slotsFull n d) s).isNone = false := by
  have h : (ticketOf (slotsFull n d) s).isSome = true :=
    List.find?_isSome.2 ⟨{ ticket5 with slot := s }, List.mem_map.2 ⟨s, hs, rfl⟩, decide_eq_true rfl⟩
  rw [← Option.not_isSome, h]; rfl
theorem witness_AdmitTicketOutcome_noSlot (d : Device) : freeSlot (slotsFull 4095 d) = none :=
  List.find?_eq_none.2 fun s hs => by rw [slotsFull_isNone 4095 d s hs]; decide
theorem witness_AdmitTicketOutcome_never :
    let d := modMk (fun m => { m with admission := none }) (admitting 9 holdPower)
    ((readImp 0x40 d).2.map fun imp => fitsEmpty (readImp 0x40 d).1 imp 0) = some false := by decide +kernel
theorem witness_EarliestPlacement :
    isPlaced (some (searchFrom ringed ⟨1, false, holdForme⟩ 0 9 256 2)) = true ∧
      searchFrom ringed ⟨1, false, holdForme⟩ 0 1 256 2 = .deadline 2 := by decide +kernel
theorem witness_AdmissionNeverOvercommits :
    ((candidate ringed ⟨1, false, holdForme⟩ 0 4).map fun pl =>
      (planDemands 0 4 pl.es).map fun x => (active 16384 x, x.cls)) = some [(true, 0)] := by decide +kernel
/-- R44 to R46: an imposition whose header does not read well is refused. A good one is accepted at sheet 4: its press is
off, its WAKE may not come before sheet 1 + 2, and a press wakes in less than a sheet (R45). -/
theorem test_admit : (after .admitTicket (admitting 9 [])).mkr.refused = 1 ∧
    (after .admitTicket (admitting 9 holdForme)).mkr.accepted = 1 ∧
    (after .admitTicket (admitting 9 holdForme)).mkr.tickets.map (·.start) = [4] := by decide +kernel

/-- Forme 2 idle, the ticket of slot 5 open, one entry due at index 4. -/
def firing (e : BitVec 128) : Device :=
  withEntry 4 e (withTicket ticket5 (modForme 2 (fun x => { x with state := .idle }) ready))
theorem witness_EntriesFire_windows : asleep (firing (entry 1 2 5 10 1 0 1 0)) = false ∧
    entryDue (firing (entry 1 2 5 10 1 0 1 0)) 4 = true ∧ eAction (entry 1 2 5 10 1 0 1 0) = 2 ∧
    entryDue (firing (entry 1 3 5 10 3 0 1 0)) 4 = true ∧ eAction (entry 1 3 5 10 3 0 1 0) = 3 ∧
    entryDue (firing (entry 1 8 5 10 0 0 1 0)) 4 = true ∧ eAction (entry 1 8 5 10 0 0 1 0) = 8 := by decide +kernel
theorem witness_EntriesFire_start :
    let e := entry 1 1 5 10 0 2 0x81 0
    let d := firing e
    let x := modPress 23 (fun x => { x with recovery := { x.recovery with state := .fenced } }) d
    entryDue d 4 = true ∧ eAction e = 1 ∧ (ticketOf d (eSlot e)).map (·.slot) = some 5 ∧ formeFree d (eIndex e) = true ∧
      ticket5.abort = none ∧ ticket5.pause = none ∧ (maskPresses 2 (eQty e)).find? (fenced d) = none ∧
      (maskPresses 2 (eQty e)).find? (fenced x) = some 23 := by decide +kernel
theorem witness_EntriesFire_system :
    eAction (entry 1 4 0xFFF 10 1 7 1 0) = 4 ∧ entryDue (firing (entry 1 4 0xFFF 10 1 7 1 0)) 4 = true ∧
      (stack (firing (entry 1 4 0xFFF 10 1 7 1 0)) 7).state = .ready ∧
      eAction (entry 1 5 0xFFF 10 6 128 0 0) = 5 ∧ eArg (entry 1 5 0xFFF 10 6 128 0 0) % 8 = 0 ∧
      (domain (firing (entry 1 5 0xFFF 10 6 128 0 0)) 128).dstate = .on ∧ eArg (entry 1 5 0xFFF 10 6 0 0 2) % 8 = 2 ∧
      eArg (entry 1 5 0xFFF 10 6 144 0 4) % 8 = 4 ∧ eArg (entry 1 5 0xFFF 10 6 151 0 5) % 8 = 5 ∧
      eAction (entry 1 6 0xFFF 10 6 201 0 0) = 6 ∧ eSlot (entry 1 6 0xFFF 10 6 201 0 0) = 0xFFF ∧
      eSlot (entry 1 6 5 10 6 201 0 0) ≠ 0xFFF := by decide +kernel
theorem witness_EntriesFire_promise :
    let e := entry 1 7 5 0 0 0 0 0
    eAction e = 7 ∧ entryDue (firing e) 4 = true ∧ (ticketOf (firing e) (eSlot e)).map (·.pause) = some none ∧
      ticketOf (withEntry 4 e ready) (eSlot e) = none := by decide +kernel
/-- R38, R177: a START begins its forme's loading with the press mask of the entry, and marks the entry fired. -/
theorem test_start_fires :
    let d := after (.startFire 4) (firing (entry 1 1 5 10 0 2 0x81 0))
    (forme d 2).state = .loading ∧ (forme d 2).pmask = 0x81 ∧ (forme d 2).task = some 5 ∧ eFired (getEntry d 4) = true := by
  decide +kernel
/-- R291: a refresh slot refreshes twice as often in a hot stack. -/
theorem test_refresh_fires : (stack (after (.refreshFire 4) (firing (entry 1 4 0xFFF 10 1 7 1 0))) 7).refreshed = 4 := by
  decide +kernel
/-- R535: a WAKE entry of a press that is Off queues its domain in the wake governor. -/
theorem test_wake_fires : (after (.wakeFire 4) (firing (entry 1 6 5 10 6 0 0 0))).power.queue.map (·.1) = [0] := by
  decide +kernel

/-- The same at point 0 of sheet 3: the entry's span and margin are over. -/
def ended (e : BitVec 128) (t : Ticket) : Device :=
  modTime (fun x => { x with count := 3 * 4096 }) (withEntry 4 e (withTicket t ready))
theorem witness_ReservationsEnd :
    let e := entry 1 1 5 10 0 2 1 0
    let d := ended e { ticket5 with entries := [4] }
    eValid e = true ∧ entryEnd d e ≤ d.now ∧ eAction e = 1 ∧ eOverrun e = false ∧
      ((ticketOf d 5).map (noStartDone d)) = some false ∧
      ((ticketOf (ended (entry 1 8 5 10 0 2 1 0) { ticket5 with toStart := 0, entries := [4] }) 5).map
        (noStartDone (ended (entry 1 8 5 10 0 2 1 0) { ticket5 with toStart := 0, entries := [4] }))) = some true ∧
      eFired (entry 1 2 5 10 1 0 1 0 ||| 2#128) = true ∧ eAction (entry 1 2 5 10 1 0 1 0 ||| 2#128) = 2 := by decide +kernel
theorem witness_ReservationsEnd_system :
    let e := entry 1 4 0xFFF 10 1 7 1 2 ||| 2#128
    ticketOf (ended e ticket5) (eSlot e) = none ∧ eFired e = true ∧ eAction e = 4 ∧
      entryEnd (ended e ticket5) e ≤ (ended e ticket5).now ∧ eAction (entry 1 6 0xFFF 10 6 201 0 0 ||| 2#128) ≠ 4 := by
  decide +kernel
/-- R52: a START's reservation that ends before its program breaks the ticket's promise. -/
theorem test_reservation_end_breaks :
    (after (.reservationEnd 4) (ended (entry 1 1 5 10 0 2 1 0) { ticket5 with started := true, toStart := 0, running := 1 })).mkr.broken
      = 1 := by decide +kernel
/-- R291: the refresh entry moves on by its arg. -/
theorem test_refresh_moves_on :
    let d := after (.reservationEnd 4) (ended (entry 1 4 0xFFF 10 1 7 1 2 ||| 2#128) ticket5)
    eSheet (getEntry d 4) = 3 ∧ eFired (getEntry d 4) = false := by decide +kernel

/-! ## The compositor core (O18 to O22, O25, O26) -/

/-- An instruction word: the opcode and the bits below it, no qualifier (R206, R209). -/
def wd (op rest : Nat) : Word := BitVec.ofNat 32 (op * 2 ^ 22 + rest)
def regs (l : List (Nat × Word)) : CoRegs := l.foldl (fun r nv => wg r nv.1 nv.2) {}
/-- Forme 15 running for the task in slot 5, the word at its pc 0. -/
def co (w : Word) (r : CoRegs := {}) : Device :=
  withTicket { ticket5 with started := true }
    (modForme 15 (fun x => { x with state := .running, task := some 5, pmask := 0xFF, filling := false,
                                    imem := memOf (leBytes 4 w.toNat), regs := r }) ready)
/-- The forme after one command. -/
def core (c : Instr) (d : Device) : Forme := forme (after c d) 15

theorem issues_of {d : Device} {f : Nat} {w : Word}
    (h : (mayIssue d f && decide ((fetchWord d f).1 = w) && (fetchWord d f).2.isEmpty && wordValid w
      && qualOn w (forme d f).regs && !interlocked (forme d f) w) = true) : Issues d f w d := by
  simp only [Bool.and_eq_true, decide_eq_true_eq, Bool.not_eq_true', List.isEmpty_iff] at h
  obtain ⟨⟨⟨⟨⟨h1, h2⟩, h3⟩, h4⟩, h5⟩, h6⟩ := h
  exact ⟨h1, h2, by rw [h3]; rfl, h4, by rw [h3]; rfl, h5, h6⟩

/-- addi g1, g0, -1; movi g2, 8000h; movi.hi g2, 8000h. -/
def wAddi : Word := wd 0x05 (1 * 2 ^ 17 + 0xFFF)
def wMovi : Word := wd 0x06 (2 * 2 ^ 17 + 0x8000)
def wMovh : Word := wd 0x06 (2 * 2 ^ 17 + 2 ^ 16 + 0x8000)
theorem witness_AddiAndMovi : asleep (co wAddi) = false ∧ Issues (co wAddi) 15 wAddi (co wAddi) ∧
    Issues (co wMovi) 15 wMovi (co wMovi) ∧ Issues (co wMovh) 15 wMovh (co wMovh) ∧ wop wAddi = 0x05 ∧ wop wMovh = 0x06 ∧
    bit wMovh 16 = true ∧ fieldN wMovh 21 17 ≠ 0 :=
  ⟨by decide +kernel, issues_of (by decide +kernel), issues_of (by decide +kernel), issues_of (by decide +kernel),
    by decide, by decide, by decide, by decide⟩
theorem test_addi : let x := core (.addi 15) (co wAddi)
    rg x.regs 1 = 0xFFFFFFFF ∧ bit x.regs.sr 0 = true ∧ bit x.regs.sr 1 = false ∧ x.regs.pc = 1 := by decide +kernel
theorem test_movi : rg (core (.movi 15) (co wMovi)).regs 2 = 0xFFFF8000 ∧
    rg (core (.movi 15) (co wMovh (regs [(2, 0x1234ABCD)]))).regs 2 = 0x8000ABCD := by decide +kernel

/-- sub g0, g1, g2 (a compare); amov and smov both ways; ldt, mtt, mft. -/
def wSub : Word := wd 0x04 (1 * 2 ^ 12 + 2 * 2 ^ 7 + 1)
def wAmovRd : Word := wd 0x0A (3 * 2 ^ 17 + 11 * 2 ^ 13 + 2 ^ 12)
def wAmovX : Word := wd 0x0A (3 * 2 ^ 17 + 3 * 2 ^ 13)
def wAmovM : Word := wd 0x0A (3 * 2 ^ 17 + 15 * 2 ^ 13)
def wSmov (sel rd : Nat) : Word := wd 0x0B (3 * 2 ^ 17 + sel * 2 ^ 13 + rd * 2 ^ 12)
def wLdt : Word := wd 0x0C (15 * 2 ^ 18 + 1 * 2 ^ 16)
def wMtt : Word := wd 0x0D (15 * 2 ^ 18 + 7 * 2 ^ 15 + 9 * 2 ^ 10)
def wMft : Word := wd 0x0E (15 * 2 ^ 18 + 7 * 2 ^ 15 + 9 * 2 ^ 10)
theorem witness_ScalarRegisters_issue (w : Word)
    (h : w ∈ [wd 1 0, wd 2 0, wSub, wAmovRd, wAmovX, wAmovM, wSmov 0 1, wSmov 5 1, wSmov 0 0, wSmov 2 0, wSmov 5 0, wLdt,
              wMtt, wMft]) : Issues (co w) 15 w (co w) := by
  have key : ([wd 1 0, wd 2 0, wSub, wAmovRd, wAmovX, wAmovM, wSmov 0 1, wSmov 5 1, wSmov 0 0, wSmov 2 0, wSmov 5 0, wLdt,
              wMtt, wMft].all fun w => mayIssue (co w) 15 && decide ((fetchWord (co w) 15).1 = w)
      && (fetchWord (co w) 15).2.isEmpty && wordValid w && qualOn w (forme (co w) 15).regs && !interlocked (forme (co w) 15) w)
      = true := by decide +kernel
  exact issues_of (List.all_eq_true.1 key w h)
theorem witness_ScalarRegisters : wop wSub = 4 ∧ fieldN wSub 5 4 = 0 ∧ (alu (fieldN wSub 3 0) 1 2).isSome = true ∧
    fieldN wAmovRd 16 13 = 11 ∧ bit wAmovRd 12 = true ∧ fieldN wAmovX 16 13 < 8 ∧ bit wAmovX 12 = false ∧
    8 ≤ fieldN wAmovM 16 13 ∧ modifierOk 0 = true ∧ fieldN (8 : Word) 3 0 ≤ 8 ∧ fieldN wLdt 17 16 ≠ 0 ∧
    fieldN wMtt 9 0 = 0 ∧ fieldN wMft 9 0 = 0 := by decide +kernel
theorem test_nop_halt : (core (.nop 15) (co (wd 1 0))).regs.pc = 1 ∧ (core (.halt 15) (co (wd 2 0))).state = .finishing ∧
    (core (.nop 15) (co (wd 2 0))).state = .running := by decide +kernel
/-- R213: 5 - 7 borrows: N set, C clear; g0 keeps its zero. -/
theorem test_alu_compare : let r := (core (.aluGroup 15) (co wSub (regs [(1, 5), (2, 7)]))).regs
    bit r.sr 0 = true ∧ bit r.sr 2 = false ∧ rg r 0 = 0 := by decide +kernel
theorem test_amov : (core (.amov 15) (co wAmovX (regs [(3, 0x123456)]))).regs.x = #v[0, 0, 0, 0x3456] := by decide +kernel
/-- R216: a depth of 9 faults the task; 8 is taken. -/
theorem test_smov : (core (.smov 15) (co (wSmov 2 0) (regs [(3, 8)]))).regs.depth = 8 ∧
    ((ticketOf (after (.smov 15) (co (wSmov 2 0) (regs [(3, 9)]))) 5).bind (·.abort)).isSome = true := by decide +kernel
theorem test_ldt : fieldN (vgetN 0 (core (.ldt 15) (co wLdt (regs [(8, 7), (15, 9)]))).regs.t 15) 255 224 = 9 := by
  decide +kernel
theorem test_mtt_mft : fieldN (vgetN 0 (core (.mtt 15) (co wMtt (regs [(9, 0xABC)]))).regs.t 15) 255 224 = 0xABC ∧
    rg (core (.mft 15) (co wMft { t := Vector.replicate 16 (BitVec.ofNat 256 (0x77 * 2 ^ 224)) })).regs 9 = 0x77 := by
  decide +kernel

/-- ld.h g1, (x0)+ and st g1, (y1 + 4) by R215. -/
def wLd : Word := wd 0x08 (1 * 2 ^ 17 + 1 * 2 ^ 12 + 1 * 2 ^ 10)
def wSt : Word := wd 0x09 (1 * 2 ^ 17 + 2 ^ 16 + 1 * 2 ^ 14 + 3 * 2 ^ 12 + 4)
def coX (w : Word) (r : CoRegs) : Device := modForme 15 (fun x => { x with xmem := memOf [0, 0, 0xFE, 0xFF] }) (co w r)
theorem witness_LoadsAndStores : Issues (co wLd) 15 wLd (co wLd) ∧ Issues (co wSt) 15 wSt (co wSt) ∧ immOk wLd = true ∧
    immOk wSt = true ∧ (effAddr wLd {}).toNat % 2 = 0 ∧ (formPost {} false 0 1).isOk = true ∧ fieldN wLd 11 10 = 1 ∧
    fieldN wSt 11 10 = 0 ∧ (effAddr wLd { x := #v[1, 0, 0, 0] }).toNat % 2 ≠ 0 ∧
    (memRead (dmem (forme (co wLd) 15) false) 0 2).2.2.all (!·.bad) = true ∧
    (memWrite (dmem (forme (co wSt) 15) true) 4 [0, 0, 0, 0]).2.all (!·.bad) = true :=
  ⟨issues_of (by decide +kernel), issues_of (by decide +kernel), by decide +kernel, by decide +kernel, by decide +kernel,
    by decide +kernel, by decide +kernel, by decide +kernel, by decide +kernel, by decide +kernel, by decide +kernel⟩
theorem test_ld : let r := (core (.ld 15) (coX wLd { x := #v[2, 0, 0, 0], mx := #v[2, 0, 0, 0] })).regs
    rg r 1 = 0xFFFFFFFE := by decide +kernel
theorem test_st : let x := core (.st 15) (co wSt { regs [(1, 0x11223344)] with y := #v[0, 8, 0, 0] })
    (memRead x.ymem 12 4).2.1 = [0x44, 0x33, 0x22, 0x11] := by decide +kernel
theorem test_ld_misaligned :
    ((ticketOf (after (.ld 15) (co wLd { x := #v[1, 0, 0, 0] })) 5).bind (·.abort)).map (·.code) = some codeMisaligned := by
  decide +kernel

/-- mac acc0 += low half of g1 (signed) * low half of g2; macr; accumulator group. -/
def wMul (op rd : Nat) : Word := wd op (rd * 2 ^ 16 + 1 * 2 ^ 10 + 2 * 2 ^ 3)
def wAcc (func g : Nat) : Word := wd 0x15 (g * 2 ^ 16 + func * 2 ^ 12)
theorem witness_MultiplierAndAccumulators : Issues (co (wMul 0x10 0)) 15 (wMul 0x10 0) (co (wMul 0x10 0)) ∧
    Issues (co (wMul 0x14 3)) 15 (wMul 0x14 3) (co (wMul 0x14 3)) ∧ Issues (co (wAcc 7 0)) 15 (wAcc 7 0) (co (wAcc 7 0)) ∧
    ((mulFetch (wMul 0x10 0) (forme (co (wMul 0x10 0)) 15)).toOption.map fun y => y.2.2.2.all (!·.2.bad)) = some true ∧
    fieldN (wAcc 7 0) 15 12 = 7 ∧ (norm 1 4).isSome = true :=
  ⟨issues_of (by decide +kernel), issues_of (by decide +kernel), issues_of (by decide +kernel), by decide +kernel,
    by decide +kernel, by decide +kernel⟩
/-- R218: -2 * 3, from 10 up and down, and 4000h * 4000h + 8000h rounded to its high half. -/
theorem test_mpy_mac_msu : let r := { regs [(1, 0xFFFE), (2, 3)] with acc := #v[10, 0] }
    (core (.mpy 15) (co (wMul 0x10 0) r)).regs.acc = #v[BitVec.ofInt 40 (-6), 0] ∧
    (core (.mac 15) (co (wMul 0x11 0) r)).regs.acc = #v[4, 0] ∧ (core (.msu 15) (co (wMul 0x12 0) r)).regs.acc = #v[16, 0] := by
  decide +kernel
theorem test_mpyr_macr : let r := { regs [(1, 0x4000), (2, 0x4000)] with acc := #v[0x8001, 0] }
    rg (core (.mpyr 15) (co (wMul 0x13 3) r)).regs 3 = 0x1000 ∧ rg (core (.macr 15) (co (wMul 0x14 3) r)).regs 3 = 0x1001 := by
  decide +kernel
theorem test_acc_group : (core (.accGroup 15) (co (wAcc 6 3) (regs [(3, 0x80000000)]))).regs.acc
      = #v[BitVec.ofInt 40 (-0x80000000), 0] ∧
    rg (core (.accGroup 15) (co (wAcc 1 3) { acc := #v[0x0100000000, 0] })).regs 3 = 0x7FFFFFFF := by decide +kernel

/-- Branches. -/
def wJ : Word := wd 0x18 0x7FFF
def wJr : Word := wd 0x19 (3 * 2 ^ 17)
def wCall : Word := wd 0x1A 0x100
def wBcc (c : Nat) : Word := wd 0x1B (c * 2 ^ 18 + 0x40)
def wDbnz : Word := wd 0x1C (3 * 2 ^ 17 + 0x40)
def wBrc : Word := wd 0x1D 0x40
def wLpset : Word := wd 0x1E (1 * 2 ^ 19 + 1 * 2 ^ 16 + 3)
theorem witness_BranchesAndLoops (w : Word) (h : w ∈ [wJ, wJr, wCall, wBcc 0, wDbnz, wBrc, wLpset]) :
    Issues (co w) 15 w (co w) := by
  have key : ([wJ, wJr, wCall, wBcc 0, wDbnz, wBrc, wLpset].all fun w => mayIssue (co w) 15
      && decide ((fetchWord (co w) 15).1 = w) && (fetchWord (co w) 15).2.isEmpty && wordValid w
      && qualOn w (forme (co w) 15).regs && !interlocked (forme (co w) 15) w) = true := by decide +kernel
  exact issues_of (List.all_eq_true.1 key w h)
theorem witness_BranchesAndLoops_fields : fieldN wJ 21 15 = 0 ∧ fieldN wJr 16 0 = 0 ∧ (rg (regs [(3, 0x7FFF)]) 3).toNat < 2 ^ 15 ∧
    fieldN wCall 21 15 = 0 ∧ condHolds (fieldN (wBcc 0) 21 18) 2 = some true ∧ fieldN wDbnz 16 15 = 0 ∧ fieldN wBrc 21 15 = 0 ∧
    bit wLpset 18 = false := by decide +kernel
theorem test_j_jr : (core (.j 15) (co wJ)).regs.pc = 0x7FFF ∧ (core (.jr 15) (co wJr (regs [(3, 9)]))).regs.pc = 9 := by
  decide +kernel
theorem test_call : (core (.call 15) (co wCall)).regs.pc = 0x100 ∧ rg (core (.call 15) (co wCall)).regs 15 = 1 := by
  decide +kernel
theorem test_bcc : (core (.bcc 15) (co (wBcc 0) { sr := 2 })).regs.pc = 0x40 ∧ (core (.bcc 15) (co (wBcc 1) { sr := 2 })).regs.pc = 1 := by
  decide +kernel
theorem test_dbnz : (core (.dbnz 15) (co wDbnz (regs [(3, 1)]))).regs.pc = 1 ∧
    rg (core (.dbnz 15) (co wDbnz (regs [(3, 0)]))).regs 3 = 0xFFFFFFFF ∧ (core (.dbnz 15) (co wDbnz)).regs.pc = 0x40 := by
  decide +kernel
/-- R190: trip 2 and depth 1 make two iterations: the first BRC branches, the second does not. -/
theorem test_brc : (core (.brc 15) (co wBrc { trip := 2, depth := 1, iter := 0 })).regs.pc = 0x40 ∧
    (core (.brc 15) (co wBrc { trip := 2, depth := 1, iter := 1 })).regs.pc = 1 := by decide +kernel
theorem test_lpset : let r := (core (.lpset 15) (co wLpset)).regs
    r.trip = 3 ∧ r.depth = 2 ∧ r.rstep = 1 ∧ r.iter = 0 := by decide +kernel

/-- What keeps a word from executing (O26), and what begins and ends a program (O25). -/
theorem witness_IssueConditions : mayIssue ready 15 = false ∧ mayIssue (co 0) 15 = true ∧ wordValid 0 = false ∧
    firstBad (fetchWord (co 0) 15).2 = none ∧ wordValid (wd 1 0 ||| 0x80000000) = true ∧
    qualOn (wd 1 0 ||| 0x80000000) {} = false ∧
    (let d := modForme 15 (fun x => { x with pend := [3] }) (co (wd 0x05 (1 * 2 ^ 17 + 3 * 2 ^ 12)))
     interlocked (forme d 15) (wd 0x05 (1 * 2 ^ 17 + 3 * 2 ^ 12)) = true) := by decide +kernel
theorem test_word_illegal : ((ticketOf (after (.nop 15) (co 0)) 5).bind (·.abort)).map (·.code) = some codeIllegal := by
  decide +kernel

/-- A program at 80h of the HBM: a table whose first entry is 400h, and there an image of one HALT (R176). -/
def image : List Byte :=
  let body := leBytes 4 (wd 2 0).toNat ++ bytesOf 60 0
  let h := leBytes 2 1 ++ leBytes 2 0x9480 ++ leBytes 4 64 ++ bytesOf 16 0
  h ++ leBytes 8 (tally (h ++ body)).toNat ++ bytesOf 32 0 ++ body
def progTable : List Byte := leBytes 8 0x400 ++ bytesOf 120 0
def loading (tab : List Byte) : Device :=
  modStack 0 (fun x => { x with mem := (memWrite (memWrite x.mem 0x80 tab).1 0x400 image).1 })
    (withEntry 4 (entry 1 1 5 10 0 15 1 0) (withTicket { ticket5 with started := true, entryTally := tally progTable, running := 1,
                                                                      toStart := 0 }
      (modForme 15 (fun x => { x with state := .loading, task := some 5, entry := 4, pmask := 1, filling := false }) ready)))
theorem witness_ProgramsBeginAndEnd_bad :
    let d := loading (bytesOf 128 0)
    ((forme d 15).task.bind (ticketOf d)).map (·.resume) = some false ∧ (forme d 15).state = .loading ∧
      (readLoad 15 0x80 128 d).2 = some (bytesOf 128 0) ∧ tally (bytesOf 128 0) ≠ tally progTable := by decide +kernel
theorem witness_ProgramsBeginAndEnd_good :
    let d := loading progTable
    let r1 := readLoad 15 0x80 128 d
    let r2 := readLoad 15 0x400 64 r1.1
    let r3 := readLoad 15 0x440 64 r2.1
    r1.2 = some progTable ∧ leAt progTable (8 * (eArg (getEntry r1.1 4) % 16)) 8 = 0x400 ∧
      r2.2.map imageHeaderOk = some true ∧ r2.2.map (fun h => leAt h 4 4 + leAt h 8 4 + leAt h 12 4) = some 64 ∧
      (r2.2.bind fun h => r3.2.map fun b => decide ((tally (h.take 24 ++ b)).toNat = leAt h 24 8)) = some true := by
  decide +kernel
def finishing : Device := modForme 15 (fun x => { x with state := .finishing }) (loading progTable)
theorem witness_ProgramsBeginAndEnd_end :
    (forme finishing 15).state = .finishing ∧ formeQuiet finishing 15 = true ∧
      (ticketOf (modTicket 5 (fun t => { t with running := t.running - 1 }) (freeEntry 4 (freeForme finishing 15))) 5).map
        (·.running) = some 0 := by decide +kernel
theorem test_program_loaded : let x := core (.programLoaded 15) (loading progTable)
    x.state = .running ∧ (memRead x.imem 0 4).2.1 = leBytes 4 (wd 2 0).toNat := by decide +kernel
theorem test_program_ends : (after (.compositorIdle 15) finishing).mkr.tickets = [] ∧
    (core (.compositorIdle 15) finishing).state = .idle := by decide +kernel
theorem test_counts_clear : (core (.fmCoClearCounts 15) (modForme 15 (fun x => { x with instrs := 9, interlock := 2 }) r0)).instrs = 0 := by
  decide +kernel

/-! ## Tensor issue and the core's own synchronisation (O23, O24) -/

def pressOn (p : Nat) (d : Device) : Device := modDomain p (fun x => { x with dstate := .on }) d
/-- Forme 15 about to issue a word to its press 15.7, which is On. -/
def issue (w : Word) (r : CoRegs := {}) : Device := pressOn 127 (co w r)
/-- One well-formed word of every tensor opcode for press 7 (R228 to R241). -/
def tensor (op : Nat) : Word :=
  wd op (7 * 2 ^ 18 + (match op with | 0x20 | 0x21 | 0x22 | 0x23 | 0x24 | 0x28 => 8 | 0x29 | 0x2A => 3 * 2 ^ 10 + 1
                                     | 0x2D => 9 * 2 ^ 11 | _ => 0))
def tensorOps : List Nat := [0x20, 0x21, 0x22, 0x23, 0x24, 0x25, 0x26, 0x28, 0x29, 0x2A, 0x2B, 0x2C, 0x2D]
theorem witness_TensorIssue (op : Nat) (h : op ∈ tensorOps) : Issues (issue (tensor op)) 15 (tensor op) (issue (tensor op)) := by
  have key : (tensorOps.all fun op => mayIssue (issue (tensor op)) 15 && decide ((fetchWord (issue (tensor op)) 15).1 = tensor op)
      && (fetchWord (issue (tensor op)) 15).2.isEmpty && wordValid (tensor op)
      && qualOn (tensor op) (forme (issue (tensor op)) 15).regs && !interlocked (forme (issue (tensor op)) 15) (tensor op))
      = true := by decide +kernel
  exact issues_of (List.all_eq_true.1 key op h)
theorem witness_TensorIssue_words : (tensorOps.all fun op => tensorWordOk (tensor op) && maskOk (tensor op) {} && !tgtCore (tensor op)
    && decide (wop (tensor op) = op) && decide (maskPresses 15 (issueMask (tensor op) {}) = [127])) = true := by decide +kernel
theorem witness_TensorIssue_cases :
    let x := forme (issue 0) 15
    let y := forme (modForme 15 (fun x => { x with pmask := 0x7F }) (issue 0)) 15
    [127].any (fun p => !bit x.pmask (p % 8)) = false ∧ [127].any (fun p => !bit y.pmask (p % 8)) = true ∧
      [127].find? (fenced (issue 0)) = none ∧ pressWaits (issue 0) 127 = false ∧ pressWaits (co 0) 127 = true := by
  decide +kernel
/-- R196, R225: a PASS queues one entry with its descriptors and shape; a PRD marks its register as pending. -/
theorem test_issue_pass :
    let d := after (.pass 15) (issue (tensor 0x20) { regs [(8, 5)] with t := #v[7, 7, 7, 7, 7, 7, 7, 7, 7, 7, 7, 7, 7, 7, 7, 7] })
    (press d 127).queue.map (fun e => (e.desc, e.vals, e.slot)) = [([7, 7], [5, 0], 5)] ∧ (forme d 15).regs.pc = 1 := by
  decide +kernel
theorem test_issue_prd : (core (.prd 15) (issue (tensor 0x2D))).pend = [9] := by decide +kernel
theorem test_issue_waits : (core (.drain 15) (co (tensor 0x22))).issueStall = 1 := by decide +kernel
theorem test_issue_fence_not_a_signal : (press (after (.signal 15) (issue (tensor 0x2B))) 127).queue = [] := by decide +kernel

/-- A word for the core itself (core 1): the token 63, count 2. -/
def coreWord (op : Nat) : Word :=
  wd op (2 ^ 16 + (match op with | 0x28 => 8 | 0x29 | 0x2A => 63 * 2 ^ 10 + 2 | _ => 0))
def held63 (n : Nat) (d : Device) : Device := modForme 15 (fun x => { x with tokens := vmodN x.tokens 63 fun _ => BitVec.ofNat 16 n }) d
theorem witness_CoreSynchronisation (op : Nat) (h : op ∈ [0x28, 0x29, 0x2A, 0x2B]) :
    Issues (co (coreWord op)) 15 (coreWord op) (co (coreWord op)) := by
  have key : ([0x28, 0x29, 0x2A, 0x2B].all fun op => mayIssue (co (coreWord op)) 15
      && decide ((fetchWord (co (coreWord op)) 15).1 = coreWord op) && (fetchWord (co (coreWord op)) 15).2.isEmpty
      && wordValid (coreWord op) && qualOn (coreWord op) (forme (co (coreWord op)) 15).regs
      && !interlocked (forme (co (coreWord op)) 15) (coreWord op)) = true := by decide +kernel
  exact issues_of (List.all_eq_true.1 key op h)
theorem witness_CoreSynchronisation_words : ([0x28, 0x29, 0x2A, 0x2B].all fun op =>
    tensorWordOk (coreWord op) && !tgtPm (coreWord op) && tgtCore (coreWord op)) = true ∧ fieldN (coreWord 0x2A) 7 0 = 2 ∧
    65533 + 2 < 65536 ∧ 65536 ≤ 65534 + 2 := by decide +kernel
theorem test_signal_core : vgetN 0 (core (.signal 15) (held63 65533 (co (coreWord 0x29)))).tokens 63 = 65535 ∧
    ((ticketOf (after (.signal 15) (held63 65534 (co (coreWord 0x29)))) 5).bind (·.abort)).map (·.code) = some codeTokenOverflow := by
  decide +kernel
theorem test_wait_core : vgetN 0 (core (.wait 15) (held63 2 (co (coreWord 0x2A)))).tokens 63 = 0 ∧
    (core (.wait 15) (held63 1 (co (coreWord 0x2A)))).regs.pc = 0 := by decide +kernel
/-- R238: the task starts in sheet 1; point 1.000 lies in sheet 2. -/
theorem test_waitpt_core : (core (.waitpt 15) (co (coreWord 0x28) (regs [(8, 0)]))).regs.pc = 1 ∧
    (core (.waitpt 15) (co (coreWord 0x28) (regs [(8, 0x1000)]))).regs.pc = 0 := by decide +kernel
theorem test_fence_core : (core (.fence 15) (co (coreWord 0x2B))).regs.pc = 1 := by decide +kernel

/-! ## The press queue: passes, drains, INK, JUSTIFY (O27 to O31) -/

def qe (w : Word) (desc : List (BitVec 256)) (vals : List Word) : QEntry :=
  { word := w, pc := 0, slot := 5, pm := false, pmask := 1, vforme := 0, desc := desc, vals := vals, dest := 9 }
/-- Press 0 On, working for the task in slot 5, with `g` done to it. -/
def bench (g : Press → Press) : Device :=
  pressOn 0 (modPress 0 g (withTicket { ticket5 with started := true, running := 1, toStart := 0 }
    (modForme 0 (fun x => { x with state := .running, task := some 5, pmask := 0xFF, filling := false }) ready)))
def head (e : QEntry) : Device := bench fun x => { x with queue := [e] }
/-- A galley with binary16 tiles at 0 and 8000h whose first elements are 1 and 2 (R166, R167). -/
def tiles : Mem := (memWrite (memWrite memEmpty 0 ([0x11, 0x11] ++ bytesOf 62 0 ++ [0, 0x3C])).1 0x8000
  ([0x11, 0x11] ++ bytesOf 62 0 ++ [0, 0x40])).1
def tileDesc (kind base : Nat) : BitVec 256 :=
  place 256 255 252 kind ||| place 256 251 251 (if kind = 1 then 1 else 0) ||| place 256 239 208 base ||| place 256 207 184 64
/-- PASS 1 x 1 x 1 on bank A.0, preload zero. -/
def ePass : QEntry := qe (wd 0x20 (1 * 2 ^ 8 + 2 * 2 ^ 4 + 8)) [tileDesc 1 0, tileDesc 1 0x8000] [0, 0]
def dPass : Device := bench fun x => { x with queue := [ePass], galley := tiles }
def src (a : Nat) : OpSrc := ⟨true, a, 64, 0⟩
def oPass (ph : PassPhase) (pre : Nat) : PassOp :=
  { entry := ePass, seq := 0, bank := false, pre := pre, k := 1, m := 1, n := 1, a := src 0, b := src 0x8000, feed := false,
    paddr := 0x10000, int := false, g := 4, fmtsA := [.binary16], fmtsB := [.binary16], phase := ph }
def dFed (ph : PassPhase) : Device := bench fun x =>
  { x with galley := tiles, plA := { passes := [oPass ph 0], bank0 := { state := .ready } } }
/-- An image at 10000h that is loading into bank A.0. -/
def dLoading : Device := bench fun x =>
  { x with galley := tiles, plA := { passes := [oPass .loading 2], bank0 := { state := .loading } } }

theorem witness_PassesRun_dispatch :
    let x := press dPass 0
    let r := passFormats x.block 0 1 false (src 0, src 0x8000) (galleyRd dPass 0)
    asleep dPass = false ∧ x.chaseSide = false ∧ headOf dPass 0 (fun o => o = 0x20 || o = 0x21) = some ePass ∧
      stageRoom x.plA = true ∧ shapeReg 0 = some (1, 1, 1) ∧ (passSources 0 ePass).toOption = some (src 0, src 0x8000) ∧
      (passImage 0 ePass).toOption = some 0 ∧ (putGalley 0 1 ePass (some .A) r.1 dPass).2 = true ∧
      r.2.toOption = some ([.binary16], [.binary16]) ∧ (passG 1 [.binary16, .binary16]).toOption = some 4 ∧ keepInvalid x ePass = false := by
  decide +kernel
theorem witness_PassesRun_settle : settlingPass (press (dFed .settling) 0).plA = some (oPass .settling 0) ∧
    nextPass (press (dFed .ready) 0).plA = some (oPass .ready 0) ∧ taskRuns (dFed .ready) 5 = true ∧
    kindOk (press (dFed .ready) 0).plA (oPass .ready 0) = true ∧
    loadingPass (press dLoading 0).plA = some (oPass .loading 2) := by decide +kernel
theorem witness_PassesRun_feed :
    let ra := readRuns 0 0 256 1 (src 0) (galleyRd (dFed .ready) 0) [.binary16]
    let rb := readRuns 0 0 32 1 (src 0x8000) ra.1 [.binary16]
    (putGalley 0 2 ePass (some .A) rb.1 (dFed .ready)).2 = true ∧
      (feedGalley (press (dFed .ready) 0).plA (oPass .ready 0) ra.2 rb.2).isOk = true := by decide +kernel
theorem test_pass_dispatch : let y := (press (after (.passDispatch 0) dPass) 0).plA
    y.passes.map (fun o => (o.phase, o.g)) = [(.ready, 4)] ∧ y.bank0.state = .ready := by decide +kernel
/-- R114: one step of 1 by 2 on a zero accumulator is 2 in binary32. -/
theorem test_pass_feed : let y := (press (after (.passFeedStart 0 .A) (dFed .ready)) 0).plA
    y.bank0.acc = [(0, 0x40000000)] ∧ y.bank0.state = .busy ∧ y.feedCycles = 4 := by decide +kernel
theorem test_pass_settle : let y := (press (after (.passSettle 0 .A) (dFed .settling)) 0).plA
    y.passes = [] ∧ y.bank0.state = .held ∧ y.passCount = 1 := by decide +kernel
/-- R125: an image's kind byte lies after its accumulators and leads; bank images of zeros are float. -/
theorem test_preload_done : let y := (press (after (.preloadDone 0 .A) dLoading) 0).plA
    y.bank0.state = .ready ∧ y.passes.map (·.phase) = [.ready] := by decide +kernel

/-- DRAIN 1 x 1 of bank A.0 to a binary32 tile at 10000h, closing it; a save of the bank. -/
def drainG : Word := BitVec.ofNat 32 (7 * 2 ^ 25 + 3 * 2 ^ 23 + 2 * 2 ^ 21)
def eDrain : QEntry := qe (wd 0x22 (2 ^ 12 + 8)) [tileDesc 2 0x10000] [drainG]
def eSave : QEntry := qe (wd 0x22 (2 ^ 13 + 8)) [0] [0x10000]
def full : Bank := { acc := [(0, 0x40000000)], state := .held }
def dDrain (e : QEntry) : Device := bench fun x => { x with queue := [e], plA := { bank0 := full } }
def oDrain : DrainOp :=
  { entry := eDrain, seq := 0, bank := false, save := false, close := true, addr := 0x10000, stride := 64, col0 := 0,
    bias := 0, fmt := .binary32, mode := rneMode, stream := 0, fuse := 0, m := 1, n := 1 }
def tile1 : OpenDest :=
  { inCase := false, addr := 0x10000, tile := true, slot := 5, fmt := 0, rows := 1, cols := 1, stride := 64, writer := 0,
    step := 0, sr := false, quoin := 0, slug := 0, van := 0, sat := 0 }
def dDrained (o : DrainOp) : Device := bench fun x => { x with plA := { bank0 := full, drain := some o }, opens := [tile1] }
theorem witness_DrainsRun_dispatch :
    headOf (dDrain eDrain) 0 (fun o => o = 0x22) = some eDrain ∧ (press (dDrain eDrain) 0).plA.drain = none ∧
      ((drainCheck (dDrain eDrain) 0 eDrain).toOption.map fun o =>
        (drainInvalid (press (dDrain eDrain) 0) o, o.save, (openTile (dDrain eDrain) 0 o).isSome)) = some (false, false, true) ∧
      ((drainCheck (dDrain eSave) 0 eSave).toOption.map fun o => (drainInvalid (press (dDrain eSave) 0) o, o.save))
        = some (false, true) := by decide +kernel
theorem witness_DrainsRun_start :
    let x := press (dDrained oDrain) 0
    let rb := drainBias x.block oDrain (galleyRd (dDrained oDrain) 0)
    let out := drainConvert full oDrain 0 0 rb.2
    let rn := drainWrite x.block oDrain out.cells (drainHeader x.block x oDrain out.counts rb.1)
    x.plA.drain = some oDrain ∧ x.chaseSide = false ∧ earlierPass x.plA false 0 = false ∧ pathTurn x 0 = true ∧
      unitFree x = true ∧ out.fault = none ∧
      domainOn (dDrained oDrain) 0 = true ∧ rdFailed rn.1 = false ∧
      (putGalley 0 2 eDrain (some .A) rn.1 (drainCounts 0 out.counts (drainOpens 0 oDrain out.counts rb.1 (dDrained oDrain)))).2
        = true := by decide +kernel
theorem witness_DrainsRun_save :
    let o := { oDrain with save := true }
    let x := press (dDrained o) 0
    (putGalley 0 2 eDrain (some .A) (rdWrite x.block 16 (galleyRd (dDrained o) 0) o.addr (imageBytes full (b2n full.int)))
      (dDrained o)).2 = true := by decide +kernel
theorem witness_DrainsRun_done :
    let o := { oDrain with started := true }
    let d := dDrained o
    let r := putGalley 0 2 eDrain (some .A) (rdFlush (galleyRd d 0)) d
    r.2 = true ∧ o.close = true ∧ ((press d 0).opens.find? (sameTile o.addr)) = some tile1 ∧
      (putGalley 0 2 eDrain (some .A) (rdWrite (press d 0).block 16 (galleyRd r.1 0) o.addr (destHeader tile1 false true)) r.1).2
        = true := by decide +kernel
theorem test_drain_dispatch : let x := press (after (.drainDispatch 0) (dDrain eDrain)) 0
    x.plA.drain.map (fun o => (o.addr, o.m, o.n)) = some (0x10000, 1, 1) ∧ x.opens.map (·.addr) = [0x10000] := by decide +kernel
/-- R158: element (0, 0) of the tile lies 64 bytes after its header; the narrow write waits in the merge buffer. -/
theorem test_drain_start : let x := press (after (.drainStart 0 .A) (dDrained oDrain)) 0
    (memRead x.galley 0x10040 4).2.1 = [0, 0, 0, 0x40] ∧ x.plA.bank0.state = .draining := by decide +kernel
theorem test_drain_done : let x := press (after (.drainDone 0 .A) (dDrained { oDrain with started := true })) 0
    x.plA.drain = none ∧ x.plA.bank0.state = .held ∧ x.opens = [] ∧ memByte x.galley 0x10001 = 0x11 := by decide +kernel

/-- INK: l0 := l1 + l2 in every lane, and a compare of l1 with l2 into k1 (R233 to R235). -/
def inkG (d a b : Nat) : Word := BitVec.ofNat 32 (d * 2 ^ 27 + a * 2 ^ 22 + b * 2 ^ 17 + 7 * 2 ^ 9 + 3 * 2 ^ 7 + 2 * 2 ^ 5)
def eCmp : QEntry := qe (wd 0x23 (6 * 2 ^ 11 + 8)) [0, 0, 0, 0]
  (BitVec.ofNat 32 (1 * 2 ^ 27 + 1 * 2 ^ 22 + 2 * 2 ^ 17 + 2 * 2 ^ 2) :: List.replicate 8 0)
def inkHead (g : Word) : QEntry := qe (wd 0x23 8) [0, 0, 0, 0] (g :: List.replicate 8 0)
def lanes12 : List (Nat × Word) := [(256, 0x3F800000), (512, 0x40000000)]
def dInk (e : QEntry) : Device := bench fun x => { x with queue := [e], ink := { x.ink with lanes := lanes12 } }
theorem witness_InkAndJustify_ink :
    let e := inkHead (inkG 0 1 2)
    headOf (dInk e) 0 (fun o => o = 0x23) = some e ∧ unitTakes (press (dInk e) 0) = true ∧
      ((inkPlan (dInk e) 0 e).toOption.map fun k => (inkGalley k, k.iop)) = some (false, 0) ∧
      ((inkPlan (dInk eCmp) 0 eCmp).toOption.map fun k => (inkGalley k, k.iop)) = some (false, 6) := by decide +kernel
/-- The reads of an INK went well, and the fault its computation meets. -/
def inkReads (e : QEntry) : Option (Bool × Bool) :=
  (inkPlan (dInk e) 0 e).toOption.map fun k =>
    let x := press (dInk e) 0
    let ra := inkSource x.block x.ink e.vals (galleyRd (dInk e) 0) k.ctl.a k.vecA
    let rb := inkSource x.block x.ink e.vals ra.1 k.ctl.b k.vecB
    let rc := inkSource x.block x.ink e.vals rb.1 k.ctl.c k.vecC
    let d' := putGalley 0 2 e none rc.1 (dInk e)
    (d'.2, (inkCompute d'.1 0 e k ra.2 rb.2 rc.2).fault.isNone)
theorem witness_InkAndJustify_reads : inkReads (inkHead (inkG 0 1 2)) = some (true, true) ∧
    (inkReads eCmp).map (·.1) = some true := by decide +kernel
theorem test_ink_dispatch : ((press (after (.inkDispatch 0) (dInk (inkHead (inkG 0 1 2)))) 0).inkOp.bind fun o => o.lanes[0]?)
    = some (0, 0, 0x40400000) := by decide +kernel
def inking : InkOp := { entry := inkHead 0, lanes := [(3, 255, 7)], mask := none, mem := [] }
theorem witness_InkAndJustify_done : (press (bench fun x => { x with inkOp := some inking }) 0).inkOp = some inking ∧
    inking.mem = [] := by decide +kernel
theorem witness_InkAndJustify_vector :
    let o := { inking with mem := [(0x300, [1, 2])] }
    let d := bench fun x => { x with inkOp := some o }
    o.mem ≠ [] ∧ (press d 0).chaseSide = false ∧
      (putGalley 0 2 o.entry none (rdFlush (o.mem.foldl (fun r w => rdWrite (press d 0).block 16 r w.1 w.2) (galleyRd d 0))) d).2
        = true := by decide +kernel
theorem test_ink_done : let x := press (after (.inkDone 0) (bench fun x => { x with inkOp := some inking })) 0
    smapGet 0 x.ink.lanes (256 * 3 + 255) = 7 ∧ x.inkOp = none := by decide +kernel

/-- JUSTIFY of a 1 x 1 tile to int8 into slug 0 at 40000h (R236). -/
def eJus : QEntry := qe (wd 0x24 8) [tileDesc 1 0, place 256 255 252 3 ||| place 256 239 208 0x40000 ||| place 256 207 184 0x10000]
  [BitVec.ofNat 32 (8 * 2 ^ 28 + 2 * 2 ^ 25)]
def dJus : Device := bench fun x => { x with queue := [eJus], galley := tiles }
/-- The same where its tile's element is a NaN, which its conversion faults on (R98). -/
def dNan : Device := bench fun x => { x with
  queue := [eJus], galley := (memWrite memEmpty 0 ([0x11, 0x11] ++ bytesOf 62 0 ++ [1, 0x7E])).1 }
/-- What its dispatch reads: the operation with its source's format, its row and whether both reads went well. -/
def jusReads (d : Device) : Option (JusOp × List (List Val) × Bool) :=
  (jusCheck d 0 eJus).toOption.bind fun o =>
    let h := jusHeader (press d 0).block 0 o (galleyRd d 0)
    let d1 := putGalley 0 1 eJus none h.1 d
    h.2.toOption.bind fun o' =>
      let src := jusSource (press d1.1 0).block 0 o' (galleyRd d1.1 0)
      (openSlug d1.1 0 o').map fun _ => (o', src.2, d1.2 && (putGalley 0 2 eJus none src.1 d1.1).2)
/-- The trial of that operation. -/
def jusTrial (x : JusOp × List (List Val) × Bool) : JusOut :=
  jusConvert x.1.fmt ⟨if x.1.sr then .sr else .rne, .sat, x.1.squash, true⟩ 0 0 x.1.quoin x.1.slug x.1.m x.2.1
theorem witness_InkAndJustify_justify :
    headOf dJus 0 (fun o => o = 0x24) = some eJus ∧ unitTakes (press dJus 0) = true ∧ (press dJus 0).chaseSide = false ∧
      (jusReads dJus).map (fun x => (x.2.2, (jusTrial x).fault)) = some (true, none) := by decide +kernel
theorem witness_InkAndJustify_trial :
    headOf dNan 0 (fun o => o = 0x24) = some eJus ∧ unitTakes (press dNan 0) = true ∧
      (jusReads dNan).map (fun x => (x.2.2, (jusTrial x).fault.isSome)) = some (true, true) := by decide +kernel
def oJus : JusOp :=
  { entry := eJus, src := src 0, srcFmt := .binary16, fmt := .int8, fb := .int8, sr := false, squash := false, kv := 1, m := 1,
    inCase := false, addr := 0x40000, slug := 0, quoin := 0, van := 0x40, sat := 0xFF, image := bytesOf 320 0 }
def dSlug : Device := bench fun x => { x with jusOp := some oJus, galley := tiles }
theorem witness_InkAndJustify_slug :
    (press dSlug 0).jusOp = some oJus ∧ oJus.inCase = false ∧ { oJus with inCase := true }.inCase = true ∧
      (press dSlug 0).chaseSide = false ∧
      (putGalley 0 2 eJus none (rdFlush (rdWrite (press dSlug 0).block 16 (galleyRd dSlug 0) oJus.addr oJus.image)) dSlug).2
        = true := by decide +kernel
theorem test_justify_dispatch : ((press (after (.justifyDispatch 0) dJus) 0).jusOp.map fun o => (o.fmt, o.addr, o.srcFmt))
    = some (.int8, 0x40000, .binary16) := by decide +kernel
/-- The synchronising and register instructions at the head of the queue (O30). -/
def qHead (op rest : Nat) (vals : List Word) : Device := head (qe (wd op rest) [] vals)
theorem witness_QueueInstructions :
    ([0x28, 0x29, 0x2A, 0x2B, 0x2C, 0x2D].all fun op => (headOf (qHead op 1 [0]) 0 (fun o => o = op)).isSome) = true ∧
      queueDrained (qHead 0x29 1 []) 0 = true ∧ queueDrained (bench fun x => { x with plA := (press (dFed .ready) 0).plA }) 0 = false ∧
      (pwrWrite (regOffset (qe (wd 0x2C 0x80) [] [0])) 0).isSome = true ∧
      (pwrWrite (regOffset (qe (wd 0x2C 0x7FF) [] [0])) 0).isNone = true := by decide +kernel
/-- R172: a field that names binary16 as a fallback leaves the whole register unchanged. -/
theorem test_fallback_write :
    (fallbackWrite 0x88553331#32 {}).fallback = 0x88553332#32 ∧ (fallbackWrite 0x88553322#32 {}).fallback = 0x88553322#32 := by
  decide
theorem test_waitpt_dispatch : (press (after (.waitptDispatch 0) (qHead 0x28 8 [0x1000])) 0).stalls.scheduleWait = 1 ∧
    (press (after (.waitptDispatch 0) (qHead 0x28 8 [0])) 0).queue = [] := by decide +kernel
theorem test_wait_dispatch : (press (after (.waitDispatch 0) (qHead 0x2A 1 [])) 0).stalls.scheduleWait = 1 := by decide +kernel
theorem test_signal_dispatch : vgetN 0 (forme (after (.signalDispatch 0) (qHead 0x29 5 [])) 0).tokens 0 = 5 := by decide +kernel
theorem test_fence_dispatch : (press (after (.fenceDispatch 0) (qHead 0x2B 0 [])) 0).queue = [] := by decide +kernel
/-- R103, R241: word 80h is offset 200h, PS_FMT_CTRL, with rnd in [2:0]. -/
theorem test_pwr_dispatch : (press (after (.pwrDispatch 0) (qHead 0x2C 0x80 [3])) 0).fmt.rnd = 3 := by decide +kernel
theorem test_prd_dispatch :
    rg (forme (after (.prdDispatch 0) (pressOn 0 (modPress 0 (fun x => { x with fmt := { x.fmt with rnd := 3 } })
      (qHead 0x2D (9 * 2 ^ 11 + 0x80) [])))) 0).regs 9 = 3 := by decide +kernel

/-- Preemption and the clears (O31). -/
theorem witness_PreemptionAndClears :
    let y := press (bench fun x => { x with preempt := .requested }) 0
    let z := press (bench fun x => { x with preempt := .pausing, plA := { bank0 := { state := .busy } } }) 0
    linkBusy (bench id) = false ∧ (press (bench id) 0).preempt = .none ∧ y.preempt = .requested ∧
      (preemptReady y.plA && preemptReady y.plB) = true ∧ z.preempt = .pausing ∧ (platenIdle z.plA && platenIdle z.plB) = false ∧
      fenced (bench id) 0 = false ∧ fenced fencedPress 127 = true ∧ linkBusy fencedPress = false := by decide +kernel
theorem test_preempt : (press (after (.preemptRequest 0) (bench id)) 0).preempt = .requested ∧
    (press (after (.preempted 0) (bench fun x => { x with preempt := .requested })) 0).preempt = .preempted := by decide +kernel
theorem test_press_clears :
    (press (after (.fmtClearCounts 0) (bench fun x => { x with fmt := { x.fmt with overflow := 5, rnd := 2 } })) 0).fmt = { rnd := 2 } ∧
    (press (after (.plClearCounts 0 .B) (bench fun x => { x with plB := { passCount := 5 } })) 0).plB.passCount = 0 ∧
    (press (after (.inClearCounts 0) (bench fun x => { x with ink := { ops := 5, slugs := 6 } })) 0).ink = { slugs := 6 } ∧
    (press (after (.juClearCounts 0) (bench fun x => { x with ink := { ops := 5, slugs := 6 } })) 0).ink = { ops := 5 } ∧
    (press (after (.psStallClearCounts 0) (bench fun x => { x with stalls := { linkWait := 5 } })) 0).stalls = {} := by
  decide +kernel

/-! ## Transfers and the chase (O32 to O35) -/

/-- Press 0's task holds forme 0 (its START has fired); routes are written. -/
def chase (g : Press → Press) : Device :=
  modChase (fun c => { c with routed := true }) (withEntry 0 (entry 1 1 5 4000 0 0 1 0 ||| 2#128) (bench g))
/-- XFER of 64 bytes from galley 0.0 to case 0; and OPEN and RELEASE of pool 7 of that case. -/
def dXfer : BitVec 256 := place 256 255 252 8 ||| place 256 237 228 0x80 ||| place 256 211 188 0xFFF ||| place 256 187 168 1
def dOpen : BitVec 256 := place 256 255 252 9 ||| place 256 249 240 0x80 ||| place 256 239 236 7 ||| place 256 211 188 0x1000
def dRel : BitVec 256 := place 256 255 252 9 ||| place 256 251 250 1 ||| place 256 249 240 0x80 ||| place 256 239 236 7
  ||| place 256 180 157 0x40
def eX (t : BitVec 256) : QEntry := qe (wd 0x25 0) [t] []
def dX (t : BitVec 256) : Device := chase fun x => { x with queue := [eX t] }
def pooled (d : Device) : Device :=
  modForme 0 (fun x => { x with pools := vmodN x.pools 7 fun _ =>
    { isOpen := true, size := 0x1000, free := 0xFC0, tail := 0x40, committed := 0x40 } }) d
theorem witness_XferAndPools_xfer :
    let x := streamDesc false 0 dXfer
    headOf (dX dXfer) 0 (fun o => o = 0x25) = some (eX dXfer) ∧ dKind dXfer = 8 ∧ streamWf x = true ∧ (0 + 0 < 8) ∧
      x.src = 0 ∧ queueDrained (dX dXfer) 0 = true ∧ streamChecks (dX dXfer) 0 5 x = none ∧
      streamChecks (head (eX dXfer)) 0 5 x = some (0x0604, 0) := by decide +kernel
theorem witness_XferAndPools_pool :
    reservedZero dOpen kind9Fields = true ∧ poolTarget 0 false dOpen = some (0x80, 7) ∧ fieldN dOpen 251 250 = 0 ∧
      fieldN dOpen 211 188 = 0x1000 ∧ 0 + 0x1000 ≤ epBytes (dX dOpen) (epOf 0x80) ∧
      (getPool (dX dOpen) (epOf 0x80) 7).isOpen = false ∧ fieldN dRel 251 250 = 1 ∧ fieldN dRel 180 157 = 0x40 ∧
      0x40 ≤ (getPool (pooled (dX dRel)) (epOf 0x80) 7).committed := by decide +kernel
def move : Transfer :=
  { entry := eX dXfer, mcast := false, tmode := 0, pool := none, src := 0, dst := 0x80, window := 0, stream := 1,
    deadline := 5000, len := 64, saddr := 0, daddr := 0x40, tally := 0, rcvrs := [], push := true, sig := false, tok := 0 }
def chunk : TxChunk := { num := 0, tag := 9, off := 0, len := 64, asked := 0 }
def moving (cs : List TxChunk) : Device := chase fun x => { x with
  transfers := [{ move with chunks := cs, asked := if cs = [] then 0 else 64 }], chaseSide := true, galley := memOf (List.replicate 64 7) }
theorem witness_XferAndPools_chunk :
    (transferAt (moving []) 0 0).map (fun t => (decide (t.asked < t.len), chunkWindow (moving []) t 0,
      poolBad (moving []) t 64, chunkRetired (moving []) t 0 64, chunkRoutes (moving []) 0 t chunk)) = some (true, true, false, false, true) ∧
    (let d := modPress 0 (fun x => { x with transfers := [{ move with chunks := List.replicate 4 chunk }] }) (moving [])
     (transferAt d 0 0).map (fun t => (t.chunks.length, t.chunks.any (chunkWaits d 0 t))) = some (4, true)) := by decide +kernel
theorem witness_XferAndPools_window :
    let d := modPress 0 (fun x => { x with transfers := [{ move with dst := 0xE0, window := 3 }] }) (moving [])
    ((transferAt d 0 0).map fun t => (decide (t.asked < t.len), decide (t.chunks.length < 4), chunkWindow d t t.asked))
      = some (true, true, false) := by decide +kernel
theorem test_xfer_dispatch : ((press (after (.xferDispatch 0) (dX dXfer)) 0).transfers.map fun t => (t.dst, t.len, t.push))
    = [(0x80, 64, true)] := by decide +kernel
theorem test_pool_open_release :
    getPool (after (.poolOpen 0) (dX dOpen)) (epOf 0x80) 7 = { isOpen := true, size := 0x1000, free := 0x1000 } ∧
    (getPool (after (.poolRelease 0) (pooled (dX dRel))) (epOf 0x80) 7).free = 0x1000 := by decide +kernel
theorem test_chunk_request : ((after (.chunkRequest 0 0) (moving [])).chase.flight.map fun m => (m.type, m.dst, m.src, m.addr))
    = [(0, 0x80, 0, 0x40)] := by decide +kernel

/-- One message in flight between galley 0.0 and case 0. -/
def msg (ty dst src : Nat) : ChaseMsg := { type := ty, dst := dst, src := src, tag := 9, len := 64, addr := 0x40, stream := 1, slot := 5 }
def fly (m : ChaseMsg) (d : Device) : Device := modChase (fun c => { c with flight := [m] }) d
def rx0 : RxChunk := { dst := 0x80, src := 0, tag := 9, len := 64, addr := 0x40, pool := none, stream := 1, slot := 5, init := 0,
                       granted := true }
def arrived (c : RxChunk) (d : Device) : Device := modChase (fun x => { x with rx := [c] }) d
def pulling : Device := chase fun x => { x with
  transfers := [{ move with src := 0x80, dst := 0, push := false, asked := 64, chunks := [chunk] }] }
theorem witness_MessagesArrive_requests :
    let d := fly (msg 1 0 0x80) (moving [chunk])
    let d' := modChunk 0 0 9 (fun c => { c with grants := c.grants ++ [0x80] }) (takeFlight 0 d)
    (msgAt (fly (msg 0 0x80 0) (moving [chunk])) 0 0).isSome = true ∧ msgAt d 0 1 = some (msg 1 0 0x80) ∧
      ((findTx (takeFlight 0 d) 0 9).map fun x => (chunkRcvrs (takeFlight 0 d) x.2.1 x.2.2, x.2.2.grants)) = some ([0x80], []) ∧
      ((transferAt d' 0 0).map fun t => (chunkWaits d' 0 t { chunk with grants := [0x80] }, sourceReady d' t.src 0 64,
        (readForSend 2 0 t.entry 1 0 0 64 d').2.isSome)) = some (false, true, true) := by decide +kernel
theorem witness_MessagesArrive_read :
    let d := fly { (msg 2 0x80 0) with rcv := 0 } pulling
    msgAt d 0 2 = some { (msg 2 0x80 0) with rcv := 0 } ∧ readReady d 0x80 0x40 64 = true ∧ epOf 0x80 = .case 0 ∧
      ((findTx (takeFlight 0 d) 0 9).map fun x => (readForSend 2 0 x.2.1.entry 1 0x80 0x40 64 (takeFlight 0 d)).2.isSome) = some true ∧
      epOf 0xDF = .region 23 ∧ epOf 0xB0 = .quad 0 ∧ epOf 0xE0 = .host := by decide +kernel
theorem witness_MessagesArrive_fenced :
    msgAt (fly (msg 0 127 0) fencedPress) 0 0 = some (msg 0 127 0) ∧ epOf (msg 0 127 0).dst = .galley 127 ∧
      fenced (fly (msg 0 127 0) fencedPress) 127 = true := by decide +kernel
theorem witness_MessagesArrive_waits :
    let d := fly { (msg 2 0 0) with rcv := 0 } pulling
    msgAt d 0 2 = some { (msg 2 0 0) with rcv := 0 } ∧ readReady d 0 0x40 64 = false ∧
      readTurn d { (msg 2 0x80 0) with rcv := 0 } = true := by decide +kernel
theorem witness_MessagesArrive_ports :
    let m (e : Nat) : ChaseMsg := { (msg 2 e 0) with rcv := 0 }
    let d (e : Nat) : Device := fly (m e) (chase fun x => { x with
      transfers := [{ move with src := e, dst := 0, push := false, asked := 64, host := 0x1000, chunks := [chunk] }] })
    (readReady (d 0xDF) 0xDF 0x40 64 && readReady (d 0xB0) 0xB0 0x40 64 && readReady (d 0xE0) 0xE0 0x40 64) = true ∧
      (readTurn (d 0xDF) (m 0xDF) && readTurn (d 0xB0) (m 0xB0) && readTurn (d 0xE0) (m 0xE0)) = true ∧
      (findTx (takeFlight 0 (d 0xE0)) 0 9).isSome = true := by decide +kernel
theorem witness_MessagesArrive_data :
    rxOf (takeFlight 0 (fly (msg 3 0x80 0) (arrived rx0 (moving [chunk])))) (msg 3 0x80 0) = some rx0 ∧ rx0.granted = true ∧
      rx0.committed = false ∧ msgAt (fly (msg 4 0x80 0) (arrived rx0 (moving [chunk]))) 0 4 = some (msg 4 0x80 0) := by decide +kernel
/-- R257: what fits is granted at once; the GRANT goes back to the source. -/
theorem test_chase_reserve :
    let d := after (.chaseReserve 0 .ok) (fly (msg 0 0x80 0) (moving [chunk]))
    d.chase.rx.map (·.granted) = [true] ∧ d.chase.flight.map (fun m => (m.type, m.dst, m.src)) = [(1, 0, 0x80)] := by
  decide +kernel
theorem test_chase_grant : ((after (.chaseGrant 0 .ok) (fly (msg 1 0 0x80) (moving [chunk]))).chase.flight.map fun m =>
    (m.type, m.dst, m.data.length, m.tally)) = [(3, 0x80, 64, 0), (4, 0x80, 0, 16 * 0x07070707)] := by decide +kernel
theorem test_chase_read : ((after (.chaseRead 0 .ok) (fly { (msg 2 0x80 0) with rcv := 0 } pulling)).chase.flight.map fun m =>
    (m.type, m.dst)) = [(3, 0), (4, 0)] := by decide +kernel
theorem test_chase_data_end :
    (after (.chaseData 0 .ok) (fly { (msg 3 0x80 0) with data := [1] } (arrived rx0 (moving [chunk])))).chase.rx.map (·.flits) = [[(0, [1])]] ∧
    (after (.chaseEnd 0 .ok) (fly { (msg 4 0x80 0) with tally := 6 } (arrived rx0 (moving [chunk])))).chase.rx.map (·.tally) = [some 6] := by
  decide +kernel

/-- Answers, commits and cancellations. -/
def rxFull : RxChunk := { rx0 with flits := [(0, List.replicate 64 3)], tally := some (16 * 0x03030303) }
theorem witness_ChunksComplete_ack :
    let d := fly (msg 5 0 0x80) (moving [{ chunk with sent := true, grants := [0x80] }])
    msgAt d 0 5 = some (msg 5 0 0x80) ∧ (msg 5 0 0x80).good = true ∧ ({ (msg 5 0 0x80) with good := false } : ChaseMsg).good = false ∧
      ((findTx (takeFlight 0 d) 0 9).map fun x => (x.2.2.sent, x.2.2.acks, chunkRcvrs (takeFlight 0 d) x.2.1 x.2.2)) =
        some (true, [], [0x80]) ∧ msgAt (fly (msg 6 0x80 0) (moving [])) 0 6 = some (msg 6 0x80 0) := by decide +kernel
theorem witness_ChunksComplete_commit :
    let d := arrived rxFull (moving [chunk])
    d.chase.rx[0]? = some rxFull ∧ commitReady rxFull = true ∧ (rxBytes rxFull).map List.length = some 64 ∧
      ((commitPieces rxFull (List.replicate 64 3)).all fun av => match epMem d (epOf 0x80) av.1 with
        | some ia => !memBlocked d ia.1 ia.2 av.2.length
        | none => false) = true ∧ d.host.linkUp = true ∧ d.host.busMaster = true ∧
      (stack d 0).state = .ready ∧ hbmWaits d 0x40 64 = false := by decide +kernel
/-- Bank 0 of the case of forme 0 is blocked. -/
theorem witness_ChunksComplete_blocked :
    let d := modForme 0 (fun x => { x with block := 1 }) (arrived rxFull (moving [chunk]))
    d.chase.rx[0]? = some rxFull ∧ commitPieces rxFull (List.replicate 64 3) = [] ++ (0x40, List.replicate 64 3) :: [] ∧
      ((epMem d (epOf 0x80) 0x40).map fun ia => memBlocked d ia.1 ia.2 64) = some true := by decide +kernel
theorem witness_ChunksComplete_far :
    let d := arrived { rxFull with dst := 0xE0 } (moving [chunk])
    commitReady { rxFull with dst := 0xE0 } = true ∧ commitReady { rxFull with dst := 0xDF } = true ∧
      commitReady { rxFull with dst := 0xB0 } = true ∧ (findTx d 0 9).isSome = true ∧
      ((rxBytes { rxFull with dst := 0xE0 }).map List.length) = some 64 := by decide +kernel
theorem test_chase_ack :
    (press (after (.chaseAck 0 .ok) (fly (msg 5 0 0x80) (moving [{ chunk with sent := true, grants := [0x80] }]))) 0).transfers = [] := by
  decide +kernel
/-- R272: a bad tally faults the initiator's task with CH_TALLY. -/
theorem test_chase_ack_bad : ((ticketOf (after (.chaseAck 0 .ok) (fly { (msg 5 0 0x80) with good := false }
    (moving [{ chunk with sent := true, grants := [0x80] }]))) 5).bind (·.abort)).map (·.code) = some 0x0602 := by decide +kernel
theorem test_chase_cancel : (after (.chaseCancel 0 .ok) (fly (msg 6 0x80 0) (arrived rx0 (moving [])))).chase.rx = [] := by
  decide +kernel
theorem test_chunk_commit :
    let d := after (.chunkCommit 0) (arrived rxFull (moving [chunk]))
    memByte (forme d 0).case 0x7F = 3 ∧ d.chase.flight.map (fun m => (m.type, m.good)) = [(5, true)] := by decide +kernel

/-- Sides and deadlines. -/
theorem witness_SidesAndDeadlines_side :
    (press (modPress 0 (fun x => { x with pressWait := true }) (moving [])) 0).chaseSide = true ∧
      (let d := fly (msg 2 0 0x80) (chase id)
       (press d 0).chaseSide = false ∧ chaseWork d 0 = true ∧ pressAccess d 0 = false) := by decide +kernel
/-- The side of a press whose task is aborting, and the first receiver that a multicast push waits on. -/
theorem witness_SidesAndDeadlines_aborting :
    pressAborting (moving []) 0 = false ∧
      pressAborting (modMk (fun m => { m with tickets := m.tickets.map fun t => { t with abort := some ⟨0x0704, unitMk, {}, none, 0, 0, 0, [], false⟩ } }) (moving [])) 0
        = true := by decide +kernel
def mmove : Transfer := { move with mcast := true, rcvrs := [0x80, 0x81], asked := 64,
                                    chunks := [{ chunk with grantBy := 4096, grants := [0x80] }] }
def mcast : Device := modPress 0 (fun x => { x with transfers := [mmove] }) (moving [])
theorem witness_SidesAndDeadlines_deadline :
    ((transferAt mcast 0 0).map fun t => (t.mcast, (t.chunks.find? (fun c => chunkWaits mcast 0 t c && decide (c.grantBy ≤ mcast.now))).isSome))
      = some (true, true) ∧ mcast.now < 5000 ∧ ((transferAt mcast 0 0).map (·.deadline)) = some 5000 ∧
      5000 ≤ (modTime (fun t => { t with count := 5000 }) mcast).now := by decide +kernel
theorem witness_SidesAndDeadlines_peer : mmove.mcast = true ∧ mmove.chunks = { chunk with grantBy := 4096, grants := [0x80] } :: [] ∧
    waitPeer mmove 1 = 0x81 := by decide +kernel
theorem test_side_change : (press (after (.galleySideChange 0) (fly (msg 2 0 0x80) (chase id))) 0).chaseSide = true ∧
    (press (after (.galleySideChange 0) (modPress 0 (fun x => { x with pressWait := true }) (moving []))) 0).chaseSide = false := by
  decide +kernel
theorem test_multicast_deadline : ((ticketOf (after (.multicastGrantDeadline 0 0) mcast) 5).bind (·.abort)).map (·.code) = some 0x0610 := by
  decide +kernel
theorem test_stream_deadline : ((ticketOf (after (.streamDeadline 0 0) (modTime (fun t => { t with count := 5000 }) mcast)) 5).bind
    (·.abort)).map (·.code) = some 0x0601 ∧
    (ticketOf (after (.streamDeadline 0 0) (modTime (fun t => { t with count := 4999 }) mcast)) 5).bind (·.abort) = none := by
  decide +kernel

/-! ## Stacks, fills and Forron ports (O36 to O39) -/

def req (f : BitVec 576) : HbmReq := { unit := 2, flips := f, write := none }
def retire0 : Device := modHbm (fun h => { h with retire := [(0, 0x80000000)] }) ready
def alerted (x : HbmBus) : Device := modBus 1 2 (fun _ => x) ready
def bucket : Device := modTime (fun t => { t with count := 0x101000 }) (modHbm (fun h => { h with bucketOn := true, level := 3 }) ready)
def coalesced : Device := coalSet (.hbm 0) [{ memory := 0, addr := 0, count := 4, opened := 100 }] (modTime (fun t => { t with count := 409700 }) ready)
def fullQueue : Device :=
  modStack 1 (fun s => { s with queues := vmodN s.queues 2 fun q => { q with waiting := List.replicate 32 { unit := 2, old := none } } }) ready
theorem witness_StacksServe :
    asleep ready = false ∧ (stack ready 0).state = .ready ∧ domainOn ready 144 = true ∧ unitRetired ready 0 2 = false ∧
      unitRetired retire0 0 2 = true ∧ ((coalGet coalesced (.hbm 0))[0]?.map fun e => decide (e.opened + 409600 ≤ coalesced.now)) = some true ∧
      bucket.hbm.bucketOn = true ∧ bucket.hbm.leaked + max 1 bucket.hbm.leakSheets.toNat ≤ bucket.sheet ∧ bit 0x80000000#32 31 = true ∧
      bit 0#32 31 = false ∧ stackPresent ready.part 0 = true ∧ queueFull ready 0 2 true = false ∧
      queueFull fullQueue 1 2 false = true ∧ queueFull fullQueue 1 2 true = false := by decide +kernel
/-- R287, R288, R296: while its bus trains a pseudo-channel queues; row 0 of the bank is open, so that of two reads the later
one, to row 0, is issued first. -/
theorem test_open_row_first :
    let d := modStack 1 (fun s => { s with queues := vmodN s.queues 0 fun q => { q with rows := [(0, 0)] } })
      (modBus 1 0 (fun x => { x with training := true }) ready)
    let d := after (.hbmRequest 1 { unit := 64, write := none, flips := 0 })
      (after (.hbmRequest 1 { unit := 65536, write := none, flips := 0 }) d)
    (vgetN {} (stack d 1).queues 0).waiting.map (·.unit) = [65536, 64] ∧
    ((vgetN {} (stack (after (.replayDone 1 0) d) 1).buses 0).retry.map (·.unit)) = [64, 65536] := by decide +kernel
/-- R301, R305: one flipped bit is mended and counted. -/
theorem test_hbm_request_mends : (stack (after (.hbmRequest 0 (req 1)) ready) 0).ce = 1 ∧
    (stack (after (.hbmRequest 0 (req 0)) ready) 0).ce = 0 := by decide +kernel
theorem test_hbm_request_writes :
    memBytes (stack (after (.hbmRequest 0 { unit := 2, flips := 0, write := some 0x1234 }) ready) 0).mem 128 2 = [0x34, 0x12] := by
  decide +kernel
theorem test_coalesce_expire : coalGet (after (.coalesceExpire (.hbm 0) 0) coalesced) (.hbm 0) = [] ∧
    (coalGet (after (.coalesceExpire (.hbm 0) 0) (modTime (fun t => { t with count := 409699 }) coalesced)) (.hbm 0)).length = 1 := by
  decide +kernel
theorem test_bucket_leak : (after .bucketLeak bucket).hbm.level = 2 ∧ (after .bucketLeak bucket).hbm.leaked = 256 := by decide +kernel
theorem test_bucket_ctrl : (after (.hbBucketCtrlWrite 0x80050007) ready).hbm.leakSheets = 5 ∧
    (after (.hbBucketCtrlWrite 0) bucket).hbm.level = 0 := by decide +kernel
theorem test_hbm_hot : (stack (after (.hbmHot 3 true) ready) 3).hot = true := by decide +kernel
theorem test_hb_clear : (stack (after (.hbClearCounts 0) (modStack 0 (fun s => { s with ce := 5 }) ready)) 0).ce = 0 := by decide +kernel

def waking (n : Nat) : Device := modDomain n (fun x => { x with dstate := .waking, ramp := none }) ready
theorem witness_ReplaysAndFills :
    (let x := vgetN {} (stack (alerted { active := true, attempts := 3 }) 1).buses 2
     x.active = true ∧ x.training = false ∧ 3 ≤ x.attempts) ∧
      (vgetN {} (stack (alerted { training := true }) 1).buses 2).training = true ∧
      (stack r0 0).state = .filling ∧ wakingFill (waking 144) 144 = true ∧ (forme ready 0).filling = true ∧ domainOn ready 128 = true ∧
      wakingFill (waking 5) 5 = true ∧ stackPresent ready.part 1 = true ∧ domainOn ready 145 = true := by decide +kernel
/-- R297: alerts within one replay count on; R298: the fourth retrains the bus and fails what the buffer holds. -/
theorem test_parity_alert :
    (vgetN {} (stack (after (.cmdParityAlert 1 2) (alerted {})) 1).buses 2).attempts = 1 ∧
    (vgetN {} (stack (after (.cmdParityAlert 1 2) (alerted { active := true, attempts := 2 })) 1).buses 2).attempts = 3 := by
  decide +kernel
theorem test_parity_alert_fourth :
    let s := stack (after (.cmdParityAlert 1 2) (alerted { active := true, attempts := 3, retry := [{ unit := 4, old := none }] })) 1
    s.fatal = 1 ∧ s.ue = 1 ∧ (vgetN {} s.buses 2).training = true ∧ (vgetN {} s.buses 2).retry = [] := by decide +kernel
theorem test_replay_done :
    (vgetN {} (stack (after (.replayDone 1 2) (alerted { active := true, attempts := 2 })) 1).buses 2).lastEnd = some 4096 ∧
    (vgetN {} (stack (after (.replayDone 1 2) (alerted { training := true })) 1).buses 2).training = false := by decide +kernel
theorem test_fill_stack : (stack (after (.fillDone (.stack 0)) r0) 0).state = .ready := by decide +kernel
theorem test_fill_forme : (forme (after (.fillDone (.forme 3)) ready) 3).filling = false ∧
    (forme (after (.fillDone (.forme 3)) ready) 3).state = .off := by decide +kernel

/-- Quad 2 a Forron port in a given state; the part and its partner have incarnations 1 and 9. -/
def port (g : Quad → Quad) : Device :=
  modForron (fun f => { f with countPending := false, inc := 1 }) (modQuad 2 (fun x => g { x with mode := 1, peerInc := 9 }) ready)
def portAt (st : PortState) : Device := port fun x => { x with state := st }
/-- The partner's TRAIN block: quire 4, device 7, port 3, expecting 0, with `seen`. -/
def partnerTrain (w : Nat) : BitVec 128 := place 128 127 120 3 ||| place 128 119 119 1 ||| place 128 115 112 w ||| place 128 111 96 9
  ||| place 128 95 80 1 ||| place 128 79 72 4 ||| place 128 71 63 7 ||| place 128 62 58 3
def almost (w : Nat) (e : Word) : Device := port fun x =>
  { x with state := .exchange, seen := true, lastTrain := some (partnerTrain w), trainRun := 7, expect := e }
/-- 64 data headers, then a LANE_MARK at the given time (R328, R329). -/
def hunt (t : Nat) : LaneHunt :=
  { headers := 0x55555555555555555555555555555555, mark := controlBlock (laneMark 0 4 0), time := t }
theorem witness_PortsTrain :
    (1 : BitVec 2) ≠ (quad ready 2).mode ∧ quadPresent ready.part 2 = true ∧ bit ready.trust.store.enForron 2 = true ∧
      isUpper ready 2 = false ∧ (quad (portAt .signal) (portOf (portAt .signal) 2)).state = .signal ∧
      (quad (portAt .hunt) (portOf (portAt .hunt) 2)).state = .hunt ∧
      allLocked (port fun x => { x with state := .hunt, laneLock := 15 }) 2 = true ∧
      allLocked (port fun x => { x with state := .hunt, laneLock := 1 }) 2 = false ∧
      (quad (port fun x => { x with state := .exchange, laneLock := 15 }) 2).laneLock.getLsbD 3 = true ∧
      (quad (port fun x => { x with state := .hunt, laneLock := 15 }) 2).laneLock.getLsbD 3 = true ∧
      (quad (portAt .exchange) (portOf (portAt .exchange) 2)).state = .exchange ∧ fieldN (partnerTrain 4) 127 120 = 3 ∧
      (quad (almost 4 0) 2).trainRun = 7 ∧
      isBonded (modQuad 2 (fun x => { x with bond := true }) (modQuad 3 (fun x => { x with mode := 1 }) (portAt .up))) 2 = true ∧
      isBonded (portAt .up) 2 = false ∧ (quad (portAt .up) 2).prbs ≠ 1 ∧ domainOn (portAt .up) 154 = true ∧
      (quad ready 2).mode ≠ 2 ∧ (quad (modQuad 2 (fun x => { x with mode := 2 }) ready) 2).mode = 2 ∧
      huntPasses (hunt 0) = true ∧ huntPasses { hunt 0 with mark := 1 } = false ∧ badHeaders (2 ^ 32 - 1) = 64 ∧
      badHeaders 0x5555555555555555555555557FFFFFFF = 15 ∧ stateBound (quad (portAt .signal) 2).state = some 16 ∧
      blockHeader (dataBlock 0) ≠ 2 ∧ blockHeader 3 ≠ 2 ∧ controlType 0 ≠ 1 ∧ portHears (portAt .up) 2 = true ∧
      controlType (partnerTrain 4) = 3 ∧ bit (partnerTrain 4) 119 = true := by decide +kernel
theorem witness_PortsTrain_down :
    let e := port fun x => { x with state := .down, prbs := 1 }
    (quad e 2).state = .down ∧ isUpper e 2 = false ∧ (quad e 2).prbs ≠ 0 ∧ (portQuads e 2).all (fun k => domainOn e (152 + k)) = true ∧
      (quad (portAt .down) 2).prbs = 0 ∧ mayTrain (portAt .down) 2 = true ∧ (3 : BitVec 4) ≠ 15 ∧
      flitBad [⟨false, 16, true⟩] = true ∧ flitBad [⟨false, 15, true⟩] = false ∧ linkBusy (portAt .up) = false := by decide +kernel
/-- R327: a control block of type 2 counts; one whose header is no control header does not. -/
theorem test_control_type :
    (quad (after (.trainBlock 2 (controlBlock (2#128 <<< 120))) (portAt .up)) 2).crcErr = 1 ∧
    (quad (after (.trainBlock 2 (dataBlock (2#128 <<< 120))) (portAt .up)) 2).crcErr = 0 := by decide +kernel
theorem test_quad_mode : (quad (after (.quadModeWrite 2 1) (modForron (fun f => { f with countPending := false }) ready)) 2).state = .signal ∧
    (quad (after (.quadModeWrite 2 1) ready) 2).state = .down := by decide +kernel
theorem test_prbs : (quad (after (.prbsSelect 2 1 []) (portAt .up)) 2).state = .prbs ∧ (quad (after (.prbsSelect 2 3 []) (portAt .up)) 2).state = .up ∧
    (quad (after (.prbsSelect 2 0 [List.replicate 256 false ++ [true, false, true]]) (port fun x => { x with state := .prbs, prbs := 1 })) 2).prbsErr
      = #v[2, 0, 0, 0] := by
  decide +kernel
theorem test_retrain : (quad (after (.retrain 2) (port fun x => { x with held := true })) 2).state = .signal ∧
    (quad (after (.retrain 2) (portAt .up)) 2).retrainCount = 1 := by decide +kernel
theorem test_fl_clear : (quad (after (.flClearCounts 2) (port fun x => { x with crcErr := 4 })) 2).crcErr = 0 := by decide +kernel
theorem test_clock_lock : (quad (after (.clockRecoveryLock 2) (portAt .signal)) 2).state = .hunt := by decide +kernel
theorem test_lane_lock :
    let d := port fun x => { x with state := .hunt, laneLock := 14, markAt := #v[0, 5000, 5000, 5000] }
    (quad (after (.laneLock 2 0 (hunt 2952)) d) 2).state = .exchange ∧
    (quad (after (.laneLock 2 0 (hunt 2951)) d) 2).state = .signal ∧
    (quad (after (.laneLock 2 0 { hunt 2952 with headers := 0x55555555555555555555555555555557 }) d) 2).laneLock = 14 ∧
    (quad (after (.laneLock 2 0 { hunt 2952 with mark := dataBlock (laneMark 0 4 0) }) d) 2).laneLock = 14 := by decide +kernel
/-- R329: 16 of the last 64 headers are invalid, or 15. -/
theorem test_lane_lost : (quad (after (.laneLockLost 2 3 (2 ^ 32 - 1)) (port fun x => { x with state := .up, laneLock := 15 })) 2).state = .signal ∧
    (quad (after (.laneLockLost 2 3 0x555555555555555555555555FFFFFFFF) (port fun x => { x with state := .hunt, laneLock := 15 })) 2).laneLock = 7 ∧
    (quad (after (.laneLockLost 2 3 0x5555555555555555555555557FFFFFFF) (port fun x => { x with state := .hunt, laneLock := 15 })) 2).laneLock = 15 := by decide +kernel
/-- R333: 8 sheets in Hunt. -/
theorem test_training_timeout :
    let d := port fun x => { x with state := .hunt, stateAt := 4096 }
    (quad (after (.trainingTimeout 2) (modTime (fun t => { t with count := 9 * 4096 }) d)) 2).state = .signal ∧
    (quad (after (.trainingTimeout 2) (modTime (fun t => { t with count := 9 * 4096 - 1 }) d)) 2).state = .hunt := by decide +kernel
/-- R335: the eighth TRAIN block in a row that shows seen takes the port Up; another partner or width holds it Down. -/
theorem test_train_block :
    (quad (after (.trainBlock 2 (controlBlock (partnerTrain 4))) (almost 4 0)) 2).state = .up ∧
    (quad (after (.trainBlock 2 (controlBlock (partnerTrain 4))) (almost 4 0)) 2).partner = 0x8201C600 := by decide +kernel
theorem test_train_block_refuses :
    (quad (after (.trainBlock 2 (controlBlock (partnerTrain 8))) (almost 8 0)) 2).held = true ∧
    (quad (after (.trainBlock 2 (controlBlock (partnerTrain 4))) (almost 4 0x82000000)) 2).state = .down := by decide +kernel

/-- A flit of 252 bytes with its CRC. -/
def flitOf (l : List Byte) : BitVec 2048 := BitVec.ofNat 2048 (leNat (l ++ leBytes 4 (crc32 l).toNat))
def flitMsg (q : BitVec 12) (m : FMsg) : BitVec 2048 :=
  flitOf (leBytes 12 (linkHeader true (fmsgData m) q 0 0 0 0 9 1).toNat ++ fmsgBytes m)
def flitNull (ackt : Nat) (ack : BitVec 12) : BitVec 2048 :=
  flitOf (leBytes 12 (linkHeader false false 0 ack ackt 3 0 9 1).toNat ++ bytesOf 240 0)
def toUs : FMsg := { mtype := 5, tag := 3, src := 0x200080, dst := 0x80, sinc := 9, pinc := 1, payload := bytesOf 224 0 }
def holding : Device := port fun x => { x with state := .up, retryBuf := [⟨0, false, toUs⟩], nextSeq := 1, credCtl := 10 }
theorem witness_FlitsAndRoutes :
    portUp (portAt .up) (portOf (portAt .up) 2) = true ∧ (portAt .up).now < (quad (port fun x => { x with ackBy := 4097 }) 2).ackBy ∧
      (quad (portAt .up) 2).ackBy ≤ (portAt .up).now ∧ quadPresent ready.part 2 = true ∧ (quad holding 2).retryBuf ≠ [] ∧ routeOk ready 0x82000000 = true ∧
      (quad ready 2).routeIndex.toNat < 768 ∧ ready.forron.orouteSel.toNat % 1024 < 768 := by decide +kernel
set_option maxRecDepth 8000 in
/-- R343: the flit expected is accepted; one further on is answered with a NAK. -/
theorem test_flit_msg :
    let d := after (.flit 2 (flitMsg 0 toUs) []) (portAt .up)
    d.forron.inbox.map (fun x => (x.1, x.2.mtype)) = [(2, 5)] ∧ (quad d 2).expSeq = 1 := by decide +kernel
set_option maxRecDepth 8000 in
theorem test_flit_null :
    let d := after (.flit 2 (flitNull 1 0) []) holding
    (quad d 2).retryBuf = [] ∧ (quad d 2).credCtl = 13 := by decide +kernel
set_option maxRecDepth 8000 in
theorem test_flit_bad : (quad (after (.flit 2 (flitMsg 0 toUs) [⟨false, 16, true⟩]) (portAt .up)) 2).crcErr = 1 ∧
    (quad (after (.flit 2 (flitMsg 0 toUs ^^^ 0x10000) [⟨false, 15, true⟩]) (portAt .up)) 2).naked = true := by decide +kernel
theorem test_retry_timeout : (quad (after (.retryTimeout 2) holding) 2).retry = 1 ∧
    (quad (after (.retryTimeout 2) (modQuad 2 (fun x => { x with rounds := 8 }) holding)) 2).state = .signal := by decide +kernel
theorem test_route_writes : (quad (after (.flRouteDataWrite .foreman 2 0x820001FF) (portAt .down)) 2).routes = [(0, 0x82000000)] ∧
    (after (.flOrouteDataWrite .foreman 0x820001FF) ready).forron.oroutes[0] = [(0, 0x82000000)] := by decide +kernel


/-- A RESERVE in transit from port 2 to part (0, 1), and the DATA of its chunk, take the same port. -/
def passing (ty : Nat) : FMsg :=
  { mtype := ty, tag := 7, src := 0x200080, dst := 0x480, sinc := 9, pinc := 0, payload := bytesOf 14 0 ++ leBytes 4 1 ++ bytesOf 206 0, resv := 5 }
theorem test_transit_path :
    let d := modQuad 2 (fun x => { x with routes := [(257, 0xA4300000)] }) (modQuad 4 (fun x => { x with mode := 1, state := .up, credCtl := 64, credData := 64 })
      (modQuad 6 (fun x => { x with mode := 1, state := .up, credCtl := 64, credData := 64 }) ready))
    let e := forward 2 (passing 3) (forward 2 (passing 1) d)
    ((quad e 6).retryBuf.map fun h => (h.msg.mtype, h.msg.resv)) = [(1, 5), (3, 5)] ∧ (quad e 4).retryBuf = [] := by decide +kernel
/-! ## The Forron transport (O40 to O42) -/

/-- Press 0 with its windows open; port 2 Up toward quire 4, and the routes of die 0 to it. -/
def fl (g : Press → Press) : Device :=
  modForron (fun f => { f with countPending := false, inc := 1, oroutes := vmodN f.oroutes 0 (fun _ => [(4, 0x82000000)]),
                               rings := vmodN f.rings 0 (fun t => vmodN t 1 (fun _ => ⟨true, 1, 0, 0x2000E1, 0x2003E1⟩)) })
    (modQuad 2 (fun x => { x with mode := 1, peerInc := 9, state := .up })
      (modMk (fun m => { m with table := [(0, entry 1 1 5 4000 0 0 1 0 ||| 2), (1, entry 1 2 5 4000 2 2 1 1 ||| 2),
                                          (2, entry 1 3 5 4000 3 0 1 2 ||| 2)] }) (bench g)))
/-- LINK of 64 bytes from galley 0.0 to case 0 of quire 4; and a reduce-scatter of 32 elements in case 0 on ring 1. -/
def dLink : BitVec 256 := place 256 255 252 10 ||| place 256 237 228 0x80 ||| place 256 227 224 1 ||| place 256 223 212 6
  ||| place 256 211 188 0x1000 ||| place 256 187 168 1 ||| place 256 87 80 4
def dColl : BitVec 256 := place 256 255 252 11 ||| place 256 249 246 1 ||| place 256 245 242 2 ||| place 256 241 232 0x80
  ||| place 256 231 220 6 ||| place 256 219 196 0x1000 ||| place 256 195 168 32
def linkE (b : BitVec 256) : QEntry := qe (wd 0x26 0) [b] []
def linkAt (b : BitVec 256) : Device := fl fun x => { x with queue := [linkE b] }
def ftx (cs : List TxChunk) : FTransfer :=
  { entry := linkE dLink, desc := dLink, quad := 0, src := 0, deadline := 9000, sig := false, tok := 0,
    asked := if cs = [] then 0 else 64, nextNum := cs.length, chunks := cs }
def sending (cs : List TxChunk) : Device := fl fun x => { x with ftransfers := [ftx cs], galley := memOf (List.replicate 64 7), chaseSide := true }
def fchunk : TxChunk := { num := 0, tag := 9, off := 0, len := 64, asked := 4096, port := 2 }
def coll (g : Collective → Collective) : Device :=
  let d := fl fun x => { x with chaseSide := true }
  let c := g (makeCollective d 0 (linkE dColl) dColl ⟨true, 1, 0, 0x2000E1, 0x2003E1⟩)
  modForron (fun f => { f with engines := vmodN f.engines 0 fun _ => some c }) d
theorem witness_LinksDispatch_link :
    headOf (linkAt dLink) 0 (fun o => o = 0x26) = some (linkE dLink) ∧ dKind dLink = 10 ∧ linkWf dLink = true ∧ (0 + 0 < 8) ∧
      faMarker dLink = false ∧ linkChecks (linkAt dLink) 0 0 dLink = none ∧ linkChecks (linkAt dLink) 0 0x81 dLink = some 0x0603 := by
  decide +kernel
theorem witness_LinksDispatch_collective :
    let r : RingEntry := ⟨true, 1, 0, 0x2000E1, 0x2003E1⟩
    dKind dColl = 11 ∧ reservedZero dColl kindBFields = true ∧ fieldN dColl 251 250 ≠ 3 ∧ fieldN dColl 245 242 ≠ 0 ∧
      (vgetN none (linkAt dColl).forron.engines 0).isSome = false ∧ collectiveChecks (linkAt dColl) 0 dColl r = none ∧
      collectiveChecks (linkAt dColl) 0 dColl {} = some 0x0407 := by decide +kernel
theorem witness_LinksDispatch_request :
    let d := sending []
    (ftransferAt d 0 0).isSome = true ∧ (ftx []).asked < faBytes dLink ∧ originPort d 0 (flDest dLink) 0 = some 2 ∧
      portWindow d 5 1 2 = true ∧ 4 ≤ (List.replicate 4 fchunk).length ∧
      ((vgetN none (coll id).forron.engines 0).map fun c => decide (c.step < colSteps c) && colMaySend c c.step c.chunk && colOpen (coll id) 0 c
        && (colChunks c (colSends c c.step))[c.chunk]? == some (0, 64) && originPort (coll id) 0 c.succ c.chunk == some 2) = some true := by
  decide +kernel
/-- The same engine where none of its windows is open, and a LINK from HBM of which no part is retired. -/
theorem witness_LinksDispatch_waits :
    let d := modMk (fun m => { m with table := [] }) (coll id)
    ((vgetN none d.forron.engines 0).map fun c => (decide (c.step < colSteps c), colOpen d 0 c)) = some (true, false) ∧
      portWindow (sending []) 5 2 2 = false ∧ linksDone (linkAt dLink) 0 = true ∧
      hbmRetired (sending []) 0 64 = false := by decide +kernel
theorem test_link_dispatch : ((press (after (.linkDispatch 0) (linkAt dLink)) 0).ftransfers.map fun t => (t.src, flDest t.desc, t.desc == dLink))
    = [(0, 0x200080, true)] := by decide +kernel
theorem test_collective_dispatch : ((vgetN none (after (.collectiveDispatch 0) (linkAt dColl)).forron.engines 0).map fun c => (c.n, c.i, c.succ))
    = some (2, 0, 0x2000E1) := by decide +kernel
/-- R350, R352: the RESERVE leaves by the route's port with the length, address and chunk. -/
theorem test_forron_request :
    let d := after (.forronChunkRequest (.transfer 0 0)) (sending [])
    ((quad d 2).retryBuf.map fun h => (h.msg.mtype, h.msg.src, h.msg.dst, h.msg.payload.take 2)) = [(1, 0, 0x200080, [64, 0])] ∧
    (press d 0).ftransfers.map (·.asked) = [64] := by decide +kernel
theorem test_engine_request : ((quad (after (.forronChunkRequest (.engine 0)) (coll id)) 2).retryBuf.map fun h => (h.msg.src, h.msg.dst))
    = [(0xE1, 0x2000E1)] := by decide +kernel

/-- A message of the partner's galley in the receive buffer of port 2, and a chunk at its receiver. -/
def fmsg (ty : Nat) (src dst : BitVec 27) (l : List Byte) : FMsg :=
  { mtype := ty, tag := 9, src := src, dst := dst, sinc := 9, pinc := 1, payload := l ++ bytesOf (224 - l.length) 0 }
def inboxed (m : FMsg) (d : Device) : Device := modForron (fun f => { f with inbox := [(2, m)] }) d
def rsv (dst : BitVec 27) (len : Nat) : FMsg := fmsg 1 0x200005 dst (reserveBytes len none 0x40 6 0 (bytesOf 6 0))
def frx : FRx := { port := 2, src := 0x200005, dst := 0x80, tag := 9, sinc := 9, len := 64, addr := 0x40, pool := none, stream := 6,
                   chunk := 0, coll := bytesOf 6 0, granted := true, holdBy := 5000 }
def atRx (x : FRx) (d : Device) : Device := modForron (fun f => { f with rx := [x] }) d
def dat (dst : BitVec 27) : FMsg := { (fmsg 3 0x200005 dst (List.replicate 64 5)) with last := true }
/-- The same chunk from the ring's predecessor to engine 0. -/
def erx : FRx := { frx with src := 0x2003E1, dst := 0xE1, coll := [0x12, 0, 0, 0, 0, 0] }
theorem witness_ForronReceives :
    let d := inboxed (rsv 0x80 64) (fl id)
    inboxAt d 0 1 = some (2, rsv 0x80 64) ∧ frxDie (frxOf d 2 (rsv 0x80 64)) = none ∧ reserveCause d (frxOf d 2 (rsv 0x80 64)) = none ∧
      reserveCause d (frxOf d 2 (rsv 0x80 65)) = some 2 ∧ frxDie (frxOf d 2 (rsv 0xE1 64)) = some 0 ∧
      inboxAt (inboxed (dat 0x80) (fl id)) 0 3 = some (2, dat 0x80) ∧ frxIs 0x200005 9 frx = true ∧
      dataFits frx (dat 0x80) = some (List.replicate 64 5) ∧ frxDie erx = some 0 ∧
      inboxAt (inboxed (fmsg 5 0x200005 0x80 []) (fl id)) 0 5 = some (2, fmsg 5 0x200005 0x80 []) ∧
      (atRx frx (fl id)).now < frx.holdBy ∧ frx.passed = false := by decide +kernel
theorem witness_ForronReceives_clauses :
    let d := takeInbox 0 2 (rsv 0x80 64) (inboxed (rsv 0x80 64) (fl id))
    d.forron.rx.any (frxIs 0x200005 9) = false ∧ (atRx frx d).forron.rx.any (frxIs 0x200005 9) = true ∧
      bit d.trust.store.enEngine 0 = true ∧
      bit (modTrust (fun t => { t with store := { t.store with enEngine := 0 } }) d).trust.store.enEngine 0 = false ∧
      dataReady d (dat 0x80) = true ∧ d.forron.rx.find? (frxIs 0x200005 9) = none ∧
      (atRx frx d).forron.rx.find? (frxIs 0x200005 9) = some frx ∧ frx.index = (dat 0x80).index ∧
      ({ dat 0x80 with index := 1 } : FMsg).index ≠ frx.index ∧ (dataFits frx { dat 0x80 with index := 1 }).isNone = true ∧
      frxDie frx = none ∧ 64 = erx.len ∧ ({ erx with len := 128 } : FRx).len ≠ 64 ∧
      ({ erx with granted := false, holdBy := 4096 } : FRx).holdBy ≤ d.now ∧
      (vgetN none d.forron.engines 0).isNone = true := by decide +kernel
/-- A RESERVE for a retired granule of device HBM (R353). -/
theorem witness_ForronReceives_retired :
    let d := modHbm (fun h => { h with retire := [(0, 0x80000000)] }) (inboxed (rsv 0xA8 64) (fl id))
    reserveCause d (frxOf d 2 (rsv 0xA8 64)) = some 4 ∧ addrEp (frxOf d 2 (rsv 0xA8 64)).dst = 0xA8 ∧
      frxDie (frxOf d 2 (rsv 0xA8 64)) = none := by decide +kernel
theorem witness_ForronReceives_hold :
    let x : FRx := { erx with granted := false, holdBy := 4096 }
    let d := atRx x (fl id)
    d.forron.rx[0]? = some x ∧ x.holdBy ≤ d.now ∧ x.passed = false ∧ frxDie x = some 0 ∧
      vgetN none d.forron.engines 0 = none := by decide +kernel
/-- R355: DATA past the chunk's length discards the chunk and answers RECEIPT 2. -/
theorem test_forron_oversize :
    let d := after (.forronData 0) (inboxed { dat 0x80 with index := 1 } (atRx frx (fl id)))
    d.forron.rx.isEmpty = true ∧ (quad d 2).retryBuf.map (fun h => (h.msg.mtype, h.msg.payload.take 1)) = [(4, [2])] := by decide +kernel
theorem test_forron_reserve :
    let d := after (.forronReserve 0) (inboxed (rsv 0x80 64) (fl id))
    (d.chase.flight.map fun m => (m.type, m.dst, m.src, m.addr)) = [(0, 0x80, 0xB2, 0x40)] ∧ d.forron.rx.length = 1 := by decide +kernel
theorem test_forron_reserve_refused : ((quad (after (.forronReserve 0) (inboxed (rsv 0x80 65) (fl id))) 2).retryBuf.map fun h =>
    (h.msg.mtype, h.msg.payload.take 2)) = [(2, [1, 2])] := by decide +kernel
theorem test_forron_data :
    let d := after (.forronData 0) (inboxed (dat 0x80) (atRx frx (fl id)))
    (d.chase.flight.map fun m => (m.type, m.data.length, m.tally)) = [(3, 64, 0), (4, 0, 16 * 0x05050505)] := by decide +kernel
theorem test_forron_cancel :
    let d := after (.forronCancel 0) (inboxed (fmsg 5 0x200005 0x80 []) (atRx frx (fl id)))
    d.forron.rx.isEmpty = true ∧ d.chase.flight.map (·.type) = [6] := by decide +kernel
theorem test_grant_hold :
    (after (.grantHoldExpired 0) (atRx frx (fl id))).forron.rx.length = 1 ∧
    (after (.grantHoldExpired 0) (atRx { frx with holdBy := 4096 } (fl id))).forron.rx.length = 0 := by decide +kernel

/-- Answers to chunks of this part. -/
def grantM (st cause : Nat) (src : BitVec 27) : FMsg := fmsg 2 src 0x200080 (flReplyBytes st cause 0 6 0)
def receiptM (st sum : Nat) (src : BitVec 27) : FMsg := fmsg 4 src 0x200080 (flReplyBytes st 0 sum 6 0)
def sent : TxChunk := { fchunk with sent := true, grants := [0], tally := 16 * 0x07070707 }
def collSent (b : Bool) : Device :=
  coll fun c => { c with step := 1, sent := [(0, 0, { fchunk with sent := b, grants := if b then [0] else [], tally := 5 })] }
theorem witness_ForronAnswers_grant :
    let d := inboxed (grantM 0 0 0) (sending [fchunk])
    inboxAt d 0 2 = some (2, grantM 0 0 0) ∧ grantReady d (grantM 0 0 0) = true ∧ findFtx d 0 9 = some (0, ftx [fchunk], fchunk) ∧
      leAt (grantM 0 0 0).payload 0 1 = 0 ∧ leAt (grantM 1 2 0).payload 0 1 ≠ 0 ∧
      (readForSend 3 0 (linkE dLink) 6 0 0 64 d).2.isSome = true ∧
      ((findEtx (collSent false) 0xE1 9).map fun x => (x.1, x.2.2.2.grants)) = some (0, []) ∧
      (findFtx (sending []) 0 9).isNone = true ∧ (findEtx (sending []) 0 9).isNone = true := by decide +kernel
theorem witness_ForronAnswers_spoilt :
    let d := takeInbox 0 2 (grantM 0 0 0) (inboxed (grantM 0 0 0) (sending [fchunk]))
    let d2 := modFchunk 0 0 9 (fun c => { c with grants := [0], pinc := 9, sent := true }) d
    ((findFtx d2 0 9).map fun x => x.2.2.sent) = some true ∧ fchunk.grants = [] ∧
      carriesFlit 64 0 0 = true := by decide +kernel
theorem witness_ForronAnswers_deadline :
    let c := coll fun c => { c with deadline := 4096 }
    ((vgetN none c.forron.engines 0).map fun x => (decide (x.deadline ≤ c.now), waitsPred x)) = some (true, false) ∧
      (ftx [fchunk]).chunks = fchunk :: [] ∧ (ftx []).chunks = [] ∧ originPort (sending []) 0 (flDest dLink) 0 = some 2 := by
  decide +kernel
theorem witness_ForronAnswers_receipt :
    let m := receiptM 0 (16 * 0x07070707) 0
    let d := inboxed m (sending [sent])
    inboxAt d 0 4 = some (2, m) ∧ findFtx d 0 9 = some (0, ftx [sent], sent) ∧ leAt m.payload 0 1 = 0 ∧
      leAt (receiptM 1 0 0).payload 0 1 = 1 ∧ leAt (receiptM 2 0 0).payload 0 1 = 2 ∧
      BitVec.ofNat 64 (leAt m.payload 4 8) = sent.tally ∧ ((findEtx (collSent true) 0xE1 9).map fun x => (x.2.2.2.sent, x.2.2.2.tally)) =
        some (true, 5) ∧ d.now < 9000 ∧ ((vgetN none (coll id).forron.engines 0).map fun c =>
        (decide ((coll id).now < c.deadline), waitsPred c)) = some (true, false) ∧ 9000 ≤ (modTime (fun t => { t with count := 9000 }) d).now := by decide +kernel
theorem test_forron_grant : ((quad (after (.forronGrant 0 .ok) (inboxed (grantM 0 0 0) (sending [fchunk]))) 2).retryBuf.map fun h =>
    (h.msg.mtype, h.msg.last, h.msg.payload.take 2, h.msg.pinc)) = [(3, true, [7, 7], 9)] := by decide +kernel
/-- R269, R347: a chase flit that fails on its way out faults the task with CH_UNCORRECTABLE, and the DATA from it on does not leave. -/
theorem test_forron_grant_spoiled :
    let d := after (.forronGrant 0 (.uncorrectable .root)) (inboxed (grantM 0 0 0) (sending [fchunk]))
    (quad d 2).retryBuf.map (·.msg.mtype) = [] ∧ ((ticketOf d 5).bind (·.abort)).map (·.code) = some 0x0611 := by decide +kernel
theorem test_forron_grant_refused : ((ticketOf (after (.forronGrant 0 .ok) (inboxed (grantM 1 2 0) (sending [fchunk]))) 5).bind (·.abort)).map
    (·.code) = some 0x0404 := by decide +kernel
theorem test_receipt : (press (after (.receipt 0) (inboxed (receiptM 0 (16 * 0x07070707) 0) (sending [sent]))) 0).ftransfers.isEmpty = true := by
  decide +kernel
theorem test_receipt_bad : ((ticketOf (after (.receipt 0) (inboxed (receiptM 0 1 0) (sending [sent]))) 5).bind (·.abort)).map (·.code) = some 0x0402 := by decide +kernel
theorem test_forron_deadline :
    ((ticketOf (after (.forronDeadline (.transfer 0 0)) (modTime (fun t => { t with count := 9000 }) (sending [sent]))) 5).bind
      (·.abort)).map (·.code) = some 0x0401 ∧
    ((ticketOf (after (.forronDeadline (.transfer 0 0)) (modTime (fun t => { t with count := 8999 }) (sending [sent]))) 5).bind
      (·.abort)).isNone = true := by decide +kernel

/-! ## The fount (O44 to O47) -/

/-! Known answers of the public algorithms, from their standards: FIPS 180-4, RFC 4231, the GCM specification (AES-256, cases
13 and 14), and the check values of the CRCs. -/
/-- TR_IMPRINT's digest is that of the tables of R151 (R374). -/
theorem test_imprint_digest :
    leNat ((sha512 (((exptTable ++ logtTable ++ rcptTable ++ rsqtTable ++ polyCoeffs).map (leBytes 4)).flatten)).take 4) = imprintDigest.toNat := by
  decide +kernel
theorem test_sha512 : beNat (sha512 [0x61, 0x62, 0x63]) =
    0xDDAF35A193617ABACC417349AE20413112E6FA4E89A97EA20A9EEEE64B55D39A2192992A274FC1A836BA3C23A3FEEBBD454D4423643CE80E2A9AC94FA54CA49F := by
  decide +kernel
theorem test_hmac512 : beNat ((hmac512 [0x4A, 0x65, 0x66, 0x65] ([0x77, 0x68, 0x61, 0x74, 0x20, 0x64, 0x6F, 0x20, 0x79, 0x61, 0x20,
    0x77, 0x61, 0x6E, 0x74, 0x20, 0x66, 0x6F, 0x72, 0x20, 0x6E, 0x6F, 0x74, 0x68, 0x69, 0x6E, 0x67, 0x3F])).take 16) =
    0x164B7A7BFCF819E2E395FBE73B56E0A3 := by decide +kernel
theorem test_gcm : beNat (gcmTag (bytesOf 32 0) (bytesOf 12 0) [] []) = 0x530F8AFBC74536B9A963B4F1C4CB738B ∧
    beNat (gcmCrypt (bytesOf 32 0) (bytesOf 12 0) 0 (bytesOf 16 0)) = 0xCEA7403D4D606B6E074EC5D3BAF39D18 ∧
    beNat (gcmTag (bytesOf 32 0) (bytesOf 12 0) [] (beBytes 16 0xCEA7403D4D606B6E074EC5D3BAF39D18)) = 0xD0D1C8A799996BF0265B98B5D48AB919 := by
  decide +kernel
theorem test_crcs :
    let l : List Byte := [0x31, 0x32, 0x33, 0x34, 0x35, 0x36, 0x37, 0x38, 0x39]
    crc32 l = 0xCBF43926 ∧ crc16 (msbBits l) = 0x29B1 ∧ crc64 l = 0x6C40DF5F0B497347 := by decide +kernel

/-- A pin pair drives tree 31; region 12 enables it in its C column, and every bit of its P column's crossing controls is 1, so
that wherever the selects lie they name tree 31, enabled. -/
def pins0 : List (Nat × Word) := [(31, 0x200)]
def enables0 : List (Nat × BitVec 4096) :=
  ((12 * 96 + 0) * 64 + 15, 1) :: (List.range 8).map fun m => ((12 * 96 + 1) * 64 + m, BitVec.allOnes 4096)
/-- The bench's task at press 64 of forme 8, the first on die 1. -/
def bench1 (g : Press → Press) : Device :=
  pressOn 64 (modPress 64 g (withTicket { ticket5 with started := true, running := 1, toStart := 0 }
    (modForme 8 (fun x => { x with state := .running, task := some 5, pmask := 0xFF, filling := false }) ready)))
/-- Every region configured and released, every tree running, feed 16 on region 12; `g` done to press 64. -/
def fab (g : Press → Press) : Device :=
  modCf (fun c => { c with regions := 0xFFFFFF, held := 0, state := .configured, wregs := pins0, frames := enables0 })
    (modFount (fun f => { f with treeRun := BitVec.allOnes 32, feedMap := vmodN f.feedMap 16 (fun _ => 0x80000000) }) (bench1 g))
theorem controls0 : ∀ m < 8, smapGet 0 enables0 ((12 * 96 + 1) * 64 + m) = BitVec.allOnes 4096 := by decide +kernel
theorem crossBit0 (d : Device) (kind i : Nat) (h : d.cf.frames = enables0) : crossBit d 12 kind i = true := by
  simp only [crossBit, columnFrame, h, controls0 _ (Nat.mod_lt _ (by decide : 0 < 8)), bit, BitVec.getLsbD_allOnes]
  exact decide_eq_true (Nat.mod_lt _ (by decide))
theorem notIsolated (d : Device) (kind : Nat) (hk : kind ≠ 3) (h0 : d.fount.isoOver = 0) (h1 : d.fount.isoTail = 0)
    (h2 : d.fount.treeRun = BitVec.allOnes 32) (h3 : d.cf.wregs = pins0) (h4 : d.cf.frames = enables0) :
    crossIsolated d 12 kind = false := by
  have hb := fun i => crossBit0 d kind i h4
  have ht : crossTree d 12 kind = 31 := by simp only [crossTree, hb]; rfl
  have k : (kind = crossQuad) = False := by simpa [crossQuad] using hk
  simp only [crossIsolated, ht, crossEnabled, hb, treeMoves, treeDriven, treeSource, treeEnabled, columnFrame, h0, h1, h2, h3, h4, k,
    show fieldN (smapGet 0 pins0 31) 11 8 = 2 by decide +kernel, show bit (BitVec.allOnes 32) 31 = true by decide +kernel,
    show bit (smapGet 0 enables0 ((12 * 96 + 0) * 64 + 31 % 16)) 0 = true by decide +kernel]
  simp [bit]
def region (x : RegionPort) (g : Press → Press := id) : Device := modPort 12 (fun _ => x) (fab g)
theorem region_speaks (x : RegionPort) : regionSilent (region x) 12 = false := by
  have h1 : bit (region x).cf.held 12 = false := by rw [show (region x).cf.held = 0#24 from rfl]; rfl
  have h2 : bit (region x).cf.regions 12 = true := by rw [show (region x).cf.regions = 0xFFFFFF#24 from rfl]; rfl
  have h3 : domainOn (region x) 188 = true := by
    have : domainOn (region x) 188 = domainOn (region {}) 188 := rfl
    rw [this]; decide +kernel
  simp only [regionSilent, h1, h2, h3]; rfl
theorem region_open (x : RegionPort) : regionShut (region x) 12 = false := by
  have h : crossIsolated (region x) 12 0 = false := notIsolated _ 0 (by decide) rfl rfl rfl rfl rfl
  simp only [regionShut, crossPort, h, region_speaks]; rfl
def push0 : PortPush := { origin := .user 3, chan := 0, stream := 0xFFF, addr := 0x40, data := List.replicate 192 9 }
def read0 : PortRead := { origin := .user 3, chan := 0, stream := 0xFFF, addr := 0x40, units := 2 }
theorem witness_CrossingsPassBeats_push : regionShut (region { pushes := [push0] }) 12 = false ∧
    (regionPort (region { pushes := [push0] }) 12).pushes = [push0] ∧ behindRead (regionPort (region { pushes := [push0] }) 12) push0 = false ∧ (decide (push0.data.length ≤ 128 * (push0.beats + 1))) = false ∧
    decide (push0.data.length ≤ 128 * (({ push0 with beats := 1 } : PortPush).beats + 1)) = true := ⟨region_open _, by decide +kernel⟩
theorem witness_CrossingsPassBeats_request : regionShut (region { reads := [read0] }) 12 = false ∧
    findIdx? (fun u => !u.accepted) (regionPort (region { reads := [read0] }) 12).reads = some 0 ∧
    (regionPort (region { reads := [read0] }) 12).reads[0]? = some read0 ∧
    ((regionPort (region { reads := [read0] }) 12).reads.filter (·.accepted)).length < 8 := ⟨region_open _, by decide +kernel⟩
def read1 (n : Nat) : PortRead := { read0 with accepted := true, units := n }
theorem witness_CrossingsPassBeats_read : regionShut (region { reads := [read1 4] }) 12 = false ∧
    (regionPort (region { reads := [read1 4] }) 12).surplus = false ∧ ({ surplus := true } : RegionPort).surplus = true ∧
    findIdx? (fun u => u.accepted) (regionPort (region { reads := [read1 4] }) 12).reads = some 0 ∧
    (regionPort (region { reads := [read1 4] }) 12).reads[0]? = some (read1 4) ∧ (leBytes 128 5).length < 128 * ((4 + 1) / 2) ∧
    128 * ((2 + 1) / 2) ≤ (leBytes 128 5).length := ⟨region_open _, by decide +kernel⟩
/-- A FEED on bank A.0, waiting for its first beat, and one whose first lead beat has come. -/
def feed0 : PassOp := { (oPass .ready 0) with feed := true, fmtsA := [] }
def feed1 : PassOp := { feed0 with phase := .feeding, feedFmt := some .binary16, runLeads := some (List.replicate 256 0x80#8) }
def feeding (o : PassOp) : Device := fab fun x => { x with plA := { passes := [o], bank0 := { state := .ready } } }
theorem feed_open (o : PassOp) : feedOpen (feeding o) 16 = true := by
  have h : crossIsolated (feeding o) 12 1 = false := notIsolated _ 1 (by decide) rfl rfl rfl rfl rfl
  have h3 : domainOn (feeding o) 188 = true := by
    have : domainOn (feeding o) 188 = domainOn (feeding feed0) 188 := rfl
    rw [this]; decide +kernel
  have h4 : (feeding o).fount.feedMap = (fab id).fount.feedMap := rfl
  have h1 : bit (feeding o).cf.held 12 = false := by rw [show (feeding o).cf.held = 0#24 from rfl]; rfl
  have h2 : bit (feeding o).cf.regions 12 = true := by rw [show (feeding o).cf.regions = 0xFFFFFF#24 from rfl]; rfl
  have h5 : vgetN 0 (fab id).fount.feedMap 16 = 0x80000000#32 := by decide +kernel
  have h6 : feedRegion (feeding o) 16 = 12 := by simp only [feedRegion, h4, h5]; decide
  simp only [feedOpen, regionSilent, h4, h5, h6, h1, h2, h3, crossFeed]
  simp only [show fieldN 0x80000000#32 4 4 = 0 by decide, h]; decide
theorem witness_CrossingsPassBeats_feed : feedOpen (feeding feed0) 16 = true ∧ feedOpen (feeding feed1) 16 = true ∧
    (feedHolder (feeding feed0) 16).isNone = true ∧ feedClaim (feeding feed0) 16 = some (64, .A, feed0) ∧
    feedHolder (feeding feed1) 16 = some (64, .A, feed1) ∧ fenced (feeding feed0) 64 = false ∧
    fenced (modPress 64 (fun x => { x with recovery := { x.recovery with state := .fenced } }) (feeding feed0)) 64 = true ∧
    feed1.feedFmt = some .binary16 ∧ feed1.runLeads = some (List.replicate 256 0x80#8) ∧ feed1.phase = .feeding ∧
    feed0.runLeads = none := ⟨feed_open _, feed_open _, by decide +kernel⟩
theorem witness_CrossingsPassBeats_map : fieldN (0x8000001B &&& 0x8000001F#32) 3 0 < 12 ∧ bit (0x8000001B &&& 0x8000001F#32) 31 = true ∧
    ((List.range 32).all fun j => j = 1 || j / 16 ≠ 0 || !bit (feedMapOf (fab id) j) 31 || fieldN (feedMapOf (fab id) j) 4 0 ≠ 27) = true := by
  decide +kernel
theorem test_tree_window : (after (.treeWindow 31 131 []) (fab id)).fount.isoOver = 0x80000000 ∧
    (after (.treeWindow 31 130 []) (after (.treeWindow 31 131 []) (fab id))).fount.isoTail = 0x80000000 := by decide +kernel
/-- R405: tree 3 takes output 1 of PLL 2, which drives it only while it is locked. -/
theorem test_tree_follows_lock :
    let d := modCf (fun c => { c with wregs := [(3, 0x109)] }) (fab id)
    treeDriven d 3 = false ∧ (after (.treeWindow 3 100 []) d).fount.treeRun = 0xFFFFFFF7 ∧
      treeDriven (after (.fountPllLock 2 true) d) 3 = true := by decide +kernel
/-- R417: an empty elastic buffer repeats its last word, a full one drops the word that comes; both are slips. -/
theorem test_elastic : elasticTake { words := [], last := some 7 } = ({ words := [], last := some 7 }, some 7, 1) ∧
    elasticTake { words := [8, 9], last := some 7 } = ({ words := [9], last := some 8 }, some 8, 0) ∧
    elasticTake {} = ({}, none, 0) ∧ (elasticPut { words := List.replicate 16 1 } 2).2 = 1 := by decide +kernel
theorem test_pll_lock : (after (.fountPllLock 2 true) r0).fount.pllLock = 4 := by decide +kernel
theorem test_ft_clear : (after .ftClearCounts (modFount (fun f => { f with slips := Vector.replicate 24 7 }) r0)).fount.slips
    = Vector.replicate 24 0 := by decide +kernel
theorem test_feed_map : (after (.feedMapWrite 1 0x8000001B) (fab id)).fount.feedMap[1] = 0x8000001B ∧
    (after (.feedMapWrite 17 0x80000000) (fab id)).fount.feedMap[17] = 0 := by decide +kernel
/-- R473: the write behind two reads waits until the second is presented. -/
theorem test_behind_read : behindRead { reads := [{ read0 with origin := .user 1 }, { read0 with origin := .user 2 }] } push0 = true ∧
    behindRead { reads := [{ read0 with origin := .user 1, accepted := true }, { read0 with origin := .user 2 }] } push0 = false := by
  decide
theorem test_iw_beat : (doIwBeat 12 (region { pushes := [push0] })).out.drop r0.out.length =
    [.iwBeat 12 0 0xFFF 0x40 (List.replicate 128 9) 0 3 false] := by
  have hb : behindRead (regionPort (region { pushes := [push0] }) 12) push0 = false := by decide +kernel
  have hp : (regionPort (region { pushes := [push0] }) 12).pushes = [push0] := by decide +kernel
  simp only [doIwBeat, hp, region_open, hb]; decide +kernel
/-- R409: bit 0 of word 0 alone makes its parity bit 1; three bits of word 15 make that one 1. -/
theorem test_beat_parity : beatParity (1 ||| 7#1024 <<< 960) = 0x8001 ∧ beatParity (3#1024) = 0 := by decide +kernel
theorem test_rq_accept : (regionPort (doRqAccept 12 (region { reads := [read0] })) 12).reads.map (·.accepted) = [true] := by
  simp only [doRqAccept, region_open]; decide +kernel
theorem test_rd_beat : (regionPort (doRdBeat 12 ⟨5, 0, 3, false⟩ (region { reads := [read1 4] })) 12).reads.map (·.data.length) = [128] := by
  simp only [doRdBeat, region_open]; decide +kernel
/-- R410: the last beat of the chunk had no rd_last, so that the beats up to one with it are not another request's. -/
theorem test_rd_surplus : (regionPort (doRdBeat 12 ⟨5, 0, 3, false⟩ (region { reads := [read1 2] })) 12).surplus = true ∧
    (regionPort (doRdBeat 12 ⟨5, 0, 3, true⟩ (region { reads := [read1 2], surplus := true })) 12).reads = [read1 2] := by
  constructor <;> simp only [doRdBeat, region_open] <;> decide +kernel
/-- R414: the first lead beat gives the format; code 1 is binary16. -/
theorem test_feed_beat : (getPlaten (press (doFeedBeat 16 (place 4096 2051 2048 1) (feeding feed0)) 64) .A).passes.map
    (fun o => (o.feedFmt, o.runLeads.isSome)) = [(some .binary16, true)] := by
  simp only [doFeedBeat, feed_open]; decide +kernel

/-- The installer's key of these tests, made for them, and its signature over `header0`: an RSA key of 4,096 bits and a
signature by RFC 8017, computed outside Lean. -/
def modulus0 : BitVec 4096 :=
  0xAA9452B53080F536B950325D2B2C17D961CB0FE4DE7E3D11CED2075EBA8DAA80E7E9D708C767AA140D2AE9270B38AB286E5B427A80683A885579B83227C7824C#512 ++
  0xC0E6169CE0E670DF95515C8C16DEB40E04928F64305F9C6A1F57073E740044198F3F506B63ED23E329B58C521F3256543CE75E0A698B9E4C4A13F75AD5067AA0#512 ++
  0xB1E44AED4674A3ABD7EAF58FA403EB7638AE68F61856D1700D893FA9E8A563F6F58621F0D7B29F98640A857ADFED2947703864A6A3018B811BD67D8B85DF3E00#512 ++
  0x44931FC7772114CA968CD189D2569E082A3C69202809F0842C7928ABAD6B6FE5172CBA00B3E315D75D4CCE48B2D94FEDF9088D890F4858921CD7E16FC0BE4195#512 ++
  0xCE7ED9E1DBFFD1FD6F8DE4106CD54B483197A5989EC91BB4B39CA7E574E5AC9BD127217140D4D6C75F2618EB7B61E9DA884640E66E5DD891B0E1AEEE3E0384DB#512 ++
  0x62B20391A66B0CB03CA3D307A12249B9E5999F6E97A73579A805C6F571A113DFD423C57187A54D1CA34FFC5E71C7508A59DF46F65838BF7D294CA13F6116AEF3#512 ++
  0x0560A6D25B77B61B759D32E3E9951C3350C7B56806D488A33316C8CB8A74B6E6320B3EF3A7A6B66A8D0758536F01EE18AAAC2D590F15B8EFEAF954F4524C561E#512 ++
  0x6EC54B876CED92B5C414CE58C6828F6D44CD44E0D44603206624C0C7817F2DEBA2CF3EACB80353EB461B863F2FFCBEE8D05AA3EF3C8EF6059C06AC5B81C218AD#512
def sign0 : BitVec 4096 :=
  0x3B54770C54E1CFAE566C2DFD2A5C43A5B45F11EDA395AADD5FED8E11EC43969E0BF6025814059F2669FD0647B27ACC03E257B9E71A18EA91EC8762107A862286#512 ++
  0x70AFAC7CEAB2DA48BDB0DFAD93D161644DF992E940FF05015987753CF9D81F76C7A71AC031FA7343378F86159C46829A7A1729BF332E0255BDBE13B548E98592#512 ++
  0xC964C811505A11FE6439E84D66D3636A5E6C79376A13CC39279E0E1351E50E8E7DD3BCAB57895EE4804D9B088500DD2EF736509300F166FD2AE06E3787F95A38#512 ++
  0x948582B3820A76C1A2375D756028249155561395CD92E86321ABA87A583F163E452614FF1F4640CDFDAC6F282A5B849FDF67B34F0C064F45D35452983E78CA29#512 ++
  0xE0773BA994937B2BEF97C8BC880DB626F1652A90570DB3DC7CC826143CB201E3537CF72C6C9BA994BFF6D98D443A427F4039B066281418683913DAC385FFA77A#512 ++
  0xA8301DB5C8E7EE6CA2292C05DDCDCF69E65E87BE490DF8C99E4CE0F24D6F8EA9C3AA6B3B74577464F6DE8B6ACEFA6BC3FADE048E28EBC12018C7F1AF186F43A6#512 ++
  0x412853AF15E483B57E2D3D3CF4F94A2C8AD0C6BAF5E40706F2AAFB19110FE317412C18ABD69074A9AE1644675E691EAD0BC2D7E8C631566B35CAD325BC045D37#512 ++
  0x8BD6D709FCC1CB1519B585F7ED6D30D0CB3382FEEBDD7320B2429C8E5F7FED2D203DC0C36C5741FFB3BD08B90C0833D20FB9E5AA61BAD9F7B67993DA23E30156#512
/-- The header of a full load with key slot 0, gap 3 and peer timeout 5 (R427). -/
def header0 : List Byte := leBytes 4 0x53424758 ++ leBytes 2 1 ++ leBytes 2 0x94 ++ leBytes 2 0x9480 ++ [1, 0] ++ leBytes 4 0xFFFFFF
  ++ [0, 0] ++ leBytes 2 3 ++ leBytes 4 5 ++ [0, 1, 2, 3, 4, 5, 6, 7] ++ bytesOf 480 0
def signed0 : List Byte := header0 ++ beBytes 512 sign0.toNat
/-- An installer, a key in slot 0, and a load in a given state. -/
def conf (st : CfState) (l : Load) : Device :=
  modCf (fun c => { c with load := some l, state := st }) (modTrust (fun t =>
    { t with store := { t.store with installer := some (modulus0, 65537), keys := vmodN t.store.keys 0 (fun _ => some 0), keyEnable := 1 } }) ready)
def run0 : Load := { accepted := true, full := true, bound := 0xFFFFFF, nonce := bytesOf 8 0, digest := bytesOf 64 0, key := bytesOf 32 0 }
def running (l : List Word) (u : Nat := 1) : Device := conf .loadFull { run0 with buf := l, units := u }
def wordsOf : Nat → List Byte → List Word
  | 0, _ => []
  | n + 1, l => BitVec.ofNat 32 (leNat (l.take 4)) :: wordsOf n (l.drop 4)
/-- END with tally 0 and the tag of a segment without data, and TAG with its tag. -/
def endLoad0 : Load := { run0 with aad := wordsBytes [0x06000000, 0, 0], units := 1 }
def endWords : List Word := [0x06000000, 0, 0] ++ wordsOf 4 (segTag endLoad0)
def tagWords : List Word := [0x05000000] ++ wordsOf 4 (segTag { run0 with aad := wordsBytes [0x05000000], units := 1 })
theorem witness_LoadsOpenAndEnd_open :
    lockable ready .foreman 0 = true ∧ ready.trust.running.isSome = true ∧ portBusy ready.cf = false ∧ portBusy (running []).cf = true ∧
      ready.cf.regions = 0 ∧ ready.cf.load = none ∧ ready.cf.doneDriven = true := by decide +kernel
theorem witness_LoadsOpenAndEnd_stream :
    (({} : Load).header.length + 4 < 1024) ∧ (bytesOf 1020 0).length < 1024 ∧ 1024 ≤ (bytesOf 1020 0).length + 4 ∧
      1024 ≤ signed0.length ∧ ({} : Load).buf.length < 16384 ∧ (conf .verifying { header := signed0 }).cf.state = .verifying ∧
      (conf .clearing {}).cf.state = .clearing := by decide +kernel
theorem test_header_fault_none : headerFault (conf .verifying { header := signed0 }) signed0 = none := by decide +kernel
theorem witness_LoadsOpenAndEnd_header : (conf .verifying { header := signed0 }).cf.state = .verifying ∧
    headerFault (modCf (fun c => { c with state := .verifying, load := some { header := signed0 } }) ready) signed0 = some 0x0304 ∧
    headerFault (conf .verifying { header := signed0 }) (signed0.set 11 2) = some 0x0303 := by decide +kernel
/-- A full load whose END has verified, with PLL 0 locked. -/
def complete0 : Device := modFount (fun f => { f with pllLock := 1 }) (conf .loadFull { run0 with ended := true })
def old0 (d : Device) : Device := modTime (fun t => { t with count := 4096 + 2684355 }) d
theorem witness_LoadsOpenAndEnd_link : linkBusy (blocked ready) = true ∧ linkBusy ready = false ∧ noImage (conf .opened {}) = false ∧
    (conf .clearing {}).cf.clearFailed = false ∧ (modCf (fun c => { c with clearFailed := true }) (conf .clearing {})).cf.clearFailed = true ∧
    16384 ≤ (List.replicate 16384 (0 : Word)).length := by
  refine ⟨by decide +kernel, by decide +kernel, by decide +kernel, by decide +kernel, by decide +kernel, Nat.le_of_eq List.length_replicate.symm⟩
theorem witness_LoadsOpenAndEnd_end :
    (loadRuns (running endWords)).isSome = true ∧ run0.run = none ∧ endWords[0]? = some 0x06000000 ∧ 7 ≤ endWords.length ∧
      (let l := takeClear 3 { run0 with buf := endWords, units := 1 }
       segTag l = wordsBytes ((endWords.drop 3).take 4) ∧ l.tally.toNat = leNat (wordsBytes ((endWords.drop 1).take 2)) ∧
         (List.range 8).all (pllOutputsOk (mergedWregs (running endWords).cf.wregs l.wregs)) = true ∧
         segTag l ≠ wordsBytes ((((endWords.take 6) ++ [0]).drop 3).take 4)) := by decide +kernel
theorem witness_LoadsOpenAndEnd_complete : complete0.cf.state = .loadFull ∧
    ((drivingPlls complete0.cf).all fun k => bit complete0.fount.pllLock k) = true ∧
    (4096 + 2684355 ≤ (old0 (conf .opened { lastWord := 4096 })).now) := by decide +kernel
theorem test_cf_begin : (after (.cfBegin .foreman) ready).cf.state = .opened ∧
    (after (.cfBegin .foreman) (running [])).cf.state = .loadFull := by decide +kernel
theorem test_cf_abort : (after .cfAbort (conf .opened {})).cf.load.isNone = true ∧
    (after .cfAbort (conf .opened {})).cf.errorReg = 0x8000030F := by decide +kernel
theorem test_done_release : (after .cfDoneRelease ready).cf.doneDriven = false := by decide +kernel
theorem test_stream_word : ((after (.streamWord 0x04030201 true) (conf .opened {})).cf.load.map (·.header)) = some [1, 2, 3, 4] ∧
    (after (.streamWord 0 false) (conf .opened {})).cf.errorReg = 0x80000308 := by decide +kernel
/-- R428, R429, R439: the signed header is accepted, and everything is cleared. -/
theorem test_header_accepted :
    let d := acceptHeader { header := signed0 } (conf .verifying { header := signed0 })
    d.cf.state = .clearing ∧ d.cf.gap = 3 ∧ d.cf.peerTimeout = 5 ∧ d.cf.loadReg = 0x00FFFFFF := by decide +kernel
theorem test_clearing_done : (after .clearingDone (conf .clearing {})).cf.state = .loadFull := by decide +kernel
theorem test_truncated : (after .loadTruncated (old0 (conf .opened { lastWord := 4096 }))).cf.errorReg = 0x80000302 ∧
    (after .loadTruncated (old0 (conf .opened { lastWord := 4097 }))).cf.errorReg = 0 := by decide +kernel
theorem test_end : ((after .endCmd (running endWords)).cf.load.map (·.ended)) = some true := by decide +kernel
theorem test_full_complete : (after .fullLoadComplete complete0).cf.state = .waitPeers := by decide +kernel

/-- 128 words that decrypt to zeros, in a FRAMES run; RAMINIT of region 0, column 6. -/
def zeroFrame : List Word := wordsOf 128 (gcmCrypt run0.key (run0.nonce ++ leBytes 4 0) 0 (bytesOf 512 0))
def inRun : Load := { run0 with buf := zeroFrame, run := some (0, 2) }
theorem xor_twice : ∀ s : List Byte, xorBytes (xorBytes (bytesOf s.length 0) s) s = bytesOf s.length 0
  | [] => rfl
  | b :: r => by
    have h := xor_twice r
    simp only [xorBytes, bytesOf, List.length_cons, List.replicate_succ, List.zip_cons_cons, List.map_cons] at h ⊢
    rw [h]; simp
theorem words_back : ∀ (n : Nat) (l : List Byte), l.length = 4 * n → wordsBytes (wordsOf n l) = l
  | 0, [], _ => rfl
  | n + 1, a :: b :: c :: d :: r, h => by
    have h' := words_back n r (by simp only [List.length_cons] at h; omega)
    have e : leBytes 4 (BitVec.ofNat 32 (leNat [a, b, c, d])).toNat = [a, b, c, d] := by
      have ha := a.isLt; have hb := b.isLt; have hc := c.isLt; have hd := d.isLt
      simp only [leNat, leBytes, BitVec.toNat_ofNat, List.cons.injEq, and_true]
      refine ⟨?_, ?_, ?_, ?_⟩ <;> apply BitVec.eq_of_toNat_eq <;> simp only [BitVec.toNat_ofNat] <;> omega
    simp only [wordsOf, wordsBytes, List.take, List.drop, List.map_cons, List.flatten_cons] at h' ⊢
    rw [e, h']; rfl
theorem words_length : ∀ (n : Nat) (l : List Byte), (wordsOf n l).length = n
  | 0, _ => rfl
  | n + 1, l => by simp [wordsOf, words_length n]
theorem crypt_back (n : Nat) (s : List Byte) (e : s.length = 4 * n) :
    xorBytes (wordsBytes ((wordsOf n (xorBytes (bytesOf (4 * n) 0) s)).take n)) s = bytesOf (4 * n) 0 := by
  have hl : (xorBytes (bytesOf (4 * n) 0) s).length = 4 * n := by simp [xorBytes, bytesOf, e]
  rw [List.take_of_length_le (Nat.le_of_eq (words_length _ _)), words_back n _ hl, ← e, xor_twice]
theorem takeCipher_bytes (n : Nat) (l : Load) (h : l.cipher = []) : (takeCipher n l).2 = xorBytes (wordsBytes (l.buf.take n))
    (gcmStream (aesExpand l.key) (l.nonce ++ leBytes 4 l.seg) 0 (blocks16 (wordsBytes (l.buf.take n)))) := by
  simp only [takeCipher, gcmCrypt, h]; rfl
theorem zeroFrame_decrypts : (takeCipher 128 inRun).2 = bytesOf (4 * 128) 0 := by
  have hs : (gcmStream (aesExpand run0.key) (run0.nonce ++ leBytes 4 0) 0 32).length = 4 * 128 := by decide +kernel
  have hb : blocks16 (wordsBytes (inRun.buf.take 128)) = 32 := by decide +kernel
  have hz : inRun.buf = wordsOf 128 (xorBytes (bytesOf (4 * 128) 0) (gcmStream (aesExpand run0.key) (run0.nonce ++ leBytes 4 0) 0 32)) := by
    have : blocks16 (bytesOf 512 0) = 32 := by decide +kernel
    show wordsOf 128 (xorBytes (bytesOf 512 0) (gcmStream (aesExpand run0.key) (run0.nonce ++ leBytes 4 0) 0 (blocks16 (bytesOf 512 0)))) = _
    rw [this]
  rw [takeCipher_bytes 128 inRun rfl, hb, hz]
  exact crypt_back 128 _ hs
theorem witness_StreamAndRelease_commands :
    fieldN 0x01000000#32 31 24 = 1 ∧ wregOk 0 0x100 = true ∧ fieldN 0x03000000#32 31 24 = 3 ∧
      fieldN 0x04000600#32 31 24 = 4 ∧ fieldN 0x04000600#32 19 15 = 0 ∧ fieldN 0x04000600#32 14 8 = 6 ∧ colKind 0 6 = .ram ∧
      run0.bound.getLsbD 0 = true ∧ 0 + 9 ≤ 1024 ∧ 1153 ≤ (0x04000600#32 :: List.replicate 1152 0#32).length ∧
      (loadRuns (running tagWords)).isSome = true ∧ tagWords[0]? = some 0x05000000 ∧ 5 ≤ tagWords.length := by decide +kernel
theorem witness_StreamAndRelease_frames :
    loadRuns (conf .loadFull inRun) = some inRun ∧ inRun.run = some (0, 2) ∧ 128 ≤ inRun.buf.length ∧
    frameFault inRun (linearFar 0) (BitVec.ofNat 4096 (leNat (takeCipher 128 inRun).2)) = none ∧
    frameFault { inRun with bound := 2 } (linearFar 0) 0 = some 0x0307 := by
  refine ⟨rfl, rfl, by decide +kernel, ?_, by decide +kernel⟩
  rw [zeroFrame_decrypts, show BitVec.ofNat 4096 (leNat (bytesOf (4 * 128) 0)) = 0 by decide +kernel]
  have h1 : inRun.bound.getLsbD (farRegion (linearFar 0)) = true := by decide +kernel
  simp [frameFault, h1]
/-- A FRAMES header with and without a frame behind it, and ones whose count or address is wrong. -/
theorem witness_StreamAndRelease_header :
    (loadRuns (running (0x02000000 :: 1 :: zeroFrame))).isSome = true ∧ fieldN 0x02000000#32 31 24 = 2 ∧ zeroFrame.length = 128 ∧
      fieldN 0x02000000#32 23 20 = 0 ∧ (1#32).toNat ≠ 0 ∧ (1#32).toNat ≤ 1024 ∧ farOk (fieldN 0x02000000#32 19 0) = true ∧
      farLinear 0 + 1 ≤ frameCount ∧ 1 + 1 ≤ 1024 ∧ (0#32).toNat = 0 ∧ 1024 < (1025#32).toNat ∧
      farOk (fieldN 0x02000040#32 19 0) = farOk 0x40 := by decide +kernel
def peers (g : Conf → Conf) : Device := modTime (fun t => { t with count := 40960 }) (modCf (fun c => g { c with state := .waitPeers }) (conf .loadFull run0))
theorem witness_StreamAndRelease_release :
    (peers id).cf.state = .waitPeers ∧ (peers id).point = 0 ∧ (peers id).cf.lineSheet = none ∧
      (peers fun c => { c with lineSheet := some 3 }).cf.lineSheet = some 3 ∧ 3 < (peers id).sheet ∧
      (peers fun c => { c with peerTimeout := 4 }).cf.peerTimeout ≠ 0 ∧ 0 + 4 ≤ (peers id).sheet ∧
      (peers fun c => { c with commitPending := true, doneSheet := 9 }).cf.doneSheet < (peers id).sheet ∧
      (peers fun c => { c with discardNext := 3, discardSheet := 9 }).cf.discardSheet < (peers id).sheet ∧
      (peers fun c => { c with discardNext := 3 }).cf.discardNext ≠ 0 ∧ (peers fun c => { c with holdNext := 3 }).cf.holdNext ≠ 0 ∧
      (peers fun c => { c with holdSheet := 9 }).cf.holdSheet < (peers id).sheet ∧
      (peers fun c => { c with release := some (0, 7, 4) }).cf.release = some (0, 7, 4) ∧
      (modTime (fun t => { t with count := 40961 }) (peers id)).point ≠ 0 ∧ (peers id).cf.release = none := by decide +kernel
theorem test_cf_nop : ((after .cfNop (running [0x01000000, 5])).cf.load.map (·.buf)) = some [5] ∧
    (after .cfNop (running [0x01000001])).cf.errorReg = 0x80000308 := by decide +kernel
theorem test_frames : ((doFrames (running ([0x02000000, 1] ++ zeroFrame.take 5))).cf.load.map fun l => (l.run, l.buf.length)) =
    some (some (0, 1), 5) := by decide +kernel
theorem test_wreg : ((after .wreg (running [0x03000002, 0x105])).cf.load.map (·.wregs)) = some [(2, 0x105)] := by decide +kernel
theorem test_raminit : (after .raminit (running [0x04000600] 0)).cf.errorReg = 0 ∧
    (after .raminit (running [0x04000700] 0)).cf.errorReg = 0x80000308 := by decide +kernel
theorem test_tag : ((after .tag (running tagWords)).cf.load.map fun l => (l.seg, l.buf)) = some (1, []) := by decide +kernel
theorem test_global_release :
    (after (.globalRelease true) (peers id)).cf.lineSheet = some 10 ∧
    (after (.globalRelease true) (peers fun c => { c with lineSheet := some 9 })).cf.regions = 0xFFFFFF := by decide +kernel
theorem test_peers_absent : (after .peersAbsent (peers fun c => { c with peerTimeout := 10 })).cf.lineSheet = some 10 ∧
    (after .peersAbsent (peers fun c => { c with peerTimeout := 11 })).cf.lineSheet = none := by decide +kernel
theorem test_partial_commit : (after .partialCommit (peers fun c =>
    { c with load := some { run0 with full := false, bound := 1, shadow := [(5, 7)] }, commitPending := true, doneSheet := 9 })).cf.frames =
      [(5, 7)] := by decide +kernel
theorem test_discard_release : (after .shadowDiscardRelease (peers fun c => { c with held := 3, discardNext := 3, discardSheet := 9 })).cf.held = 0 := by
  decide +kernel
theorem test_regions_held : (after .partialRegionsHeld (peers fun c => { c with held := 0, holdNext := 3, holdSheet := 9 })).cf.held = 3 ∧
    (after .partialRegionsHeld (peers fun c => { c with held := 0, holdNext := 3, holdSheet := 10 })).cf.held = 0 := by decide +kernel
theorem test_release_stage :
    (after .releaseStage (peers fun c => { c with release := some (0, 7, 0) })).cf.release = some (1, 7, 8) ∧
    (after .releaseStage (peers fun c => { c with load := none, regions := 7, release := some (2, 7, 8) })).cf.state = .configured := by decide +kernel

/-- A capture of regions 0 and 1 by tree 3. -/
def cap (g : Conf → Conf) : Device :=
  modCf (fun c => g { c with load := none, regions := 0xFFFFFF, capRegions := 3, capAtLo := 4000, wregs := [(0, 0x200), (3, 0x200)] })
    (modFount (fun f => { f with treeRun := 0xFFFFFFFF }) (peers id))
theorem witness_CaptureAndReadback :
    captureFault (cap fun c => { c with capTree := 3 }).cf 3 3 = none ∧ captureFault (cap id).cf 17 3 = some 0x0308 ∧
      (cap fun c => { c with capState := .armed, capTrigger := 4000 }).cf.capTrigger ≤ (cap id).now ∧ treeMoves (cap id) (cap id).cf.capArmTree.toNat = true ∧
      (cap id).now < 40961 ∧ 4000 + 2684355 ≤ (old0 (cap id)).now ∧ (cap fun c => { c with capState := .copying }).cf.capState = .copying ∧
      (cap fun c => { c with capState := .held }).cf.capState = .held ∧ (cap id).point = 0 ∧
      (cap fun c => { c with stop := true, stopSheet := 9 }).cf.stopSheet < (cap id).sheet ∧
      (cap fun c => { c with stopped := true, stop := false }).cf.stopped = true ∧ (cap id).cf.frameCheck = true := by decide +kernel
theorem test_capture_start : (after (.captureStart 3) (cap id)).cf.capState = .armed ∧ (after (.captureStart 3) (cap id)).cf.capTrigger = 4000 ∧
    (after (.captureStart 17) (cap id)).cf.capState = .idle := by decide +kernel
theorem test_capture_edge : (after .captureEdge (cap fun c => { c with capState := .armed, capTrigger := 40960 })).cf.capState = .copying ∧
    (after .captureEdge (cap fun c => { c with capState := .armed, capTrigger := 40961 })).cf.capState = .armed := by decide +kernel
theorem test_capture_copied : (after .captureCopyDone (cap fun c => { c with capState := .copying })).cf.capState = .held := by decide +kernel
theorem test_capture_timeout : (after .captureTimeout (old0 (cap fun c => { c with capState := .armed, capTrigger := 4096 }))).cf.capState = .timedOut := by
  decide +kernel
theorem test_capture_release : (after .captureRelease (cap fun c => { c with capState := .held, capHeld := 3 })).cf.capHeld = 0 := by decide +kernel
theorem test_capture_cancel : (after .captureCancel (cap fun c => { c with capState := .copying })).cf.capState = .idle ∧
    (after .captureCancel (cap fun c => { c with capState := .held })).cf.capState = .held := by decide +kernel
theorem test_clock_stop : (after (.clockStopWrite true) (cap id)).cf.stop = true ∧ (after (.clockStopWrite true) (cap id)).cf.stopSheet = 10 := by
  decide +kernel
theorem test_stopped : (after .fountStopped (cap fun c => { c with stop := true, stopSheet := 9, held := 0 })).cf.held = 0xFFFFFF ∧
    (after .fountResumed (cap fun c => { c with stopped := true, stopSheet := 9 })).cf.stopped = false := by decide +kernel
/-- R434, R456: a frame of one set bit, with the CRC-64 of its bytes 01 then zeros. -/
theorem test_read_sel :
    let d := after (.readSelWrite 5) (cap fun c => { c with frames := [(5, 1)] })
    d.cf.readOk = true ∧ d.cf.readData = 1 ∧ (after (.readSelWrite 0x40) (cap id)).cf.readOk = false := by decide +kernel
theorem test_frame_check :
    let d := after .frameCheck (cap fun c => { c with badChecks := [(2, 1)], sweep := 2 })
    d.cf.upset = true ∧ d.cf.upsetFrame = 2 ∧ d.cf.sweep = 3 := by decide +kernel
theorem test_error_clear : (after .cfErrorClear (cap fun c => { c with errorReg := 0x80000308 })).cf.errorReg = 0 := by decide +kernel

/-! ## The host interface and resets (O48 to O52) -/

/-- The newest output that is a completion. -/
def lastOut (d : Device) : Option Output := d.out.getLast?
def hbmAt (a : Nat) (l : List Byte) (d : Device) : Device := modStack 0 (fun s => { s with mem := (memWrite s.mem a l).1 }) d
def user (l : List UserReq) : Device :=
  modCf (fun c => { c with regions := 0xFFFFFF }) (modHost (fun h => { h with user := l, userNext := 4 }) ready)
def u3 : UserReq := ⟨3, 0, 0x40, 64, false, [], 4096⟩
theorem witness_WindowsAndPulls_window :
    ready.host.linkUp = true ∧ bit ready.host.flr 1 = false ∧ windowState ready 0 64 = .ready ∧ hbmRetired ready 0 64 = false ∧
      hbmRetired retire0 0 64 = true ∧ windowState linked 0 64 = .filling ∧
      windowState (modHost (fun h => { h with window := 511 }) ready) (512 * 2 ^ 30) 64 = .beyond ∧
      (readHbm 0 64 5 none ready).2.2 = none ∧
      ((readHbm 0 64 5 none (modStack 0 (fun s => { s with mem := { syn := [(0, 3)] } }) ready)).2.2).isSome = true := by decide +kernel
theorem witness_WindowsAndPulls_user :
    bit (user []).host.flr 2 = false ∧ userOk (user []) (userRegion 0x40) = true ∧ userOk (user []) (userRegion 0xC000000) = false ∧
      (64 : BitVec 10).toNat ≤ 512 ∧ userOffset 0x40 % 64 = 0 ∧ (List.replicate 64 (1 : Byte)).length % 64 = 0 ∧
      (user [u3]).host.user[0]? = some u3 ∧ (user [u3]).now < 4096 + 4096 ∧ 4096 + 4096 ≤ (modTime (fun t => { t with count := 8192 }) (user [u3])).now := by
  decide +kernel
/-- A chunk of a pull from host memory that the host has not answered. -/
def hostPull : ChaseMsg := { type := 2, dst := 0x80, src := 0xE0, tag := 9, len := 64, addr := 0x40, stream := 1, slot := 5, rcv := 0x80 }
def pulls : Device := modChase (fun c => { c with hostPulls := [hostPull] })
  (modPress 0 (fun x => { x with transfers := [{ move with src := 0xE0, push := false, asked := 64, chunks := [chunk] }] }) (moving []))
theorem witness_WindowsAndPulls_pull : pulls.chase.hostPulls[0]? = some hostPull ∧ (List.replicate 64 (4 : Byte)).length = hostPull.len ∧
    (findTx (modChase (fun c => { c with hostPulls := [] }) pulls) hostPull.init hostPull.tag).isSome = true := by decide +kernel
/-- A poisoned completion, whose bytes are free, of a read of `n` bytes through PF1. -/
def isPoisoned (n : Nat) : Option Output → Bool
  | some (.completion .pf1 (.poisoned v)) => v.length = n
  | _ => false
/-- The same requests behind a posted write that waits, and where an open window of the chase claims stack 0's next service. -/
theorem witness_WindowsAndPulls_busy : linkBusy (blocked ready) = true ∧ asleep (blocked ready) = false ∧ linkBusy ready = false := by
  decide +kernel
theorem witness_WindowsAndPulls_claimed :
    let d := modMk (fun m => { m with table := [(0, entry 1 2 5 4000 1 0 1 3 ||| 2)] })
      (modChase (fun x => { x with rx := [{ dst := 0xA0, src := 0, tag := 9, len := 64, addr := 0x40, pool := none, stream := 1, slot := 5, init := 0 }] })
        (moving [chunk]))
    let d := modPress 0 (fun x => { x with transfers := [{ move with dst := 0xA8, window := 3, asked := 64, chunks := [chunk] }] }) d
    windowState d 0 64 = .waits := by decide +kernel
theorem test_window_read :
    lastOut (after (.hbmWindowRead 32 3) (hbmAt 32 (List.replicate 32 6) ready)) = some (.completion .pf1 (.data [6, 6, 6])) ∧
    isPoisoned 4 (lastOut (after (.hbmWindowRead 0 4) retire0)) = true := by decide +kernel
theorem test_window_write : memBytes (stack (after (.hbmWindowWrite 64 (List.replicate 32 8) false) ready) 0).mem 64 2 = [8, 8] ∧
    (after (.hbmWindowWrite 64 [1] true) ready).host.poisonIn = 1 := by decide +kernel
theorem test_user_write : (regionPort (after (.userWindowWrite 0x40 (List.replicate 64 1) false) (user [])) 0).pushes.map (fun u => (u.addr, u.data.length))
    = [(0x40, 64)] := by decide +kernel
theorem test_user_read : (regionPort (after (.userWindowRead 0x44 64) (user [])) 0).reads.map (fun u => (u.addr, u.units)) = [(0x40, 2)] ∧
    lastOut (after (.userWindowRead 0xC000000 4) (user [])) = some (.completion .pf2 .abort) := by decide +kernel
theorem test_user_timeout : lastOut (after (.userWindowTimeout 0) (modTime (fun t => { t with count := 8192 }) (user [u3]))) = some (.completion .pf2 .abort) ∧
    (after (.userWindowTimeout 0) (modTime (fun t => { t with count := 8191 }) (user [u3]))).host.user = [u3] := by decide +kernel
theorem test_host_completion : ((after (.hostReadCompletion 0 (.data (List.replicate 64 4))) pulls).chase.flight.map fun m => (m.type, m.dst, m.data.length)) =
      [(3, 0x80, 64), (4, 0x80, 0)] ∧
    ((ticketOf (after (.hostReadCompletion 0 .failed) pulls) 5).bind (·.abort)).map (·.code) = some 0x0706 := by decide +kernel

def ringOn (x : Ring) : Device := modRing 2 (fun _ => x) ready
theorem witness_RingsQueuesAndLink :
    fnServes ready .pf1 = true ∧ (vgetN {} ready.host.rings 2).enable = false ∧ 2 ≤ fieldN 0x80031000#32 12 0 ∧ fieldN 0x80031000#32 12 0 ≤ 4096 ∧
      (vgetN {} (ringOn { enable := true, size := 16 }).host.rings 2).enable = true ∧ bit 0x10#32 31 = false ∧
      ringBusy (logRing 2 false (ringOn { enable := true })) 2 = false ∧
      ringBusy (logRing 2 false (modHost (fun h => { h with reading := some (2, 0, 0) }) (ringOn { enable := true }))) 2 = true ∧
      4 ≤ fieldN 0x80040000#32 20 16 ∧ fieldN 0x80040000#32 20 16 ≤ 16 ∧ (15 : BitVec 16).toNat < pqSlots (pqueue ready 3) ∧
      ready.now < 4097 ∧ (pqueue (modPq 3 (fun x => { x with holdUntil := some 4096 }) ready) 3).holdUntil = some 4096 := by decide +kernel
theorem test_ring_enable : (vgetN {} (after (.ringEnable 2 0x80031000) (ringOn { head := 5, tail := 6 })).host.rings 2) =
      { enable := true, pq := 3, size := 4096 } ∧
    (vgetN {} (after (.ringEnable 2 0x80030001) ready).host.rings 2).enable = false := by decide +kernel
theorem test_pq_enable : (pqueue (after (.pqEnable 3 0x85040007) ready) 3).vector = 5 ∧ (pqueue (after (.pqEnable 3 0x85040007) ready) 3).enable = true ∧
    (pqueue (after (.pqEnable 3 0x85030007) ready) 3).enable = false := by decide +kernel
theorem test_pq_head : (pqueue (after (.pqHeadWrite 3 15) ready) 3).head = 15 ∧ (pqueue (after (.pqHeadWrite 3 16) ready) 3).head = 0 := by
  decide +kernel
theorem test_holdoff_end : (pqueue (after (.holdoffEnd 3) (modPq 3 (fun x => { x with holdUntil := some 4096 }) ready)) 3).holdUntil = none ∧
    (pqueue (after (.holdoffEnd 3) (modPq 3 (fun x => { x with holdUntil := some 4097 }) ready)) 3).holdUntil = some 4097 := by decide +kernel
theorem test_link : (after .linkDown ready).host.linkUp = false ∧ (after (.hostLinkUp 6 8 true) locked).host.linkWidth = 8 := by decide +kernel

def held0 : Device := modTrust (fun t => { t with porLow := true }) r0
def booting0 : Device := modTrust (fun t => { t with booting := some { slot := 0, digest := none, version := 1, svn := 0 } }) linked
theorem witness_ResetsOfThePart : inReset ready = false ∧ inReset held0 = true ∧ held0.power.tripped = false ∧ asleep ready = false ∧
    booting0.trust.booting.isSome = true ∧ ready.cf.load = none := by decide +kernel
/-- A part whose power-on count has reached its store. -/
def counted : Device := modForron (fun f => { f with countPending := false }) ready
theorem test_device_reset_low : (after (.deviceReset .porLow) (modHost (fun h => { h with poisonIn := 4 }) counted)).host.poisonIn = 0 ∧
    (after (.deviceReset .porLow) counted).trust.porLow = true := by decide +kernel
theorem test_device_reset_release :
    let d := after (.deviceReset .release) held0
    d.trust.porLow = false ∧ lastOut d = some (.cfDone true) := by decide +kernel
/-- R336: the incarnation after start-up is the power-on count. -/
theorem test_incarnation : (after (.deviceReset .release) (modTrust (fun t => { t with store := { t.store with powerOns := 6 } }) held0)).forron.inc = 7 := by
  decide +kernel
theorem test_rail_fault : (after .railFault counted).trust.railsBad = true ∧ (stack (after .railFault counted) 0).state = .filling := by decide +kernel
theorem test_foreman_started : (after .foremanStarted booting0).chase.routed = true ∧ (after .foremanStarted booting0).mkr.table.length = 8 := by
  decide +kernel
theorem test_flr_pf0 : bit (after .flrPf0 ready).host.flr 0 = true ∧ (after .flrPf0 ready).errata.paused = true := by decide +kernel
/-- What FLR of PF1 does to a forme, to the host interface and to Makeready. -/
theorem test_flr_pf1 : (forme (flrForme (bench id) 0) 0).task = none ∧ (flrHost { rings := Vector.replicate 64 { size := 9 } }).rings[7].size = 0 ∧
    (flrHost {}).flr = 2 ∧ (flrMakeready (bench id).mkr).tickets = [] := by
  decide +kernel
theorem test_flr_pf2 : (after .flrPf2 (user [u3])).host.user.isEmpty = true ∧ (after .flrPf2 (user [u3])).cf.release = some (0, 0xFFFFFF, 0) := by
  decide +kernel
theorem test_flr_complete : (after (.flrComplete .pf2) (modHost (fun h => { h with flr := 7 }) ready)).host.flr = 3 := by decide +kernel
theorem test_d3hot : (doD3hot 7 (modPower (fun w => { w with change := some ⟨.stand, .host, false, 2⟩ }) ready)).host.d3hot = 7 ∧
    (after (.d3hotEntry 2) ready).host.d3hot = 2 ∧ (after (.functionD0 .pf1) (modHost (fun h => { h with d3hot := 7 }) ready)).host.d3hot = 5 := by
  decide +kernel

/-- The task in slot 5 aborts since point 4096, with a deadline of 100 points. -/
def abort0 : AbortSt := ⟨0x0602, 0, { phase := 2 }, none, 4096, 0, 100, [0], true⟩
def aborting (g : Press → Press) (n : Nat) : Device :=
  modTime (fun t => { t with count := n }) (modMk (fun m => { m with tickets := m.tickets.map fun t => { t with abort := some abort0 } }) (bench g))
def spilling (n : Nat) : Device :=
  modErrata (fun e => { e with unspilled := n, next := 3, ring := [(2, { code := 7 })] }) (modPq 0 (fun x => { x with enable := true }) ready)
theorem witness_ErrataAndAborts :
    (spilling 1).errata.spill = true ∧ (spilling 1).errata.paused = false ∧ (pqueue (spilling 1) 0).enable = true ∧
      (pqueue (spilling 1) 0).holding.length < 256 ∧ (spilling 1).errata.unspilled ≠ 0 ∧ (spilling 0).errata.unspilled = 0 ∧
      (ticketById (aborting id 4200) 7).isSome = true ∧ ((ticketById (aborting id 4200) 7).bind (·.abort)) = some abort0 ∧
      ((pressTask (aborting id 4200) 0).bind (ticketOf (aborting id 4200))).isSome = true ∧
      pressQuiet (aborting (fun x => { x with transfers := [move] }) 4200) 0 = false ∧ fenced (aborting id 4200) 0 = false ∧
      4096 + 2 + 100 ≤ (aborting id 4200).now ∧ (aborting id 4197).now < 4096 + 2 + 100 := by decide +kernel
/-- Where the task of press 0 aborts, the abort is complete once its press is quiet, and never before its step 3. -/
theorem witness_ErrataAndAborts_ended :
    abort0.cancelled = true ∧ (taskPresses (aborting id 4200) 5).all (abortDoneAt (aborting id 4200)) = true ∧
      ({ abort0 with cancelled := false } : AbortSt).cancelled = false ∧
      (let d := aborting (fun x => { x with transfers := [move] }) 4200
       (taskPresses d 5).all (abortDoneAt d)) = false := by decide +kernel
/-- The states of a recovery that the end of an abort asks for. -/
theorem witness_ErrataAndAborts_states :
    let r (st : RecState) : Device := modPress 0 (fun x => { x with recovery := { x.recovery with state := st, lastCause := 3 } }) (aborting id 4200)
    abortDoneAt (r .resetting) 0 = true ∧ abortDoneAt (r .draining) 0 = false ∧ abortDoneAt (r .inService) 0 = true := by decide +kernel
theorem witness_ErrataAndAborts_reads :
    fnServes ready .pf0 = true ∧ linkBusy (blocked ready) = true ∧ r0.host.linkUp = false ∧
      bit (modHost (fun h => { h with flr := 1 }) ready).host.flr 0 = true := by decide +kernel
theorem test_errata_spill : (after .errataSpill (spilling 1)).errata.unspilled = 0 ∧ (pqueue (after .errataSpill (spilling 1)) 0).tail = 1 ∧
    (pqueue (after .errataSpill (spilling 0)) 0).tail = 0 := by decide +kernel
theorem test_er_read : lastOut (after (.erRead 0xF) (modErrata (fun e => { e with readIndex := 2 }) (spilling 1))) =
    some (.completion .pf0 (.data ((recBytes { code := 7 } false).take 4))) := by decide +kernel
theorem test_er_clear_lost : (after .erClearLost (modErrata (fun e => { e with lost := 4, overflow := true }) ready)).errata.lost = 0 := by decide +kernel
theorem test_first_error_clear : (press (after (.firstErrorClear (.press 3)) (modPress 3 (fun x => { x with cap := { valid := true } }) ready)) 3).cap = {} := by
  decide +kernel
theorem test_first_error_fenced :
    let d := modPress 3 (fun x => { x with cap := { valid := true }, recovery := { state := .offline } }) ready
    fenced d 3 = true ∧ (press (after (.firstErrorClear (.press 3)) d) 3).cap.valid = true := by decide +kernel
/-- Two faults of one point: the lower unit address governs, and the other entry becomes secondary (R505). -/
theorem test_fault_order :
    let d := faultTask 5 0x0603 (unitPress 0) { phase := 2 } none (aborting id 4096)
    let e := faultTask 5 0x0603 (unitPress 0) { phase := 2 } none
      (modMk (fun m => { m with tickets := m.tickets.map fun t => { t with abort := some { abort0 with unit := unitPress 1, at0 := [unitPress 1] } } }) (aborting id 4096))
    ((ticketOf d 5).bind (·.abort)).map (·.code) = some 0x0602 ∧ ((ticketOf e 5).bind (·.abort)).map (·.code) = some 0x0603 := by
  decide +kernel
theorem test_abort_complete : (after (.abortComplete 7) (aborting id 4200)).mkr.tickets.isEmpty = true := by decide +kernel
theorem test_abort_deadline :
    (press (after (.abortDeadline 0) (aborting (fun x => { x with transfers := [move] }) 4198)) 0).recovery.lastCause = 3 ∧
    (press (after (.abortDeadline 0) (aborting (fun x => { x with transfers := [move] }) 4197)) 0).recovery.lastCause = 0 := by decide +kernel

/-- Press 0 in a step of its recovery, begun at point 4096, the drain bound 100. -/
def recovering (st : RecState) (n : Nat) (g : Press → Press := id) : Device :=
  modTime (fun t => { t with count := n }) (modMk (fun m => { m with tickets := [] })
    (bench fun x => { (g x) with recovery := { state := st, closedAt := 4096, stepAt := 4096, drainPt := 100 } }))
theorem witness_PressRecovers :
    fenced (bench id) 0 = false ∧ recNow 4100 (press (recovering .fenced 4100) 0).recovery = .draining ∧
      pressQuiet (recovering .fenced 4100) 0 = true ∧ (runningTask (recovering .fenced 4100) 0).isNone = true ∧
      4096 + 2 + 100 ≤ (recovering .fenced 4198).now ∧ recNow 4198 (press (recovering .fenced 4198) 0).recovery = .draining ∧
      (recovering .fenced 4197).now < 4096 + 2 + 100 ∧
      (press (recovering .resetting 4100) 0).recovery.state = .resetting ∧
      (press (recovering .powerCycling 4100) 0).recovery.state = .powerCycling := by decide +kernel
theorem test_reset_requested : (press (after (.psResetRequested .foreman 0) (bench id)) 0).recovery.state = .fenced ∧
    (press (after (.psResetRequested .foreman 0) (bench id)) 0).preempt = .requested := by decide +kernel
theorem test_ps_internal : ((ticketOf (after (.psInternal 0 none) (bench id)) 5).bind (·.abort)).map (·.code) = some 0x0A02 ∧
    (press (after (.psInternal 0 none) (bench id)) 0).recovery.lastCause = 2 := by decide +kernel
theorem test_press_quiet : (press (after (.pressQuiet 0) (recovering .fenced 4100)) 0).recovery.state = .resetting := by decide +kernel
theorem test_drain_bound : (press (after (.drainBoundExpired 0) (recovering .fenced 4198)) 0).recovery.state = .resetting ∧
    (press (after (.drainBoundExpired 0) (recovering .fenced 4197)) 0).recovery.state = .fenced := by decide +kernel
theorem test_reset_done : (press (after (.pressResetDone 0) (recovering .resetting 4100)) 0).recovery.state = .inService ∧
    (press (after (.pressResetDone 0) (recovering .resetting 4100)) 0).recovery.resets = 1 := by decide +kernel
theorem test_reset_bound : (press (after (.resetBoundExpired 0) (recovering .resetting 6144)) 0).recovery.state = .powerCycling ∧
    (press (after (.resetBoundExpired 0) (recovering .resetting 6143)) 0).recovery.state = .resetting := by decide +kernel
theorem test_cycle_bound : (press (after (.powerCycleBoundExpired 0) (recovering .powerCycling 12288)) 0).recovery.state = .offline ∧
    (press (after (.powerCycleBoundExpired 0) (recovering .powerCycling 12287)) 0).recovery.state = .powerCycling := by decide +kernel

/-! ## Power and trust (O53 to O57) -/

def pw (g : Power → Power) : Device := modPower g ready
def pwChange (t : PwState) (k : Nat) : Device := pw fun w => { w with change := some ⟨t, .host, false, k⟩ }
/-- All domains of the 204 in one state. -/
def allDomains (s : DState) (d : Device) : Device := modPower (fun w => { w with domains := Vector.replicate 204 { dstate := s } }) d
theorem witness_PowerStates_request :
    pwState (3 : BitVec 3).toNat = some .stand ∧ stateRight ready .foreman .stand = true ∧
      pwState (4 : BitVec 3).toNat = some .deep ∧ stateRight ready .foreman .deep = false ∧ ready.power.change = none ∧
      ready.power.state ≠ .stand ∧ (bench id).mkr.tickets ≠ [] ∧ ready.mkr.tickets = [] ∧ awakeState .run = true := by decide +kernel
theorem witness_PowerStates_change :
    (pw fun w => { w with heldReq := some (.run, .host) }).power.heldReq = some (.run, .host) ∧
      (pwChange .stand 2).power.change = some ⟨.stand, .host, false, 2⟩ ∧ asleep (pwChange .stand 2) = false ∧
      (stepDomains 2).all (entryDone .stand (entryStep .stand 2 (allDomains .on (pwChange .stand 2)))) = false ∧
      (stepDomains 2).all (entryDone .stand (entryStep .stand 2 (allDomains .off (pwChange .stand 2)))) = true ∧
      (stepDomains 4).all (entryDone .stand (entryStep .stand 4 (allDomains .off (pwChange .stand 4)))) = true := by decide +kernel
theorem witness_PowerStates_wake :
    0 * 2 ^ 32 + ready.power.wakeAtLo.toNat < ready.now ∧ ready.now ≤ 1 * 2 ^ 32 + ready.power.wakeAtLo.toNat ∧
      inReset ready = false ∧ ready.power.tripped = false ∧ (pw fun w => { w with state := .deep }).power.state = .deep ∧
      (pw fun w => { w with state := .stand }).power.state = .stand ∧
      (pw fun w => { w with state := .stand, latched := some (1, none) }).power.latched = some (1, none) := by decide +kernel
theorem test_state_request : (after (.powerStateRequest .foreman 3) (bench id)).power.change = none ∧
    (after (.powerStateRequest .foreman 4) ready).power.change = none ∧
    (after (.powerStateRequest .foreman 1) (pwChange .stand 2)).power.heldReq = some (.trim, .host) := by decide +kernel
theorem test_change_start : (after .stateChangeStart (pw fun w => { w with heldReq := some (.idle, .host) })).power.heldReq = none := by decide +kernel
theorem test_entry_step : (doEntryStepDone (allDomains .off (pwChange .stand 4))).power.state = .stand := by decide +kernel
/-- R37 and R532: a scheduled wake within the horizon is placed at once, one beyond it waits. -/
theorem test_wake_at : (after (.wakeAtArm 0) (pw fun w => { w with wakeAtLo := 0x7005000 })).mkr.table.map
      (fun ie => (eSheet ie.2, ePoint ie.2, eAction ie.2, eIndex ie.2)) = [(0x7005, 0, 6, 201)] ∧
    (after (.wakeAtArm 1) ready).mkr.table = [] ∧ (after (.wakeAtArm 1) ready).power.wakeWait = some 0x100000000 := by
  decide +kernel
theorem test_sideband_read : lastOut (after .sidebandRead ready) = some (.sideband (some [2, 0, 6, 0])) ∧
    lastOut (after .sidebandRead (pw fun w => { w with state := .stand })) = some (.sideband none) := by decide +kernel
theorem test_latched : (after .latchedWake (pwChange .stand 2)).power.change.isSome = true ∧
    (after .sidebandAddressMatch (pwChange .stand 2)).power.latched = some (1, none) := by decide +kernel

def waking2 (n t : Nat) : Device := modTime (fun x => { x with count := t }) (modDomain n (fun x => { x with dstate := .waking, ramp := some 4096 }) ready)
theorem witness_DomainsSwitch :
    awakeState ready.power.state = true ∧ awakeState (pw fun w => { w with state := .stand }).power.state = false ∧
      ready.now % 16 = 0 ∧ ready.power.lastTick ≠ some ready.now ∧ (modTime (fun t => { t with count := 4097 }) ready).now % 16 ≠ 0 ∧
      (domain (waking2 5 4100) 5).dstate = .waking ∧ (domain (waking2 5 4100) 5).ramp = some 4096 ∧ domKind 152 = .quad 0 ∧
      domKind 176 = .region 0 ∧ (waking2 5 4607).now < 4096 + 2 * domRamp 5 ∧ 4096 + 2 * domRamp 5 ≤ (waking2 5 4608).now ∧
      (domain (modDomain 5 (fun x => { x with dstate := .goingOff }) ready) 5).dstate = .goingOff := by decide +kernel
theorem test_gates : (after (.pwGateQuadWrite .foreman 4) ready).power.gateQuad = 4 ∧
    (after (.pwGateRegionWrite .foreman 4) (pw fun w => { w with state := .stand })).power.gateRegion = 0 := by decide +kernel
/-- R538: a tick adds tokens up to the cap, and grants what they cover. -/
theorem test_governor : (after .governorTick (pw fun w => { w with tokens := 3, rate := 2, queue := [(5, 1), (144, 6)] })).power.tokens = 4 ∧
    (after .governorTick (pw fun w => { w with tokens := 3, rate := 2, queue := [(5, 1), (144, 6)] })).power.queue = [(144, 6)] := by
  decide +kernel
theorem test_power_good : (domain (after (.domainPowerGood 201) (waking2 201 4200)) 201).dstate = .on ∧
    (domain (after (.domainPowerGood 5) (waking2 5 4200)) 5).ramp = none := by decide +kernel
theorem test_domain_fault : (domain (after (.domainFault 150) (waking2 150 5120)) 150).failed = true ∧
    (domain (after (.domainFault 150) (waking2 150 5119)) 150).failed = false := by decide +kernel
theorem test_domain_off : (domain (after (.domainOff 5) (modDomain 5 (fun x => { x with dstate := .goingOff }) ready)) 5).dstate = .off := by
  decide +kernel
theorem test_pad_release : (after (.padHoldRelease 5) (pw fun w => { w with padHeld := 7 })).power.padHeld = 2 := by decide +kernel

theorem witness_BudgetsAndStretch :
    (pw fun w => { w with droop := true }).power.droopEnd = none ∧ ready.now < 4090 + 64 ∧ 4032 + 64 ≤ ready.now ∧ ready.now % 64 = 0 ∧
      ready.power.lastWindow ≠ some ready.now ∧ (pw fun w => { w with droop := true, droopEnd := some 4032 }).power.droopEnd = some 4032 := by
  decide +kernel
theorem test_throttle : ((after (.pwThrottleApply .foreman 0x80640003) ready).mkr.throttles.map fun r => (r.budget, r.sheet)) = [(100, 4)] := by
  decide +kernel
theorem test_throttle_n : ((after (.pwThrottleN true) ready).mkr.throttles.map fun r => (r.budget, r.sheet)) = [(200, 3)] := by decide +kernel
theorem test_temperature : (after (.temperatureCrossing 110) ready).power.tempLevel = true ∧
    (after (.temperatureCrossing 105) (pw fun w => { w with tempLevel := true })).power.tempLevel = true ∧
    (after (.temperatureCrossing 104) (pw fun w => { w with tempLevel := true })).power.tempLevel = false := by decide +kernel
theorem test_droop : (after (.droopTrip true) ready).power.episode = some (4096, 1, 1) ∧
    (after (.droopTrip false) (pw fun w => { w with droop := true })).power.droopEnd = some 4096 := by decide +kernel
theorem test_hold_expired : (after .stretchHoldExpired (pw fun w => { w with droop := true, droopEnd := some 4032 })).power.droop = false ∧
    (after .stretchHoldExpired (pw fun w => { w with droop := true, droopEnd := some 4033 })).power.droop = true := by decide +kernel
theorem test_power_window : (after (.powerWindow 1601) ready).power.overRun = 1 ∧ (after (.powerWindow 1600) ready).power.underRun = 1 ∧
    (after (.powerWindow 1601) (pw fun w => { w with overRun := 3 })).power.powerOver = true := by decide +kernel
theorem test_alert : (after (.pwAlertN true) ready).power.episode = some (4096, 2, 4) := by decide +kernel
theorem test_thermal_trip : (after .thermalTrip ready).power.tripped = true ∧ lastOut (after .thermalTrip ready) = some .thermTrip := by decide +kernel

def tr (g : Trust → Trust) : Device := modTrust g ready
/-- An installer's session is open, the identity key derived, and `l` is in TR_MBOX. -/
def session (l : List Byte) : Device := counted |> modTrust fun t =>
  { t with session := true, sheets := 9, granted := 9, identity := true, mbox := mboxPut l [],
           store := { t.store with installer := some (modulus0, 65537) } }
def logAsk : List Byte := bytesOf 64 0 ++ leBytes 8 1 ++ leBytes 2 2
def running0 : FwImage := { slot := 0, digest := none, version := 1, svn := 0 }
theorem witness_MailboxCommands :
    (tr fun t => { t with cmd := some ⟨1, 0, [], false⟩ }).trust.cmd.isSome = true ∧ ready.trust.cmd = none ∧
      ready.trust.running.isSome = true ∧ (session []).trust.identity = true ∧
      rangeHeld (session logAsk).trust (leNat (mboxRead (session logAsk) 64 8)) (leNat (mboxRead (session logAsk) 72 2)) = true ∧
      storeBusy (session []) = false ∧ storeBusy counted = false ∧ counted.trust.cmd = none ∧ counted.trust.store.installer = none ∧ (session []).trust.session = true ∧
      mboxRead (session [0x12, 0, 0, 0, 0x40]) 1 3 = [0, 0, 0] ∧ leNat (mboxRead (session [0x12, 0, 0, 0, 0x40]) 0 1) = 18 ∧
      storeItem 18 (mboxRead (session [0x12, 0, 0, 0, 0x40]) 4 1) = some (.sideband 0x40) ∧
      ready.trust.session = false := by decide +kernel
theorem test_get_cert : ((after (.getCert 1) ready).trust.cmd.map (·.code)) = some 0x0906 ∧ ((after (.getCert 0) ready).trust.cmd.map (·.op)) = some 1 := by
  decide +kernel
theorem test_get_wrap_key : ((after (.getWrapKey 0) ready).trust.cmd.map (·.code)) = some 0x0905 ∧
    ((after (.getWrapKey 0) (session [])).trust.cmd.map (·.code)) = some 0 := by decide +kernel
theorem test_quote : ((after (.quote 64) (session [])).trust.cmd.map (·.op)) = some 3 ∧ ((after (.quote 63) (session [])).trust.cmd.map (·.code)) = some 0x0906 := by
  decide +kernel
theorem test_log_read : ((after (.logRead 74) (session logAsk)).trust.cmd.map (·.code)) = some 0 ∧
    ((after (.logRead 74) (session (bytesOf 64 0 ++ leBytes 8 9 ++ leBytes 2 2))).trust.cmd.map (·.code)) = some 0x090C := by decide +kernel
theorem test_claim : (after (.claim 515) ready).trust.job = none ∧ ((after (.claim 516) (session [])).trust.cmd.map (·.code)) = some 0x0907 := by
  decide +kernel
theorem test_open : ((after (.openSession 1024) ready).trust.cmd.map (·.code)) = some 0x0901 ∧
    ((after (.openSession 1024) (session [])).trust.cmd.map (·.code)) = some 0x0902 := by decide +kernel
theorem test_close : (after (.closeSession 0) (session [])).trust.session = false ∧ ((after (.closeSession 0) ready).trust.cmd.map (·.code)) = some 0x0901 := by
  decide +kernel
theorem test_transfer : ((after (.transferOwner 516) ready).trust.cmd.map (·.code)) = some 0x0901 := by decide +kernel
/-- R571: the power-on count's own write keeps the store busy. -/
theorem test_store_busy : storeBusy ready = true ∧ ((after (.claim 516) ready).trust.cmd.map (·.code)) = some 0x0905 := by decide +kernel
theorem test_release : (after (.releaseOwner 0) (session [])).trust.session = false ∧ (after (.releaseOwner 0) (session [])).trust.job = some .release := by
  decide +kernel
theorem test_store_write : (after (.storeWrite 5) (session [0x12, 0, 0, 0, 0x40])).trust.job = some (.sideband 0x40) ∧
    ((after (.storeWrite 5) (session [0x12, 0, 0, 0, 0x78])).trust.cmd.map (·.code)) = some 0x0906 := by decide +kernel

def fwAsk : List Byte := leBytes 4 64 ++ leBytes 4 2 ++ [7, 8]
def slotB (v : BitVec 32) : Device := modTrust (fun t => { t with slots := vmodN t.slots 1 fun _ => .factory 2 v }) (session [])
theorem witness_FirmwareAndStore :
    (session fwAsk).trust.cmd = none ∧ leNat (mboxRead (session fwAsk) 0 4) = 64 ∧ leNat (mboxRead (session fwAsk) 4 4) = 2 ∧
      (checkSlot (slotB 0) (1 - activeSlot (slotB 0))).toOption = some { slot := 1, digest := none, version := 2, svn := 0 } ∧
      (session []).trust.running = some running0 ∧ storeBusy (session []) = false ∧ ready.trust.sheets = 0 ∧ (session []).trust.sheets ≠ 0 ∧
      ready.forron.countPending = true ∧ counted.forron.countPending = false ∧
      (after (.releaseOwner 0) (session [])).trust.job = some .release ∧
      (tr fun t => { t with cmd := some ⟨1, 0, [], true⟩ }).trust.cmd = some ⟨1, 0, [], true⟩ := by decide +kernel
theorem test_fw_load : (after (.fwLoad 10) (session fwAsk)).trust.loading = true ∧
    (match vgetN FwSlot.erased (after (.fwLoad 10) (session fwAsk)).trust.slots 1 with | .written m => m | _ => []) = [(64, 7), (65, 8)] := by
  decide +kernel
theorem test_fw_activate : (after (.fwActivate 0) (slotB 0)).trust.activeB = true ∧ ((after (.fwActivate 0) (session [])).trust.cmd.map (·.code)) = some 0x0903 := by
  decide +kernel
theorem test_rollback : (after (.rollbackAdvance 0) (modTrust (fun t => { t with running := some { running0 with svn := 5 } }) (session []))).trust.job
    = some (.rollback 5) := by decide +kernel
theorem test_session_expired : (after .sessionExpired (session [])).trust.session = true ∧
    (after .sessionExpired (modTrust (fun t => { t with sheets := 0 }) (session []))).trust.session = false := by decide +kernel
theorem test_store_done : (doStoreDone true ready).trust.store.powerOns = ready.trust.store.powerOns + 1 ∧
    (after (.storeWriteDone true) (modTrust (fun t => { t with job := some (.policy 3) }) counted)).trust.store.policy = 3 := by decide +kernel
theorem test_identity : (after .identityDerived ready).trust.identity = true ∧ (after .identityDerived linked).trust.identity = false := by decide +kernel
theorem test_log_durable : (after .logEntryDurable ready).trust.log.map (·.durable) = [true, false] := by decide +kernel
theorem test_mailbox_done :
    let d := after .mailboxCommandDone (tr fun t => { t with cmd := some ⟨1, 5, [7, 8], false⟩ })
    d.trust.result = 5 ∧ d.trust.outLen = 2 ∧ d.trust.mbox = [(0, 7), (1, 8)] ∧ d.trust.cmd = none := by decide +kernel

/-! ## Images (O43) -/

/-- The task in slot 5, on forme 0 and press 0, has stopped for a pause. -/
def pausing : Device :=
  modMk (fun m => { m with tickets := m.tickets.map fun t => { t with pause := some ⟨0x100000, 4096⟩, formes := [(0, 0)] } })
    (withEntry 0 (entry 1 1 5 4000 0 0 1 0 ||| 2)
      (modForme 0 (fun x => { x with pmask := 1 }) (bench fun x => { x with preempt := .preempted })))
def paused5 : Ticket :=
  { ticket5 with started := true, running := 1, toStart := 0, pause := some ⟨0x100000, 4096⟩, formes := [(0, 0)] }
theorem pausing_clean : formeClean pausing 0 := by
  refine ⟨by unfold Mem.clean; decide +kernel, by unfold Mem.clean; decide +kernel, by unfold Mem.clean; decide +kernel,
    by unfold Mem.clean; decide +kernel, ?_⟩
  unfold Mem.clean; decide +kernel
theorem witness_ImagesSavedAndRestored_save :
    ∃ t r d1 d2 v, ticketById pausing 7 = some t ∧ t.pause = some r ∧ t.abort = none ∧ pauseReached pausing t.slot = true ∧
      busesIssue pausing = true ∧ flushTask t.slot pausing = (d1, false) ∧ savedFormes d1 t = [(0, 0)] ∧
      blockedImage d1 [(0, heldMask d1 5 0)] = none ∧ [(0, heldMask d1 5 0)].foldl saveForme (d1, [], none) = (d2, v, none) := by
  have hm : heldMask pausing 5 0 = 1 := by decide +kernel
  obtain ⟨w, hw⟩ := saveForme_clean pausing_clean 1 []
  have hf : savedFormes pausing paused5 = [(0, 0)] := by decide +kernel
  have hp : taskPresses pausing 5 = [0] := by decide +kernel
  have ht : taskFormes pausing 5 = [0] := by decide +kernel
  obtain ⟨h1, h2, h3, h4, h5⟩ := pausing_clean
  have hfl : flushTask 5 pausing = (pausing, false) := by
    simp only [flushTask, hp, ht, List.map_cons, List.map_nil, List.flatten_cons, List.flatten_nil, List.append_nil, List.cons_append,
      List.nil_append, List.foldl_cons, List.foldl_nil]
    simp only [flushMem_clean (h5 0 (by decide)), flushMem_clean h2, flushMem_clean h3, flushMem_clean h4, Bool.or_false]
  have hs : paused5.slot = 5 := rfl
  have ht' : ticketById pausing 7 = some paused5 := by decide +kernel
  have hr : pauseReached pausing 5 = true := by decide +kernel
  have hb : busesIssue pausing = true := by decide +kernel
  have hk : blockedImage pausing [(0, 1)] = none := by
    have : (blockedImage pausing [(0, 1)]).isNone = true := by decide +kernel
    exact Option.isNone_iff_eq_none.1 this
  have hfold : [(0, (1 : BitVec 8))].foldl saveForme (pausing, [], none) = saveForme (pausing, [], none) (0, 1) := by
    simp only [List.foldl_cons, List.foldl_nil]
  refine ⟨paused5, ⟨0x100000, 4096⟩, pausing, pausing, [] ++ w, ht', rfl, rfl, ?_⟩
  rw [hs, hf, hm, hfold]
  exact ⟨hr, hb, hfl, rfl, hk, hw⟩
/-- A blocked bank of the case or of a galley of the forme. -/
theorem witness_ImagesSavedAndRestored_blocked :
    blockedImage (modForme 0 (fun x => { x with block := 1 }) pausing) [(0, 1)] = some (.case 0, 0) ∧
    blockedImage (modPress 0 (fun x => { x with block := 1 }) pausing) [(0, 1)] = some (.galley 0, 0) := by decide +kernel

/-- The first 56 bytes of the image of a task of one forme, kind 1, and imprint `m`; all of its other bytes are zero. -/
def imageHead (m : BitVec 64) : List Byte := [1, 0, 1, 1, 0, 0, 0, 0] ++ leBytes 8 m.toNat ++ bytesOf 28 0 ++ [1, 0] ++ bytesOf 10 0
def imageMem (m : BitVec 64) : Mem := { bytes := rawPut [] 0 (imageHead m) }
/-- Forme 0 loads for a ticket that resumes from the image at 0. -/
def resuming (m : BitVec 64) : Device :=
  modStack 0 (fun s => { s with mem := imageMem m }) (modMk (fun k => { k with tickets := [{ ticket5 with resume := true, program := 0 }] })
    (modForme 0 (fun x => { x with state := .loading, pmask := 0, vforme := 0 }) (bench id)))
theorem resuming_mem (m : BitVec 64) (n : Nat) : memGet (resuming m) (.hbm n) = if n = 0 then imageMem m else {} := by
  have h0 : ∀ k, k < 8 → (stack (bench id) k).mem = {} := by decide +kernel
  have h1 : ∀ k, 8 ≤ k → stack (bench id) k = {} := by
    intro k hk; simp only [stack, vgetN]; rw [dif_neg (by omega)]
  show (vgetN {} (vmodN (bench id).hbmStacks 0 _) n).mem = _
  rw [vmodN, dif_pos (show 0 < 8 by decide), vgetN]
  split
  · next hn =>
    rw [Vector.getElem_set]
    split
    · next e => subst e; simp
    · next e =>
      have := h0 n hn
      rw [stack, vgetN, dif_pos hn] at this
      rw [this, if_neg (fun h => e h.symm)]
  · next hn => rw [if_neg (by omega)]
theorem resuming_clean (m : BitVec 64) (n : Nat) : (memGet (resuming m) (.hbm n)).clean := by
  rw [resuming_mem]; split <;> exact ⟨rfl, rfl⟩
theorem imageMem_zero (m : BitVec 64) {a : Nat} (h : 56 ≤ a) : memByte (imageMem m) a = 0 := by
  have hw : smapWf 0 ([] : List (Nat × Byte)) = true := rfl
  rw [memByte, show (imageMem m).bytes = rawPut [] 0 (imageHead m) by simp only [imageMem]]
  rw [rawPut_get 0 (imageHead m) a hw]
  have hl : (imageHead m).length = 56 := by simp [imageHead, bytesOf, leBytes]
  rw [if_neg (by rw [hl]; omega)]; rfl
/-- The device once the loader has read the image's first page, and all of it. -/
def read1st (m : BitVec 64) : Device := noteLoad 0 0 4096 (resuming m)
def readAll (m : BitVec 64) : Device := noteLoad 0 4096 (sectionSize * 1) (read1st m)
theorem read1st_same (m : BitVec 64) : sameMemories (resuming m) (read1st m) := noteLoad_same _ _ _ _
theorem readAll_same (m : BitVec 64) : sameMemories (resuming m) (readAll m) := sameMemories_trans (read1st_same m) (noteLoad_same _ _ _ _)
theorem read1st_mem (m : BitVec 64) (n : Nat) : memGet (read1st m) (.hbm n) = if n = 0 then imageMem m else {} := by
  rw [← resuming_mem m n]; exact (read1st_same m).2 n
theorem read1st_part (m : BitVec 64) : (read1st m).part = .xg9480 := by rw [(read1st_same m).1]; rfl
theorem read1st_retire (m : BitVec 64) : (read1st m).hbm.retire = [] := by rw [(read1st_same m).1]; rfl
theorem readAll_formes (m : BitVec 64) : (readAll m).formes = (resuming m).formes := by rw [(readAll_same m).1]
theorem readAll_presses (m : BitVec 64) : (readAll m).presses = (resuming m).presses := by rw [(readAll_same m).1]
/-- What follows the first page of the image is zero. -/
theorem resuming_body (m : BitVec 64) (n : Nat) : allZero (hbmBytesAt (read1st m) (granules n 4096 (sectionSize * 1))) := by
  intro b hb
  simp only [hbmBytesAt, List.mem_flatten, List.mem_map] at hb
  obtain ⟨l, ⟨ak, hak, rfl⟩, hb⟩ := hb
  have ha := granules_from hak
  simp only [memBytes, rangeFrom, List.mem_map] at hb
  obtain ⟨x, ⟨y, _, rfl⟩, rfl⟩ := hb
  rw [read1st_mem, read1st_part]
  split
  · next e =>
    apply imageMem_zero
    simp only [hbmMap, stackOfSlot, stackCount] at e ⊢
    omega
  · rfl
/-- The bytes of the image's first page, and of the rest. -/
def page (m : BitVec 64) : List Byte := memBytes (imageMem m) 0 4096
def rest (m : BitVec 64) : List Byte := hbmBytesAt (read1st m) (granules (sectionSize * 1 / 4096 + 2) 4096 (sectionSize * 1))
theorem resuming_reads (m : BitVec 64) : readLoad 0 0 4096 (resuming m) = (read1st m, some (page m)) ∧
    readLoad 0 4096 (sectionSize * 1) (read1st m) = (readAll m, some (rest m)) := by
  have hp : (resuming m).part = .xg9480 := rfl
  have hr : (resuming m).hbm.retire = [] := rfl
  have hc : ∀ n, (memGet (read1st m) (.hbm n)).clean := fun n => by rw [read1st_mem]; split <;> exact ⟨rfl, rfl⟩
  have h1 := readLoad_clean (resuming_clean m) 0 0 4096 (by rw [hp]; decide) (by rw [hbmRetired, hr]; rfl)
  have h2 := readLoad_clean hc 0 4096 (sectionSize * 1) (by rw [read1st_part]; decide) (by rw [hbmRetired, read1st_retire]; rfl)
  have hg : granules (4096 / 4096 + 2) 0 4096 = [(0, 4096)] := by decide +kernel
  rw [hg] at h1
  have hh : hbmBytesAt (resuming m) [(0, 4096)] = page m := by
    simp only [hbmBytesAt, List.map_cons, List.map_nil, List.flatten_cons, List.flatten_nil, List.append_nil]
    have h0 : hbmMap (resuming m).part 0 = (0, 0) := by rw [hp]; decide
    rw [h0, resuming_mem, if_pos rfl]; rfl
  rw [hh] at h1
  exact ⟨h1, h2⟩
theorem witness_ImagesSavedAndRestored_restore :
    let d := resuming imprint
    ∃ t d1 h d2 body, (forme d 0).task.bind (ticketOf d) = some t ∧ (forme d 0).state = .loading ∧
      t.resume = true ∧ t.abort = none ∧ busesIssue d = true ∧
      (maskPresses 0 (forme d 0).pmask.toNat).all (domainOn d) = true ∧
      t.program + 4096 ≤ hbmBytes d.part ∧ readLoad 0 t.program 4096 d = (d1, some h) ∧ leAt h 3 1 ≠ 0 ∧ leAt h 3 1 ≤ 16 ∧
      t.program + 4096 + sectionSize * leAt h 3 1 ≤ hbmBytes d1.part ∧
      readLoad 0 (t.program + 4096) (sectionSize * leAt h 3 1) d1 = (d2, some body) ∧
      imageFault t (forme d2 0).vforme h body = none ∧ blockedImage d2 [(0, (forme d2 0).pmask)] = none := by
  obtain ⟨h1, h2⟩ := resuming_reads imprint
  have e3 : leAt (page imprint) 3 1 = 1 := by decide +kernel
  have hb : blockedImage (readAll imprint) [(0, (forme (readAll imprint) 0).pmask)] = none := by
    have e : blockedImage (resuming imprint) [(0, (forme (resuming imprint) 0).pmask)] = none := by
      have : (blockedImage (resuming imprint) [(0, (forme (resuming imprint) 0).pmask)]).isNone = true := by decide +kernel
      exact Option.isNone_iff_eq_none.1 this
    rw [← e]; simp only [blockedImage, forme, press, readAll_formes, readAll_presses]
  refine ⟨{ ticket5 with resume := true, program := 0 }, _, _, _, _, by decide +kernel, by decide +kernel, rfl, rfl, by decide +kernel,
    by decide +kernel, by decide +kernel, h1, by rw [e3]; decide, by rw [e3]; decide, by rw [e3, read1st_part]; decide +kernel,
    by rw [e3]; exact h2, ?_, hb⟩
  have z : allZero (rest imprint) := resuming_body imprint (sectionSize * 1 / 4096 + 2)
  have zh : allZero ((page imprint).drop 64) := by
    intro b hb
    obtain ⟨i, hi, rfl⟩ := List.getElem_of_mem hb
    simp only [page, memBytes, rangeFrom, List.getElem_drop, List.getElem_map, List.getElem_range]
    exact imageMem_zero _ (by omega)
  have e0 : leAt (page imprint) 0 2 = 1 := by decide +kernel
  have e2 : leAt (page imprint) 2 1 = 1 := by decide +kernel
  have e8 : leAt (page imprint) 8 8 = imprint.toNat := by decide +kernel
  have e44 : leAt (page imprint) 44 2 = 1 := by decide +kernel
  have e48 : leAt (page imprint) 48 8 = 0 := by decide +kernel
  have et := tally_zero (allZero_append zh z)
  have ek : badKind (((rest imprint).drop (sectionSize * sectionsBefore 1 0)).take sectionSize) = false := by
    have zs := allZero_take (allZero_drop z (sectionSize * sectionsBefore 1 0)) sectionSize
    simp only [badKind, leAt_zero zs]; decide
  have ev : (forme (readAll imprint) 0).vforme = 0 := by
    rw [forme, readAll_formes]; show (forme (resuming imprint) 0).vforme = 0; decide +kernel
  simp only [imageFault, e0, e2, e8, e44, e48, et, ek, ev]
  decide
/-- The same, with another imprint: the image is refused. -/
theorem witness_ImagesSavedAndRestored_refused :
    leAt (page 0) 3 1 = 1 ∧ ∃ c, imageFault { ticket5 with resume := true, program := 0 } (forme (resuming 0) 0).vforme (page 0) (rest 0) = some c := by
  have e8 : leAt (page 0) 8 8 = 0 := by decide +kernel
  have hi : (0 : Nat) ≠ imprint.toNat := by decide
  refine ⟨by decide +kernel, ?_⟩
  simp only [imageFault]
  rw [if_pos (show leAt (page 0) 8 8 ≠ imprint.toNat by rw [e8]; exact hi)]
  split <;> exact ⟨_, rfl⟩

/-! ## A grant that opens a session (O56)

The serial number of the part has no known value, so the grant is built around it: under an installer key with exponent 1 the
signature is the encoded message of RFC 8017 itself. -/
theorem sha512_length (m : List Byte) : (sha512 m).length = 64 := by
  have h : ∀ (n : Nat) (h : List (BitVec 64)) (l : List Byte), h.length = 8 → (shaBlocks n h l).length = 8 := by
    intro n
    induction n with
    | zero => intro h l e; exact e
    | succ n ih => intro h l _; exact ih _ _ rfl
  simp only [sha512, List.length_flatten, List.map_map]
  have f : (List.length ∘ fun (w : BitVec 64) => beBytes 8 w.toNat) = fun _ => 8 := by
    funext w; simp [beBytes, leBytes]
  rw [f, List.map_const', h _ _ _ rfl]; rfl
theorem mgf1_length (s : List Byte) : (mgf1 s 447).length = 447 := by
  have : ∀ c ∈ List.range 7, (sha512 (s ++ beBytes 4 c)).length = 64 := fun c _ => sha512_length _
  simp only [mgf1, List.length_take, List.length_flatten, List.map_map]
  have f : (List.length ∘ fun c => sha512 (s ++ beBytes 4 c)) = fun _ => 64 := by funext c; exact sha512_length _
  rw [f, List.map_const', List.length_range]; rfl
theorem leBytes_leNat : ∀ l : List Byte, leBytes l.length (leNat l) = l
  | [] => rfl
  | b :: r => by
    have h := leBytes_leNat r
    simp only [List.length_cons, leNat, leBytes]
    have hb := b.isLt
    rw [show (b.toNat + 256 * leNat r) / 256 = leNat r by omega, h]
    congr 1
    apply BitVec.eq_of_toNat_eq; simp only [BitVec.toNat_ofNat]; omega
theorem leNat_lt : ∀ l : List Byte, leNat l < 256 ^ l.length
  | [] => by simp [leNat]
  | b :: r => by
    have h := leNat_lt r
    have hb := b.isLt
    simp only [List.length_cons, leNat, Nat.pow_succ]
    omega
theorem leBytes_length : ∀ (n v : Nat), (leBytes n v).length = n
  | 0, _ => rfl
  | n + 1, v => by simp [leBytes, leBytes_length n]
theorem leNat_leBytes : ∀ (n v : Nat), v < 256 ^ n → leNat (leBytes n v) = v
  | 0, v, h => by simp only [Nat.pow_zero] at h; simp only [leBytes, leNat]; omega
  | n + 1, v, h => by
    rw [Nat.pow_succ] at h
    have h' := leNat_leBytes n (v / 256) (by omega)
    simp only [leBytes, leNat, h', BitVec.toNat_ofNat]; omega
/-- RFC 8017's encoded message under a salt of zeros, for a modulus of 4096 bits. -/
def pssMask (m : List Byte) : List Byte := mgf1 (sha512 (bytesOf 8 0 ++ sha512 m ++ bytesOf 64 0)) 447
def pssDb : List Byte := bytesOf 381 0 ++ 1 :: bytesOf 64 0
theorem pssDb_length : pssDb.length = 446 := by
  unfold pssDb bytesOf; rw [List.length_append, List.length_cons, List.length_replicate, List.length_replicate]
def lowSeven : List Byte → List Byte
  | [] => []
  | b :: r => BitVec.ofNat 8 (b.toNat % 2 ^ 7) :: r
def pssEncode (m : List Byte) : List Byte :=
  lowSeven (xorBytes (0 :: pssDb) (pssMask m)) ++ (sha512 (bytesOf 8 0 ++ sha512 m ++ bytesOf 64 0) ++ [0xBC])
theorem xorBytes_length : ∀ a b : List Byte, a.length = b.length → (xorBytes a b).length = a.length := by
  intro a b h; simp [xorBytes, h]
theorem xorBytes_back : ∀ a b : List Byte, a.length = b.length → xorBytes (xorBytes a b) b = a
  | [], [], _ => rfl
  | x :: a, y :: b, h => by
    have := xorBytes_back a b (by simpa using h)
    simp only [xorBytes, List.zip_cons_cons, List.map_cons] at this ⊢
    rw [this, BitVec.xor_assoc, BitVec.xor_self, BitVec.xor_zero]
theorem lowSeven_back (y : Byte) (a b : List Byte) (h : a.length = b.length) :
    lowSeven (xorBytes (lowSeven (xorBytes (0 :: a) (y :: b))) (y :: b)) = 0 :: a := by
  have hb := xorBytes_back a b h
  simp only [xorBytes, lowSeven, List.zip_cons_cons, List.map_cons] at hb ⊢
  rw [hb]; congr 1
  revert y; decide +kernel
theorem lowSeven_length (l : List Byte) : (lowSeven l).length = l.length := by cases l <;> rfl
theorem pssEncode_length (m : List Byte) : (pssEncode m).length = 512 := by
  have hm : (pssMask m).length = 447 := mgf1_length _
  simp only [pssEncode, List.length_append, lowSeven_length, sha512_length, List.length_cons, List.length_nil]
  rw [xorBytes_length _ _ (by rw [List.length_cons, pssDb_length, hm])]; rw [List.length_cons, pssDb_length]
theorem leNat_snoc (b : Byte) : ∀ l : List Byte, leNat (l ++ [b]) = leNat l + 256 ^ l.length * b.toNat
  | [] => by simp [leNat]
  | a :: r => by simp only [List.cons_append, leNat, leNat_snoc b r, List.length_cons, Nat.pow_succ]; rw [Nat.mul_add, ← Nat.mul_assoc, Nat.mul_comm 256 (256 ^ r.length)]; omega
theorem pssEncode_bits (m : List Byte) : beNat (pssEncode m) < 2 ^ 4095 := by
  have hl := pssEncode_length m
  cases hx : pssEncode m with
  | nil => rw [hx] at hl; cases hl
  | cons b r =>
    have hr : r.length = 511 := by rw [hx] at hl; simpa using hl
    have hb : b.toNat < 128 := by
      have : ∃ c : Byte, b = BitVec.ofNat 8 (c.toNat % 2 ^ 7) := by
        cases hq : xorBytes (0 :: pssDb) (pssMask m) with
        | nil =>
          have := xorBytes_length (0 :: pssDb) (pssMask m) (by rw [List.length_cons, pssDb_length]; exact (mgf1_length _).symm)
          rw [hq] at this; simp [pssDb] at this
        | cons c t => rw [pssEncode, hq] at hx; exact ⟨c, (List.cons.inj hx).1.symm⟩
      obtain ⟨c, rfl⟩ := this
      simp only [BitVec.toNat_ofNat]; omega
    have hn := leNat_lt r.reverse
    have hp : (256 : Nat) ^ 511 = 2 ^ 4088 := by rw [show (256 : Nat) = 2 ^ 8 from rfl, ← Nat.pow_mul]
    rw [List.length_reverse, hr, hp] at hn
    simp only [beNat, List.reverse_cons, leNat_snoc, List.length_reverse, hr, hp]
    rw [show (2 : Nat) ^ 4095 = 128 * 2 ^ 4088 by rw [Nat.mul_comm, show (128 : Nat) = 2 ^ 7 from rfl, ← Nat.pow_add]]
    generalize (2 : Nat) ^ 4088 = p at *
    have := Nat.mul_le_mul_left p (show b.toNat + 1 ≤ 128 by omega)
    rw [Nat.mul_add, Nat.mul_comm p 128] at this
    omega
theorem powMod_zero (k : Nat) : ∀ f b, powMod f b 0 k = 1 % k
  | 0, _ => rfl
  | f + 1, b => powMod_zero k f (b * b % k)
theorem powMod_one (k f b : Nat) (h : 1 < k) : powMod (f + 1) b 1 k = b % k := by
  have := powMod_zero k f (b * b % k)
  simp only [powMod, this]; rw [if_pos (by decide), Nat.mod_eq_of_lt h, Nat.mul_one]
theorem pss_of (k : Nat) (hk : Nat.log2 k = 4095) (m : List Byte) (h1 : 2 ^ 4095 ≤ k) (h2 : 2 ≤ k) :
    pssVerify k 1 m (pssEncode m) = true := by
  have hl := pssEncode_length m
  have hb := Nat.lt_of_lt_of_le (pssEncode_bits m) h1
  have hv : powMod 32 (beNat (pssEncode m) % k) 1 k = beNat (pssEncode m) := by
    rw [powMod_one k 31 _ h2, Nat.mod_eq_of_lt hb, Nat.mod_eq_of_lt hb]
  have he : beBytes 512 (beNat (pssEncode m)) = pssEncode m := by
    have := leBytes_leNat (pssEncode m).reverse
    rw [List.length_reverse, hl] at this
    rw [beBytes, beNat, this, List.reverse_reverse]
  unfold pssVerify
  rw [if_neg (Nat.not_lt.mpr h2)]
  simp only [hk]
  rw [show (4095 + 7) / 8 = 512 from rfl, hv, he]
  have hm : (pssMask m).length = 447 := mgf1_length _
  have hx : (lowSeven (xorBytes (0 :: pssDb) (pssMask m))).length = 447 := by
    rw [lowSeven_length, xorBytes_length _ _ (by rw [List.length_cons, pssDb_length, hm]), List.length_cons, pssDb_length]
  have hh : (sha512 (bytesOf 8 0 ++ sha512 m ++ bytesOf 64 0)).length = 64 := sha512_length _
  have t1 : (pssEncode m).take (512 - 65) = lowSeven (xorBytes (0 :: pssDb) (pssMask m)) := by
    unfold pssEncode; exact List.take_left' hx
  have t2 : ((pssEncode m).drop (512 - 65)).take 64 = sha512 (bytesOf 8 0 ++ sha512 m ++ bytesOf 64 0) := by
    unfold pssEncode; rw [List.drop_left' hx, List.take_left' hh]
  have t3 : (pssEncode m).getLast? = some 0xBC := by
    unfold pssEncode; rw [← List.append_assoc, List.getLast?_append]; rfl
  rw [t1, t2, t3]
  have hq : ∃ y b, pssMask m = y :: b ∧ b.length = 446 := by
    cases hp : pssMask m with
    | nil => rw [hp] at hm; cases hm
    | cons y b => rw [hp] at hm; exact ⟨y, b, rfl, by simpa using hm⟩
  obtain ⟨y, b, hq, hbl⟩ := hq
  have back := lowSeven_back y pssDb b (by rw [pssDb_length, hbl])
  rw [← hq] at back
  have c1 : beNat (pssEncode m) < 2 ^ (8 * 512) := Nat.lt_of_lt_of_le (pssEncode_bits m) (Nat.pow_le_pow_right (by decide) (by decide))
  have c2 : (nth 0 (lowSeven (xorBytes (0 :: pssDb) (pssMask m))) 0).toNat / 2 ^ (8 - (8 * 512 - 4095)) = 0 := by
    rw [hq]; simp only [xorBytes, List.zip_cons_cons, List.map_cons, lowSeven, nth, List.getD_cons_zero, BitVec.toNat_ofNat]
    omega
  have c3 : (List.take (512 - 65 - 65) (0 :: pssDb)).all (· == 0#8) = true := by decide +kernel
  have c4 : (nth 0 (0 :: pssDb) (512 - 65 - 65) == 1#8) = true := by decide +kernel
  have c5 : List.drop (512 - 65 - 65 + 1) (0 :: pssDb) = bytesOf 64 0 := by decide +kernel
  show (decide (beNat (pssEncode m) < k) && decide (130 ≤ 512) && decide (beNat (pssEncode m) < 2 ^ (8 * 512)) && some 188#8 == some 188#8
    && decide ((nth 0 (lowSeven (xorBytes (0 :: pssDb) (pssMask m))) 0).toNat / 2 ^ (8 - (8 * 512 - 4095)) = 0)
    && (List.take (512 - 65 - 65) (lowSeven (xorBytes (lowSeven (xorBytes (0 :: pssDb) (pssMask m))) (pssMask m)))).all (· == 0#8)
    && (nth 0 (lowSeven (xorBytes (lowSeven (xorBytes (0 :: pssDb) (pssMask m))) (pssMask m))) (512 - 65 - 65) == 1#8)
    && (sha512 (bytesOf 8 0 ++ sha512 m ++ bytesOf 64 0) == sha512 (bytesOf 8 0 ++ sha512 m
      ++ List.drop (512 - 65 - 65 + 1) (lowSeven (xorBytes (lowSeven (xorBytes (0 :: pssDb) (pssMask m))) (pssMask m)))))) = true
  rw [back, c3, c4, c5, decide_eq_true hb, decide_eq_true c1, decide_eq_true c2, beq_self_eq_true, beq_self_eq_true]; rfl

/-- A grant for `n` sheets of this part, for the challenge of zeros, signed under the key of 2^4096 - 1 and exponent 1. -/
def grantBody (n : Nat) : List Byte :=
  leBytes 4 0x5452474F ++ leBytes 4 n ++ leBytes 8 Config.serial.toNat ++ bytesOf 64 0 ++ bytesOf 432 0
def grantBytes (n : Nat) : List Byte := grantBody n ++ pssEncode (grantBody n)
def granted (n : Nat) : Device := tr fun t =>
  { t with mbox := mboxPut (grantBytes n) [],
           store := { t.store with installer := some (BitVec.ofNat 4096 (2 ^ 4096 - 1), 1) } }
theorem mboxPut_raw (l : List Byte) : ∀ (m : List (Nat × Byte)) (a : Nat),
    (l.foldl (fun (a : List (Nat × Byte) × Nat) b => (smapSet 0 a.1 a.2 b, a.2 + 1)) (m, a)).1 = rawPut m a l := by
  induction l with
  | nil => intro m a; rfl
  | cons b r ih => intro m a; exact ih _ _
theorem mbox_back (l : List Byte) (n : Nat) (h : l.length = n) (d : Device) (hd : d.trust.mbox = mboxPut l []) : mboxRead d 0 n = l := by
  apply List.ext_getElem
  · simp [mboxRead, rangeFrom, h]
  · intro i h1 h2
    simp only [mboxRead, rangeFrom, List.getElem_map, List.getElem_range, Nat.add_zero, hd]
    rw [mboxPut, mboxPut_raw, rawPut_get 0 l i rfl, if_pos (by omega), Nat.sub_zero, List.getD_eq_getElem?_getD, List.getElem?_eq_getElem h2]; rfl
theorem grantBody_length (n : Nat) : (grantBody n).length = 512 := by
  unfold grantBody bytesOf; simp only [List.length_append, leBytes_length, List.length_replicate]
theorem grantBytes_length (n : Nat) : (grantBytes n).length = 1024 := by
  rw [grantBytes, List.length_append, grantBody_length, pssEncode_length]
theorem leAt_at (p q : List Byte) (off k v : Nat) (hp : p.length = off) (hv : v < 256 ^ k) :
    leAt (p ++ (leBytes k v ++ q)) off k = v := by
  rw [leAt, List.drop_left' hp, List.take_left' (leBytes_length k v), leNat_leBytes k v hv]
theorem granted_mbox : (granted 7).trust.mbox = mboxPut (grantBytes 7) [] := by simp only [granted, tr, modTrust]
theorem granted_challenge : (granted 7).trust.challenge = 0 := by simp only [granted, tr, modTrust]; rfl
theorem granted_installer : (granted 7).trust.store.installer = some (BitVec.ofNat 4096 (2 ^ 4096 - 1), 1) := by
  simp only [granted, tr, modTrust]
theorem granted_cmd : (granted 7).trust.cmd = none := by simp only [granted, tr, modTrust]; rfl
theorem grantBytes_parts : grantBytes 7 = leBytes 4 0x5452474F ++ (leBytes 4 7 ++ (leBytes 8 Config.serial.toNat ++ (leBytes 64 0 ++
      (bytesOf 432 0 ++ pssEncode (grantBody 7))))) := by
  rw [show leBytes 64 0 = bytesOf 64 0 by decide +kernel]; simp only [grantBytes, grantBody, List.append_assoc]
theorem grant_magic : leAt (grantBytes 7) 0 4 = 0x5452474F := by
  rw [grantBytes_parts, ← List.nil_append (leBytes 4 0x5452474F ++ _)]; exact leAt_at [] _ 0 4 _ List.length_nil (by decide +kernel)
theorem grant_sheets : leAt (grantBytes 7) 4 4 = 7 := by
  rw [grantBytes_parts]; exact leAt_at _ _ 4 4 7 (leBytes_length 4 _) (by decide +kernel)
theorem grant_serial : leAt (grantBytes 7) 8 8 = Config.serial.toNat := by
  rw [grantBytes_parts, ← List.append_assoc]
  exact leAt_at _ _ 8 8 _ (by simp only [List.length_append, leBytes_length]) Config.serial.isLt
theorem grant_challenge : leAt (grantBytes 7) 16 64 = 0 := by
  rw [grantBytes_parts, ← List.append_assoc, ← List.append_assoc]
  exact leAt_at _ _ 16 64 0 (by simp only [List.length_append, leBytes_length]) (by decide +kernel)
theorem grant_zeros : ((grantBytes 7).drop 80).take 432 = bytesOf 432 0 := by
  rw [grantBytes_parts, ← List.append_assoc, ← List.append_assoc, ← List.append_assoc,
    List.drop_left' (by simp only [List.length_append, leBytes_length])]
  exact List.take_left' (by unfold bytesOf; exact List.length_replicate ..)
theorem grant_body : (grantBytes 7).take 512 = grantBody 7 := by unfold grantBytes; exact List.take_left' (grantBody_length 7)
theorem grant_signature : (grantBytes 7).drop 512 = pssEncode (grantBody 7) := by
  unfold grantBytes; exact List.drop_left' (grantBody_length 7)
theorem grant_signed : pssVerify (BitVec.ofNat 4096 (2 ^ 4096 - 1)).toNat 1 (grantBody 7) (pssEncode (grantBody 7)) = true :=
  pss_of (BitVec.ofNat 4096 (2 ^ 4096 - 1)).toNat (by decide +kernel) (grantBody 7) (by decide +kernel) (by decide +kernel)
theorem grant_reserved : (bytesOf 432 0).all (· == (0#8 : Byte)) = true := by decide +kernel
theorem witness_MailboxCommands_open : (granted 7).trust.cmd = none ∧ (granted 7).trust.store.installer.isSome = true ∧
    grantGood (mboxRead (granted 7) 0 1024) (granted 7) = true := by
  refine ⟨granted_cmd, by rw [granted_installer]; rfl, ?_⟩
  rw [mbox_back _ 1024 (grantBytes_length 7) _ granted_mbox]
  unfold grantGood
  rw [granted_installer, granted_challenge]
  simp only [grant_magic, grant_sheets, grant_serial, grant_challenge, grant_zeros, grant_body, grant_signature, grant_reserved]
  rw [show (1 : BitVec 32).toNat = 1 from rfl, grant_signed]
  simp
/-! ## The fount's cells (R398 to R403) -/
theorem test_lookup : lookupCell 0x8000000000000001 0x3F = true ∧ lookupCell 0x8000000000000001 0x3E = false ∧
    lookupPair 0x0000000200000001 0 = (true, false) ∧ lookupPair 0x0000000200000001 1 = (false, true) := by decide +kernel
theorem test_mux : driverMux [false, true, false] [false, true, false] = true ∧ driverMux [false, false] [true, true] = false := by
  decide +kernel
theorem test_ram_collide : ramCollide 4 true 0xA 0x5 0xF = 0xA ∧ ramCollide 4 false 0xA 0x5 0x3 = 0x9 ∧
    ramWord 9 (ramPut 9 0 2 0x155) 2 = 0x155 := by decide +kernel
/-- R399, R400: a carry goes on where a cell passes it and is the cell's own else; the source enters stick 0. -/
theorem test_carry_chain : carries true [(false, true), (false, true), (true, true)] = [true, true, true, true] ∧
    carries false [(false, true), (true, false), (false, true)] = [false, false, true, true] := by decide +kernel
/-- R395, R406: the ring of a die, and the regions that face each other across the bridge. -/
theorem test_borders : bridgeFace 0 = some 12 ∧ bridgeFace 23 = some 11 ∧ bridgeFace 5 = none ∧ borders 5 = [4, 6] ∧
    borders 0 = [11, 1] ∧ borders 23 = [22, 12] := by decide +kernel

/-! ## What waits on the link (R424, R472) -/

/-- A window write waits for stack 0, which is in self-refresh, and a read behind it; then the same with the stack ready. -/
def waiting (st : StackState) : Device :=
  modHost (fun h => { h with link := [.windowWrite 0 (some 0) [5] false, .windowRead 0 none 1] }) (modStack 0 (fun x => { x with state := st }) ready)
theorem witness_IdleStepIsOnePoint_linkWaits :
    let d := waiting .ready
    asleep d = false ∧ d.power.wakeWait = none ∧ d.host.linkUp = true ∧ linkNext d d.host.link = some 0 ∧
      d.host.link[0]? = some (.windowWrite 0 (some 0) [5] false) ∧ linkNext (waiting .selfRefresh) d.host.link = none ∧
      linkNext (waiting .selfRefresh) [.windowRead 0 (some 0) 1, .row (.doorbell 0 1)] = some 1 := by decide +kernel
theorem witness_PlainRegisterWrites_link : linkBusy (waiting .selfRefresh) = true ∧ linkBusy linked = false := by decide +kernel
theorem witness_WindowsAndPulls_link : linkBusy (waiting .selfRefresh) = true ∧ linkBusy ready = false ∧
    windowState (modStack 0 (fun x => { x with state := .selfRefresh }) ready) 0 1 = .waits ∧
    windowState ready 0 1 = .ready := by decide +kernel
/-- Nothing passes a write that waits; once the stack is ready an idle step takes the write, and the next one the read. -/
theorem test_link_order :
    (after (.doorbell 0 1) (waiting .selfRefresh)).host.link.length = 3 ∧
    (match step (on (waiting .selfRefresh)) with | .next t => t.dev.host.link.length | _ => 0) = 2 ∧
    (match step (on (waiting .ready)) with
      | .next t => (t.dev.host.link, (memRead (stack t.dev 0).mem 0 1).2.1) | _ => ([], [])) = ([.windowRead 0 (some 0) 1], [5]) := by decide +kernel

/-! ## Register reads (R2, R9, R11, R12) and configuration space (R466, R467) -/

/-- R9: of ER_OVERFLOW the bytes 0 and 3; R2: HB_REFRESH of stack 7, which an XG9460 lacks; R11: the live high word of PT_COUNT. -/
theorem test_register_reads :
    (after (.lowWordRead .pf0 0x200008 9) (modErrata (fun e => { e with overflow := true, lost := 0x123456 }) linked)).out.head?
      = some (.completion .pf0 (.data [0x56, 0x80])) ∧
    readPf0 { linked with part := .xg9460 } 0x5C0008 = 0 ∧ readPf0 linked 0x5C0008 ≠ 0 ∧
    (after (.lowWordRead .pf0 0x10000C 0xF) (modTime (fun t => { t with count := 0x500001000 }) linked)).out.head?
      = some (.completion .pf0 (.data [5, 0, 0, 0])) := by decide +kernel
theorem test_function_ids : functionIds .xg9480 .pf1 = 0x94811F3A ∧ functionIds .xg9460 .pf2 = 0x94621F3A ∧
    configRead r0 .pf2 0x10C = 2 := by decide +kernel
/-- R493: a read of PF1 during its reset. -/
theorem test_read_in_reset : (after (.lowWordRead .pf1 0 0xF) (modHost (fun h => { h with flr := 2 }) linked)).out.head?
    = some (.completion .pf1 .unsupported) := by decide +kernel

/-! ## The chase's headers and the Forron lanes -/

/-- R268 by hand: a GRANT from case 0 to galley 0.0 turns at the forme switch, down its port 0, and leads to the galley. -/
theorem test_chase_header :
    let d := chase id
    let h := chaseHeader d (msg 1 0 0x80)
    fieldN h 63 61 = 1 ∧ fieldN h 60 51 = 0 ∧ fieldN h 50 41 = 0x80 ∧ fieldN h 40 39 = 1 ∧ fieldN h 31 28 = 0 ∧
      fieldN h 27 16 = 9 ∧ bit h 9 = true ∧ countBits h % 2 = 0 ∧ headerLeads 0x80 h = 0 ∧
      headerLeads 0 (chaseHeader d (msg 0 0xC8 0)) = 0xC8 ∧ headerLeads 0 (chaseHeader d (msg 0 0xC7 0)) = 0xC7 := by decide +kernel
/-- The value of a polynomial, highest power first. -/
def polyAt (p : List Nat) (x : Nat) : Nat := p.foldl (fun a c => gfMul a x ^^^ c) 0
/-- R326: the parity makes a word that vanishes at the code's roots. -/
theorem test_rs_code : rsGenerator.length = 31 ∧
    ((gfPowers 30 1).all fun r => polyAt ([1, 2, 3] ++ rsParity [1, 2, 3]) r = 0) = true ∧ polyAt ([1, 2, 3] ++ rsParity [1, 2, 2]) 2 ≠ 0 := by
  decide +kernel
/-- R328: block 0 of a superframe fills bits 0 to 129; message bit 5,140 is the first bit of codeword 1. -/
theorem test_superframe : wireBit 129 = 129 ∧ wireBit 5140 = 5440 ∧ streamPlace 4 2052 = (0, 1, 1) ∧ streamPlace 4 5 = (1, 0, 2) ∧
    laneMark 3 4 7 = 0x01340007000000000000000000000000 := by decide +kernel
/-- R337: byte 16 of a flit is the first payload byte of its second block. -/
theorem test_flit_blocks : ((flitBlocks (List.replicate 16 0 ++ [0xAB]))[1]?.map fun b => (blockHeader b, blockPayload b)) = some (1, 0xAB) := by
  decide +kernel
/-- R332: a lone one at the last place, then at the 28th. -/
theorem test_prbs31 : prbs31Next 0x40000000 = 1 ∧ prbs31Next 0x08000000 = 0x10000001 ∧ prbs31Next 0x48000000 = 0x10000000 := by decide +kernel

theorem witness_ErrataAndAborts_read : fnServes linked .pf0 = true ∧ r0.host.linkUp = false ∧
    (let d := modHost (fun h => { h with flr := 1 }) linked; d.host.linkUp = true ∧ bit d.host.flr 0 = true) := by decide +kernel

/-! ## Witnesses for the clauses about waiting -/

theorem witness_AdmitTicketOutcome_waits :
    busesIssue (alerted { training := true }) = false ∧ busesIssue ready = true ∧ asleep (alerted { training := true }) = false := by
  decide +kernel
theorem witness_AdmitTicketOutcome_late :
    let d := withEntry 0 (entry 1 8 9 100 0 3 1 0 ||| 8) (modMk (fun m => { m with admission := none }) (admitting 9 holdForme))
    ((readImp 0x40 d).2.map fun imp => (needsOverrun d imp, fitsEmpty d imp 0)) = some (true, true) := by decide +kernel
theorem witness_PowerStates_far :
    ready.now ≤ 1 * 2 ^ 32 + ready.power.wakeAtLo.toNat ∧ ready.sheet + 524287 < (1 * 2 ^ 32 + ready.power.wakeAtLo.toNat) / 4096 ∧
    (let d := pw fun w => { w with wakeAtLo := 0x7005000 }
     d.now ≤ 0x7005000 ∧ 0x7005000 / 4096 ≤ d.sheet + 524287 ∧ lowestFree d = some 0) := by decide +kernel
theorem witness_PassesRun_waits : (press (feeding feed1) 64).plA.passes.any (fun o => o.feed && o.phase = .feeding) = true := by
  decide +kernel
theorem witness_PreemptionAndClears_none : (press (bench id) 0).preempt = .none := by decide +kernel
theorem witness_ErrataAndAborts_done :
    abortDoneAt (aborting id 4200) 0 = true ∧
    abortDoneAt (aborting (fun x => { x with transfers := [move] }) 4200) 0 = false := by decide +kernel
theorem witness_XferAndPools_waits :
    let d := modMk (fun m => { m with table := [] }) (moving [])
    (({ move with asked := 64 } : Transfer).len ≤ 64) ∧ chunkWindow d { move with pool := none, dst := 0xA8 } 0 = false := by
  decide +kernel
theorem witness_ProgramsBegin_waits : busesIssue (modBus 0 0 (fun x => { x with training := true }) ready) = false := by decide +kernel
/-! ## Witnesses for the clauses on stacks, overruns, domains and the store -/

/-- A stack whose controller holds a request. -/
def queued (d : Device) : Device :=
  modStack 1 (fun s => { s with queues := vmodN s.queues 0 fun q => { q with waiting := [{ unit := 64, old := none }] } }) d
theorem witness_EntriesFire_stack :
    stackEmpty (finishStack 145 (firing (entry 1 5 0xFFF 10 6 145 0 4))) 145 = true ∧
      stackEmpty (finishStack 145 (queued (firing (entry 1 5 0xFFF 10 6 145 0 4)))) 145 = false ∧
      entryDue (queued (firing (entry 1 5 0xFFF 10 6 145 0 4))) 4 = true ∧ (stack r0 7).state = .filling ∧
      (stack (firing 0) 7).state ≠ .selfRefresh ∧ domainHeld (firing 0) 128 = true ∧ domainHeld (firing 0) 152 = false := by decide +kernel
/-- The window's own time has passed within another ticket's overrun of its resource. -/
theorem witness_ReservationsEnd_overrun :
    let d := modMk (fun m => { m with table := [(3, entry 1 1 9 10 1 0 1 0 ||| 10#128), (4, entry 2 2 5 10 1 0 1 0)] })
      (ended 0 { ticket5 with entries := [4] })
    eFired (getEntry d 4) = false ∧ overrunBlocks d 4 = true ∧ entryEnd d (getEntry d 4) ≤ d.now ∧ eAction (getEntry d 4) = 2 ∧
      ((ticketOf d 5).map (noStartDone d)) = some false := by decide +kernel
theorem witness_DomainsSwitch_stack :
    let d := modDomain 145 (fun x => { x with dstate := .goingOff }) (queued ready)
    (domain d 145).dstate = .goingOff ∧ mayBeOff (beforeOff 145 d) 145 = false ∧ mayBeOff (beforeOff 5 d) 5 = true := by decide +kernel
theorem witness_DomainsSwitch_roles :
    lockable ready .foreman 2 = true ∧ linkBusy ready = false ∧
      (let d := modDomain 5 (fun x => { x with dstate := .goingOff })
        (modPress 5 (fun x => { x with recovery := { x.recovery with state := .powerCycling } }) ready)
       pressCycling (domainOff 5 (offState (beforeOff 5 d) 5) (beforeOff 5 d)) 5) = true ∧
      domKind 151 = .stack 7 ∧ (domain (waking2 176 4100) 176).dstate = .waking := by decide +kernel
theorem witness_PowerStates_sideband :
    (pw fun w => { w with deepWake := true }).power.deepWake = true ∧ ready.power.deepWake = false ∧
      awakeState ready.power.state = true ∧ (pwChange .stand 2).power.change = some ⟨.stand, .host, false, 2⟩ ∧
      (pw fun w => { w with heldReq := some (.run, .host) }).power.change = none := by decide +kernel
theorem witness_MailboxCommands_fails :
    let d := modTrust (fun t => { t with logFails := true }) counted
    d.trust.cmd = none ∧ d.trust.logFails = true ∧ storeBusy d = false ∧ d.trust.running.isSome = true ∧
      d.trust.store.installer = none ∧ (session []).trust.logFails = false := by decide +kernel
theorem witness_FirmwareAndStore_count :
    ready.forron.countPending = true ∧ ready.forron.countFailed = false ∧
      (modForron (fun f => { f with countFailed := true }) ready).forron.countFailed = true ∧
      (modForron (fun f => { f with countFailed := true })
        (modTrust (fun t => { t with job := some .release }) ready)).trust.job = some .release := by decide +kernel
theorem witness_ResetsOfThePart_d3hot :
    ready.host.d3hot ≠ 7 ∧ ready.host.d3hot ||| 7 = 7 ∧ ready.host.d3hot ||| 2 ≠ 7 ∧ (cap fun c => { c with capState := .timedOut }).cf.load = none := by
  decide +kernel
theorem witness_EveryCommandAnswers_asleep :
    (rowEffect (.ptClearCounts)).isSome = true ∧ linkBusy (blocked ready) = true ∧ asleep held0 = true ∧ calm held0 = true ∧
      alwaysOn .ptClearCounts = false := by decide +kernel
/-- R571: an entry that cannot be programmed stays, and until one can be, an action whose entry cannot be kept is refused. -/
theorem test_log_fails : (after (.logEntryDurable false) ready).trust.logFails = true ∧
    ((after (.claim 516) (modTrust (fun t => { t with logFails := true }) counted)).trust.cmd.map (·.code)) = some 0x0908 := by
  decide +kernel
/-- R560: a failed store write leaves the value in force. -/
theorem test_store_write_fails :
    (after (.storeWriteDone false) (modTrust (fun t => { t with job := some (.policy 3) }) counted)).trust.store.policy = r0.trust.store.policy := by
  decide +kernel
/-- R508: a pause has preempted the press already, so that a reset request aborts its task at once. -/
theorem test_reset_preempted :
    ((ticketOf (after (.psResetRequested .foreman 0)
      (modForme 0 (fun x => { x with pmask := 1 }) (bench fun x => { x with preempt := .preempted }))) 5).bind (·.abort)).map (·.code)
      = some 0x0A03 := by decide +kernel
/-- R542: a held pad keeps what its region drove when it went off. -/
theorem test_pads_latch :
    let d := modFount (fun f => { f with pins := vmodN f.pins 1 fun x => { x with output := 5, enable := 1 } })
      (modCf (fun c => { c with regions := 0xFFFFFF, held := 0 }) ready)
    (padLatch d 1).output = 5 ∧ (padLatch d 1).enable = 1 := by decide +kernel
end Sys2Proof.Tests
end

section
/-!
PROOFS of the family 00_scope: how a command's answer comes about (the front of the queue, a part that is asleep, the host
link), and register accesses, with the Errata log's and the aborts' commands. The general lemmas stand first; each
obligation's proof follows the lemmas that it is assembled from.
-/
namespace Sys2Proof.Machine

/-! ## Commands as shared operations over their effects -/

theorem step_cons {s : State} {c : Instr} {r : List Instr} (h : s.pending = c :: r) :
    step s = exec c { s with pending := r } := by
  unfold step
  rw [h]

/-- Only a command of the always-on domain takes effect in a part that is asleep (R527). -/
theorem exec_eq_onAlways_or_onDev (c : Instr) :
    (alwaysOn c = true ∧ ∃ g, exec c = onAlways g) ∨ ∃ g, exec c = onDev g := by
  cases c
  case sidebandRead | sidebandAddressMatch | latchedWake | deviceReset | railFault | thermalTrip | pwThrottleN
      | pwAlertN => exact .inl ⟨rfl, _, rfl⟩
  all_goals exact .inr ⟨_, rfl⟩

/-- A row with a writer is a request of the host unless Foreman writes. -/
theorem onSource_of_row {r : Requester} {c : Instr} {g g' : Device → Device}
    (h : (if r = .foreman then none else some g) = some g') : onSource r c g = onHost c g' := by
  cases r
  case foreman => cases h
  all_goals
    cases h
    rfl

/-- `rowEffect` names the requests of the host and their effects as `exec` has them. -/
theorem exec_of_rowEffect {c : Instr} {g : Device → Device} (h : rowEffect c = some g) : exec c = onHost c g := by
  cases c
  case registerWrite | flRouteDataWrite | flOrouteDataWrite | cfBegin | psResetRequested | powerStateRequest
      | pwGateQuadWrite | pwGateRegionWrite | pwThrottleApply => exact onSource_of_row h
  all_goals cases h
  all_goals rfl

/-! ## Nothing follows in a calm part -/

theorem foldl_eq_of_fixed {α β : Type} {f : β → α → β} {b : β} {l : List α} (h : ∀ a ∈ l, f b a = b) :
    l.foldl f b = b :=
  List.foldlRecOn (motive := (· = b)) l f rfl fun x hx a ha => by rw [hx, h a ha]

theorem settleAborts_of_abortsBegun {d : Device} (h : abortsBegun d = true) : settleAborts d = d := by
  have none : (d.mkr.tickets.filter fun t => t.abort.any (cancelDue d.now)) = [] := by
    simpa [abortsBegun] using h
  rw [settleAborts, none]
  rfl

theorem settleFails_of_no_failed {d : Device} (n : Nat) (h : d.errata.failed = []) : settleFails n d = d := by
  cases n with
  | zero => rfl
  | succ n => rw [settleFails, h]

theorem settleErrors_of_no_escalate {d : Device} (h : d.errata.escalate = []) : settleErrors d = d := by
  rw [settleErrors, h]

theorem settleGrants_of_granted {d : Device} (h : d.chase.rx.all (·.granted) = true) : settleGrants d = d := by
  have none : d.chase.rx.filter (fun c => !c.granted) = [] := by simpa using h
  simp [settleGrants, none]

theorem settleEngine_of_granted {d : Device} {x : FRx} (h : x.granted = true) : settleEngine d x = d := by
  unfold settleEngine
  split
  · rfl
  · split
    · rfl
    · rw [if_pos h]

theorem settleEngines_of_granted {d : Device} (h : d.forron.rx.all (·.granted) = true) : settleEngines d = d :=
  foldl_eq_of_fixed fun x hx => settleEngine_of_granted (List.all_eq_true.mp h x hx)

theorem settleFeed_of_unchanged {d : Device} {k : Nat} (h : vgetN none d.fount.feedNext k = none) :
    settleFeed d k = d := by
  rw [settleFeed, h]

theorem settleFeeds_of_unchanged {d : Device} (h : ∀ k < 32, vgetN none d.fount.feedNext k = none) :
    settleFeeds d = d :=
  foldl_eq_of_fixed (f := settleFeed) fun k hk => settleFeed_of_unchanged (h k (List.mem_range.mp hk))

/-- Nothing follows where nothing waits to follow. -/
theorem settled_of_calm {d : Device} (h : calm d = true) : settled d = d := by
  simp only [calm, Bool.and_eq_true, List.isEmpty_iff, List.all_eq_true, List.mem_range,
    Option.isNone_iff_eq_none] at h
  obtain ⟨⟨⟨⟨⟨aborts, failed⟩, escalate⟩, chase⟩, forron⟩, feeds⟩ := h
  rw [settled, settleAborts_of_abortsBegun aborts, settleFails_of_no_failed _ failed,
    settleErrors_of_no_escalate escalate, settleGrants_of_granted (List.all_eq_true.mpr chase),
    settleEngines_of_granted (List.all_eq_true.mpr forron), settleFeeds_of_unchanged feeds]

/-! ## What the shared operations answer -/

theorem onDev_nextWith {s : State} (h : asleep s.dev = false) (g : Device → Device) : onDev g s = nextWith s (g s.dev) :=
  onDev_awake h g

theorem onDev_of_asleep_calm {s : State} (h : asleep s.dev = true) (hc : calm s.dev = true) (g : Device → Device) :
    onDev g s = .next s := by
  rw [onDev_asleep h, settled_of_calm hc]

theorem onHost_awake {s : State} (h : asleep s.dev = false) (c : Instr) (g : Device → Device) :
    onHost c g s = nextWith s (if linkBusy s.dev then holdLink (.row c) s.dev else g s.dev) :=
  onDev_awake h _

theorem onHost_busy {s : State} (h : asleep s.dev = false) (hb : linkBusy s.dev = true) (c : Instr)
    (g : Device → Device) : onHost c g s = nextWith s (holdLink (.row c) s.dev) := by
  rw [onHost_awake h, if_pos hb]

theorem onHost_free {s : State} (h : asleep s.dev = false) (hb : linkBusy s.dev = false) (c : Instr)
    (g : Device → Device) : onHost c g s = nextWith s (g s.dev) := by
  rw [onHost_awake h, hb]
  rfl

theorem onSource_busy {s : State} (h : asleep s.dev = false) (hb : linkBusy s.dev = true) {r : Requester}
    (hr : r ≠ .foreman) (c : Instr) (g : Device → Device) : onSource r c g s = nextWith s (holdLink (.row c) s.dev) := by
  rw [onSource, if_neg hr]
  exact onHost_busy h hb c g

theorem onSource_free {s : State} (h : asleep s.dev = false) (hb : linkBusy s.dev = false) (r : Requester) (c : Instr)
    (g : Device → Device) : onSource r c g s = nextWith s (g s.dev) := by
  by_cases hr : r = .foreman
  · rw [onSource, if_pos hr]
    exact onDev_nextWith h g
  · rw [onSource, if_neg hr]
    exact onHost_free h hb c g

/-- Settles O1: `step` matches on the queue. -/
theorem frontCommandRuns : Obligations.FrontCommandRuns := by
  unfold Obligations.FrontCommandRuns
  exact fun _ _ _ => step_cons

/-- Settles O3: every command is `onAlways` or `onDev` over its effect, and a host row is `onHost` over its own. -/
theorem everyCommandAnswers : Obligations.EveryCommandAnswers := by
  unfold Obligations.EveryCommandAnswers
  refine ⟨?_, ?_, ?_⟩
  · intro c s
    rcases exec_eq_onAlways_or_onDev c with ⟨_, g, h⟩ | ⟨g, h⟩ <;> exact ⟨_, congrFun h s⟩
  · intro c s sleeps notAlways still
    rcases exec_eq_onAlways_or_onDev c with ⟨always, _⟩ | ⟨g, h⟩
    · exact absurd always (by simp [notAlways])
    · rw [h, onDev_of_asleep_calm sleeps still]
  · intro c g s awake row
    rw [exec_of_rowEffect row, onHost_awake awake]

/-! ## Register writes (R9, R591) -/

theorem toNat_regAddr {a : Nat} (h : a < 2 ^ 25) : (BitVec.ofNat 25 a).toNat = a := by
  rw [BitVec.toNat_ofNat, Nat.mod_eq_of_lt h]

theorem exec_registerWrite_busy {s : State} (h : asleep s.dev = false) (hb : linkBusy s.dev = true) {r : Requester}
    (hr : r ≠ .foreman) (a : RegAddr) (v : Word) (be : BitVec 4) :
    exec (.registerWrite r a v be) s = nextWith s (holdLink (.row (.registerWrite r a v be)) s.dev) := by
  rw [exec_registerWrite, onSource_busy h hb hr]

theorem exec_registerWrite_free {s : State} (h : asleep s.dev = false) (hb : linkBusy s.dev = false) (r : Requester)
    (a : RegAddr) (v : Word) (be : BitVec 4) :
    exec (.registerWrite r a v be) s = nextWith s (doRegisterWrite r a v be s.dev) := by
  rw [exec_registerWrite, onSource_free h hb]
  rfl

theorem doRegisterWrite_short (r : Requester) (a : RegAddr) (v : Word) {be : BitVec 4} (h : be ≠ 0xF) (d : Device) :
    doRegisterWrite r a v be d = d :=
  if_pos h

theorem doRegisterWrite_pf2 (a : RegAddr) (v : Word) (be : BitVec 4) (d : Device) :
    doRegisterWrite .pf2 a v be d = d := by
  unfold doRegisterWrite
  split <;> rfl

/-- A full write through PF0 or by Foreman does what PF0 BAR0 does at its address. -/
theorem exec_pf0Write {s : State} (h : asleep s.dev = false) (hb : linkBusy s.dev = false) {r : Requester}
    (hr : r = .pf0 ∨ r = .foreman) {a : RegAddr} {v : Word} {d : Device} (hw : writePf0 r a.toNat v s.dev = d) :
    exec (.registerWrite r a v 0xF) s = nextWith s d := by
  rw [exec_registerWrite_free h hb, ← hw]
  rcases hr with rfl | rfl <;> rfl

/-- A full write through PF1 does what PF1 BAR0 does at its address. -/
theorem exec_pf1Write {s : State} (h : asleep s.dev = false) (hb : linkBusy s.dev = false) {a : RegAddr} {v : Word}
    {d : Device} (hw : writePf1 a.toNat v s.dev = d) : exec (.registerWrite .pf1 a v 0xF) s = nextWith s d := by
  rw [exec_registerWrite_free h hb, ← hw]
  rfl

theorem writePf1_ring {d : Device} (h : fnServes d .pf1 = true) {a : Nat} (hi : a < 0x40000) (v : Word) :
    writePf1 a v d = writeRing (a / 0x1000) (a % 0x1000) v d := by
  rw [writePf1, h, if_neg (by decide), if_pos hi]

theorem writePf1_devPage {d : Device} (h : fnServes d .pf1 = true) {off : Nat} (ho : off < 0x1000) (v : Word) :
    writePf1 (0x50000 + off) v d = writeDevPage off v d := by
  rw [writePf1, h, if_neg (by decide), if_neg (by omega), if_neg (by omega), if_pos (by simp; omega),
    Nat.add_sub_cancel_left]

theorem writePf1_ringBaseHi {d : Device} (h : fnServes d .pf1 = true) {r : Nat} (hr : r < 64)
    (disabled : (vgetN {} d.host.rings r).enable = false) (v : Word) :
    writePf1 (0x1000 * r + 4) v d = modRing r (fun x => { x with base := baseWrite true v x.base }) d := by
  have page : (0x1000 * r + 4) / 0x1000 = r := by omega
  have offset : (0x1000 * r + 4) % 0x1000 = 4 := by omega
  rw [writePf1_ring h (by omega), page, offset, writeRing, disabled]
  rfl

/-- A written 1 clears ER_LOST.overflow, and a written 0 leaves it (R521). -/
theorem writeErrata_lost (v : Word) (d : Device) :
    writeErrata 0x200008 v d = modErrata (fun e => { e with overflow := e.overflow && !bit v 31 }) d := by
  rw [writeErrata]
  cases bit v 31 <;> simp [modErrata]

/-- PW_CTRL.wake_to does not take the reserved value 3 (R549). -/
theorem writePower_ctrl (r : Requester) (v : Word) (d : Device) :
    writePower r 0x300000 v d
      = modPower (fun w => { w with wakeTo := if fieldN v 5 4 = 3 then w.wakeTo else field v 5 4 }) d := by
  unfold writePower
  by_cases h : fieldN v 5 4 = 3 <;> simp [h, modPower]

/-- Settles O8: a full write is the arm of its block's write at its address. -/
theorem plainRegisterWrites : Obligations.PlainRegisterWrites := by
  unfold Obligations.PlainRegisterWrites
  intro s awake
  refine ⟨?_, fun free => ⟨?_, ?_, ?_, ?_⟩⟩
  · intro r a v be hr busy
    rw [exec_registerWrite_busy awake busy hr]
  · intro r a v be short
    rw [exec_registerWrite_free awake free, doRegisterWrite_short r a v short]
  · intro a v be
    rw [exec_registerWrite_free awake free, doRegisterWrite_pf2]
  · intro r v hr
    have reg {a : RegAddr} {d : Device} : writePf0 r a.toNat v s.dev = d →
        exec (.registerWrite r a v 0xF) s = nextWith s d := exec_pf0Write awake free hr
    exact ⟨reg rfl, reg rfl, reg rfl, reg (writeErrata_lost v s.dev), reg rfl, reg rfl,
      reg (writePower_ctrl r v s.dev), reg rfl, reg rfl, reg rfl, reg rfl, reg rfl, reg rfl, reg rfl, reg rfl, reg rfl⟩
  · intro serves v
    have reg {a : RegAddr} {d : Device} : writePf1 a.toNat v s.dev = d →
        exec (.registerWrite .pf1 a v 0xF) s = nextWith s d := exec_pf1Write awake free
    refine ⟨reg (writePf1_devPage serves (off := 0x04) (by decide) v),
      reg (writePf1_devPage serves (off := 0x10) (by decide) v), fun r hr disabled => reg ?_⟩
    rw [toNat_regAddr (by omega), writePf1_ringBaseHi serves hr disabled]

/-! ## Guarded fields and press blocks (R13, R509) -/

theorem rwi_unchanged (r : Requester) (a : Nat) (v : Word) {l : List Bool} (h : changes l = 0) (act : Device → Device)
    (d : Device) : rwi r a v l act d = d :=
  if_pos h

theorem rwi_one_change (r : Requester) (a : Nat) (v : Word) {l : List Bool} (h : changes l = 1) (act : Device → Device)
    (d : Device) : rwi r a v l act d = withRight (installer d r) r a v act d := by
  rw [rwi, guarded, h]
  rfl

theorem writePf0_ptCtrl_same {r : Requester} {v : Word} {d : Device} (h : bit v 1 = d.time.codeRequired) :
    writePf0 r 0x100000 v d = d :=
  rwi_unchanged r 0x100000 v (l := [bit v 1 ≠ d.time.codeRequired]) (by simp [changes, h]) _ d

theorem writePf0_ptCtrl_change {r : Requester} {v : Word} {d : Device} (h : bit v 1 ≠ d.time.codeRequired) :
    writePf0 r 0x100000 v d
      = withRight (installer d r) r 0x100000 v (modTime fun t => { t with codeRequired := bit v 1 }) d :=
  rwi_one_change r 0x100000 v (l := [bit v 1 ≠ d.time.codeRequired]) (by simp [changes, h]) _ d

theorem writePf0_formes (r : Requester) {a : Nat} (lo : 0x900000 ≤ a) (hi : a < 0xD00000) (v : Word) (d : Device) :
    writePf0 r a v d = writeForme ((a - 0x900000) / 0x40000) ((a - 0x900000) % 0x40000) v d := by
  rw [writePf0, if_neg (by omega), if_neg (by omega), if_neg (by omega), if_neg (by omega), if_neg (by omega),
    if_neg (by omega), if_neg (by omega), if_neg (by omega), if_pos hi]

theorem writeForme_press (f : Nat) {off : Nat} (h : off < 0x20000) (v : Word) (d : Device) :
    writeForme f off v d = writePress (8 * f + off / 0x4000) (off % 0x4000) v d :=
  if_pos h

/-- The block of press `p` in PF0 BAR0 (R592). -/
theorem writePf0_press (r : Requester) {a p off : Nat} (ha : a = 0x900000 + 0x40000 * (p / 8) + 0x4000 * (p % 8) + off)
    (hp : p < 128) (ho : off < 0x4000) (v : Word) (d : Device) : writePf0 r a v d = writePress p off v d := by
  have forme : (a - 0x900000) / 0x40000 = p / 8 := by omega
  have inForme : (a - 0x900000) % 0x40000 = 0x4000 * (p % 8) + off := by omega
  have number : 8 * (p / 8) + (0x4000 * (p % 8) + off) / 0x4000 = p := by omega
  have offset : (0x4000 * (p % 8) + off) % 0x4000 = off := by omega
  rw [writePf0_formes r (by omega) (by omega), forme, inForme, writeForme_press _ (by omega), number, offset]

theorem writePress_fenced {d : Device} {p off : Nat} (h : fenced d p = true) (ho : off ≠ 0xF40) (v : Word) :
    writePress p off v d = logPress p 0x0A01 false d := by
  rw [writePress, if_pos h, if_neg ho]

theorem writePress_open {d : Device} {p off : Nat} (h : fenced d p = false) {v : Word} {g : Press → Press}
    (hw : pressWrite off v = some g) : writePress p off v d = modPress p g d := by
  rw [writePress, h, hw]
  rfl

/-- Settles O9: PT_CTRL is one guarded field, and a press block's writes go through the frisket. -/
theorem protectedRegisterWrites : Obligations.ProtectedRegisterWrites := by
  unfold Obligations.ProtectedRegisterWrites
  intro s awake free
  have reg {r : Requester} (hr : r = .pf0 ∨ r = .foreman) {a : RegAddr} {v : Word} {d : Device} :
      writePf0 r a.toNat v s.dev = d → exec (.registerWrite r a v 0xF) s = nextWith s d := exec_pf0Write awake free hr
  refine ⟨?_, ?_, ?_, ?_, ?_⟩
  · exact fun r v hr same => reg hr (writePf0_ptCtrl_same same)
  · intro v change session
    refine reg (.inl rfl) ((writePf0_ptCtrl_change change).trans ?_)
    simp [withRight, installer, reqRole, reqSource, session]
  · intro v change session
    refine reg (.inl rfl) ((writePf0_ptCtrl_change change).trans ?_)
    simp [withRight, installer, reqRole, reqSource, session]
  · intro p v opened
    constructor
    · refine reg (.inl rfl) ?_
      rw [toNat_regAddr (by omega), writePf0_press .pf0 (off := 0x200) (by omega) p.2 (by omega),
        writePress_open opened rfl]
    · refine reg (.inl rfl) ?_
      rw [toNat_regAddr (by omega), writePf0_press .pf0 (off := 0x780) (by omega) p.2 (by omega),
        writePress_open opened rfl]
  · intro p v closed
    refine reg (.inl rfl) ?_
    rw [toNat_regAddr (by omega), writePf0_press .pf0 (off := 0x200) (by omega) p.2 (by omega),
      writePress_fenced closed (by omega)]

/-! ## Register reads (R9, R11) -/

theorem exec_lowWordRead_free {s : State} (h : asleep s.dev = false) (hb : linkBusy s.dev = false) (fn : FnId)
    (a : RegAddr) (be : BitVec 4) (more : List (BitVec 4)) :
    exec (.lowWordRead fn a be more) s = nextWith s (doRegRead fn a.toNat (be :: more) s.dev) := by
  rw [exec_lowWordRead, onHost_free h hb]
  rfl

theorem doRegRead_linkDown {d : Device} (h : d.host.linkUp = false) (fn : FnId) (a : Nat) (be : List (BitVec 4)) :
    doRegRead fn a be d = d := by
  rw [doRegRead, h]
  rfl

theorem doRegRead_inReset {d : Device} {fn : FnId} (up : d.host.linkUp = true) (flr : bit d.host.flr (fnIndex fn) = true)
    (a : Nat) (be : List (BitVec 4)) : doRegRead fn a be d = complete fn .unsupported d := by
  rw [doRegRead, up, flr]
  rfl

theorem doRegRead_served {d : Device} {fn : FnId} (h : fnServes d fn = true) {a : Nat} (ha : a % 4 = 0)
    (be : List (BitVec 4)) :
    doRegRead fn a be d = complete fn (.data (readWords fn a be [] d).1) (readWords fn a be [] d).2 := by
  have aligned : a / 4 * 4 = a := by omega
  simp only [fnServes, Bool.and_eq_true, Bool.not_eq_true'] at h
  obtain ⟨up, flr⟩ := h
  rw [doRegRead, up, flr, aligned]
  rfl

/-! What a read of one word answers and changes, by whether the word is the low or the high word of a quantity. -/

theorem regValue_low {d : Device} {fn : FnId} {a : Nat} {q : BitVec 64} (h : quantity d fn a = some q) :
    regValue d fn a = field q 31 0 := by
  rw [regValue, h]
  rfl

theorem regValue_high {d : Device} {fn : FnId} {a : Nat} {q : BitVec 64} (h : quantity d fn a = none)
    (hq : highQuantity d fn a = some q) :
    regValue d fn a = (smapGet none (holdOf d.host.hold fn) a).getD (field q 63 32) := by
  rw [regValue, h, hq]
  rfl

theorem regValue_plain {d : Device} {fn : FnId} {a : Nat} (h : quantity d fn a = none)
    (hq : highQuantity d fn a = none) : regValue d fn a = regLive d fn a := by
  rw [regValue, h, hq]

theorem holdAfter_plain {d : Device} {fn : FnId} {a : Nat} (h : quantity d fn a = none)
    (hq : highQuantity d fn a = none) (x : HoldRegs) : holdAfter d fn a x = x := by
  rw [holdAfter, h, hq]

/-- The two addresses whose read copies an entry: MK_TABLE_DATA0 and ER_READ_DATA0. -/
theorem readEffect_no_copy {fn : FnId} {a : Nat} (h : fn = .pf0 → a ≠ 0x100084 ∧ a ≠ 0x200010) (d : Device) :
    readEffect fn a d = modHost (fun x => { x with hold := holdAfter d fn a x.hold }) d := by
  unfold readEffect
  split
  · exact absurd rfl (h rfl).1
  · exact absurd rfl (h rfl).2
  · rfl

theorem readEffect_low {d : Device} {fn : FnId} {a : Nat} {q : BitVec 64}
    (noCopy : fn = .pf0 → a ≠ 0x100084 ∧ a ≠ 0x200010) (h : quantity d fn a = some q) :
    readEffect fn a d = modHost (fun x => { x with hold := setHold fn (a + 4) (some (field q 63 32)) x.hold }) d := by
  simp only [readEffect_no_copy noCopy, holdAfter, h]
  rfl

theorem readEffect_high {d : Device} {fn : FnId} {a : Nat} {q : BitVec 64}
    (noCopy : fn = .pf0 → a ≠ 0x100084 ∧ a ≠ 0x200010) (h : quantity d fn a = none)
    (hq : highQuantity d fn a = some q) :
    readEffect fn a d = modHost (fun x => { x with hold := setHold fn a none x.hold }) d := by
  simp only [readEffect_no_copy noCopy, holdAfter, h, hq]

theorem highQuantity_add_four (d : Device) (fn : FnId) (a : Nat) : highQuantity d fn (a + 4) = quantity d fn a := by
  rw [highQuantity, if_neg (by omega), Nat.add_sub_cancel]

/-- A read of a low word holds the high word, whatever the read's length (R11). -/
theorem doRegRead_low {d : Device} {fn : FnId} {a : Nat} {q : BitVec 64} (serves : fnServes d fn = true)
    (ha : a % 4 = 0) (noCopy : fn = .pf0 → a ≠ 0x100084 ∧ a ≠ 0x200010) (h : quantity d fn a = some q)
    (be : BitVec 4) :
    doRegRead fn a [be] d = complete fn (.data (enabledBytes be (field q 31 0)))
      (modHost (fun x => { x with hold := setHold fn (a + 4) (some (field q 63 32)) x.hold }) d) := by
  rw [doRegRead_served serves ha]
  simp only [readWords, List.nil_append, regValue_low h, readEffect_low noCopy h]

/-- A read of a high word answers the held copy, or the live word where none is held, and uses the copy up (R11). -/
theorem doRegRead_high {d : Device} {fn : FnId} {a : Nat} {q : BitVec 64} (serves : fnServes d fn = true)
    (ha : a % 4 = 0) (noCopy : fn = .pf0 → a + 4 ≠ 0x100084 ∧ a + 4 ≠ 0x200010)
    (h : quantity d fn (a + 4) = none) (hq : quantity d fn a = some q) (be : BitVec 4) :
    doRegRead fn (a + 4) [be] d
      = complete fn (.data (enabledBytes be ((smapGet none (holdOf d.host.hold fn) (a + 4)).getD (field q 63 32))))
        (modHost (fun x => { x with hold := setHold fn (a + 4) none x.hold }) d) := by
  have high := (highQuantity_add_four d fn a).trans hq
  rw [doRegRead_served serves (by omega)]
  simp only [readWords, List.nil_append, regValue_high h high, readEffect_high noCopy h high]

/-- What a function holds it finds again. -/
theorem holdOf_setHold_some (fn : FnId) (a : Nat) (w : Word) (h : HoldRegs) :
    smapGet none (holdOf (setHold fn a (some w) h) fn) a = some w := by
  have kept (m : List (Nat × Option Word)) : smapGet none (smapSet none m a (some w)) a = some w := by
    rw [smapSet, if_neg (by simp), smapGet_put, if_pos rfl]
  cases fn <;> exact kept _

/-! The quantities of the statement: PT_NOW and the bases of rings and proof queues (R26, R495). -/

theorem quantity_ptNow (d : Device) : quantity d .pf0 0x100008 = some d.time.count := rfl

theorem quantity_ptNowHi (d : Device) : quantity d .pf0 0x10000C = none := rfl

theorem quantity_ringBase (d : Device) {r : Nat} (hr : r < 64) :
    quantity d .pf1 (0x1000 * r) = some (vgetN {} d.host.rings r).base := by
  have page : 0x1000 * r / 0x1000 = r := by omega
  rw [quantity, quantity1, if_pos (by omega), if_pos (by omega), page]

theorem quantity_ringBaseHi (d : Device) {r : Nat} (hr : r < 64) : quantity d .pf1 (0x1000 * r + 4) = none := by
  rw [quantity, quantity1, if_pos (by omega), if_neg (by omega)]

theorem quantity_pqBase (d : Device) {q : Nat} (hq : q < 8) :
    quantity d .pf1 (0x40000 + 0x1000 * q) = some (pqueue d q).base := by
  have page : (0x40000 + 0x1000 * q - 0x40000) / 0x1000 = q := by omega
  rw [quantity, quantity1, if_neg (by omega), if_pos (by omega), if_pos (by omega), page]

theorem quantity_pqBaseHi (d : Device) {q : Nat} (hq : q < 8) :
    quantity d .pf1 (0x40000 + 0x1000 * q + 4) = none := by
  rw [quantity, quantity1, if_neg (by omega), if_pos (by omega), if_neg (by omega)]

/-- One read of both words of PT_NOW: the high word it answers is the one that its low word held. -/
theorem doRegRead_ptNow_whole {d : Device} (serves : fnServes d .pf0 = true) :
    doRegRead .pf0 0x100008 [0xF, 0xF] d
      = complete .pf0 (.data (enabledBytes 0xF (field d.time.count 31 0) ++ enabledBytes 0xF (field d.time.count 63 32)))
        (modHost (fun x => { x with
          hold := setHold .pf0 0x10000C none (setHold .pf0 0x10000C (some (field d.time.count 63 32)) x.hold) }) d) := by
  have high (d : Device) : highQuantity d .pf0 0x10000C = some d.time.count := highQuantity_add_four d .pf0 0x100008
  rw [doRegRead_served serves rfl]
  simp only [readWords, List.nil_append, Nat.reduceAdd, regValue_low (quantity_ptNow _),
    readEffect_low (by decide) (quantity_ptNow _), regValue_high (quantity_ptNowHi _) (high _),
    readEffect_high (by decide) (quantity_ptNowHi _) (high _), modHost_host, holdOf_setHold_some, Option.getD_some]
  rfl

/-- Settles O10: each address named is the low or the high word of a quantity, and reads as such. -/
theorem lowWordReads : Obligations.LowWordReads := by
  unfold Obligations.LowWordReads
  intro s awake
  refine ⟨?_, fun free => ⟨?_, ?_, ?_, ?_, ?_⟩⟩
  · intro fn a be more config busy
    rw [exec_lowWordRead, onHost_busy awake busy]
  · intro be serves
    rw [exec_lowWordRead_free awake free, exec_lowWordRead_free awake free]
    exact ⟨congrArg _ (doRegRead_low serves rfl (by decide) (quantity_ptNow s.dev) be),
      congrArg _ (doRegRead_high serves rfl (by decide) (quantity_ptNowHi s.dev) (quantity_ptNow s.dev) be)⟩
  · intro be more a up flr
    rw [exec_lowWordRead_free awake free, doRegRead_inReset (fn := .pf1) up flr]
  · intro be serves r hr
    rw [exec_lowWordRead_free awake free, exec_lowWordRead_free awake free, toNat_regAddr (by omega),
      toNat_regAddr (by omega), doRegRead_low serves (by omega) (by simp) (quantity_ringBase s.dev hr),
      doRegRead_high serves (by omega) (by simp) (quantity_ringBaseHi s.dev hr) (quantity_ringBase s.dev hr)]
    exact ⟨rfl, rfl⟩
  · intro be serves q hq
    have hi : 0x40004 + 0x1000 * q = 0x40000 + 0x1000 * q + 4 := by omega
    rw [hi, exec_lowWordRead_free awake free, exec_lowWordRead_free awake free, toNat_regAddr (by omega),
      toNat_regAddr (by omega), doRegRead_low serves (by omega) (by simp) (quantity_pqBase s.dev hq),
      doRegRead_high serves (by omega) (by simp) (quantity_pqBaseHi s.dev hq) (quantity_pqBase s.dev hq)]
    exact ⟨rfl, rfl⟩
  · intro serves
    rw [exec_lowWordRead_free awake free]
    exact congrArg _ (doRegRead_ptNow_whole serves)

/-! ## The Errata log and the end of an abort (R500 to R507, R521) -/

/-- ERRATA_SPILL has an entry to offer and a queue that takes it (R500). -/
def spillOffers (d : Device) : Prop :=
  d.errata.spill = true ∧ d.errata.paused = false ∧ d.errata.unspilled ≠ 0 ∧
    (pqueue d d.host.errataPq.toNat).enable = true ∧ (pqueue d d.host.errataPq.toNat).holding.length < 256

theorem doErrataSpill_offers {d : Device} (h : spillOffers d) :
    doErrataSpill d = postRec d.host.errataPq.toNat (oldestEntry d.errata)
      (modErrata (fun e => { e with unspilled := e.unspilled - 1 }) d) := by
  obtain ⟨spill, running, entry, enabled, room⟩ := h
  simp [doErrataSpill, spill, running, entry, enabled, room]

theorem doErrataSpill_idle {d : Device} (h : ¬ spillOffers d) : doErrataSpill d = d := by
  rw [doErrataSpill]
  refine if_neg fun offers => h ?_
  simpa [spillOffers, and_assoc] using offers

theorem regValue_erReadData (d : Device) :
    regValue d .pf0 0x200010 = BitVec.ofNat 32 (leAt (errataEntryBytes d) 0 4) := by
  rw [regValue_plain rfl rfl]
  rfl

theorem modHost_hold_same {f : HoldRegs → HoldRegs} (h : ∀ x, f x = x) (d : Device) :
    modHost (fun x => { x with hold := f x.hold }) d = d := by
  simp only [h, modHost]

theorem readEffect_erReadData (d : Device) : readEffect .pf0 0x200010 d =
    modErrata (fun e => { e with readCopy := BitVec.ofNat 512 (leNat (errataEntryBytes d)) }) d :=
  modHost_hold_same (holdAfter_plain rfl rfl) _

theorem complete_data_modErrata (fn : FnId) (l : List Byte) (g : Errata → Errata) (d : Device) :
    complete fn (.data l) (modErrata g d) = modErrata g (emit (.completion fn (.data l)) d) := rfl

theorem doErRead_served {d : Device} (serves : fnServes d .pf0 = true) (be : BitVec 4) :
    doErRead be d = modErrata (fun e => { e with readCopy := BitVec.ofNat 512 (leNat (errataEntryBytes d)) })
      (emit (.completion .pf0 (.data (enabledBytes be (BitVec.ofNat 32 (leAt (errataEntryBytes d) 0 4))))) d) := by
  rw [doErRead, doRegRead_served serves rfl]
  simp only [readWords, List.nil_append, regValue_erReadData, readEffect_erReadData, complete_data_modErrata]

theorem doAbortComplete_eq {d : Device} {id : BitVec 64} {t : Ticket} {a : AbortSt} (ht : ticketById d id = some t)
    (ha : t.abort = some a) : doAbortComplete id d =
      if a.cancelled && (taskPresses d t.slot).all (abortDoneAt d) then finishAbort t a d else d := by
  simp only [doAbortComplete, ht, ha]

/-- At a press whose frisket is open and that is not quiet, only the deadline itself decides (R507). -/
theorem doAbortDeadline_eq {d : Device} {p : Nat} {t : Ticket} {a : AbortSt}
    (ht : (pressTask d p).bind (ticketOf d) = some t) (ha : t.abort = some a) (busy : pressQuiet d p = false)
    (opened : fenced d p = false) : doAbortDeadline p d =
      if a.t0.toNat + 2 + a.bound ≤ d.now then
        faultTask t.slot 0x0A04 (unitPress p) { phase := 3 } none (closeFrisket p 3 d)
      else d := by
  simp [doAbortDeadline, ht, ha, busy, opened]

/-- Settles O51: each command's own equation, on the link's two cases for the host's requests. -/
theorem errataAndAborts : Obligations.ErrataAndAborts := by
  unfold Obligations.ErrataAndAborts
  intro s awake
  refine ⟨?_, ?_, ?_, ?_, ?_, ?_, ?_, ?_, ?_, ?_⟩
  · intro offers
    rw [exec_errataSpill, onDev_nextWith awake, doErrataSpill_offers offers]
  · intro idle
    rw [exec_errataSpill, onDev_nextWith awake, doErrataSpill_idle idle]
  · intro be serves free
    rw [exec_erRead, onHost_free awake free, doErRead_served serves]
    rfl
  · intro be down
    have free : linkBusy s.dev = false := by simp [linkBusy, down]
    rw [exec_erRead, onHost_free awake free, doErRead, doRegRead_linkDown down]
  · intro be up free flr
    rw [exec_erRead, onHost_free awake free, doErRead, doRegRead_inReset (fn := .pf0) up flr]
  · intro busy
    simp only [exec_erClearLost, exec_firstErrorClear, onHost_busy awake busy, implies_true, and_self]
  · intro free
    simp only [exec_erClearLost, exec_firstErrorClear, onHost_free awake free]
    exact ⟨rfl, fun _ => rfl, fun _ => rfl, fun _ => rfl, fun _ => rfl, rfl⟩
  · intro id t a ht ha
    rw [exec_abortComplete, onDev_nextWith awake, doAbortComplete_eq ht ha]
    constructor
    · rintro ⟨cancelled, done⟩
      rw [cancelled, done]
      rfl
    · intro waits
      rw [if_neg (by simpa using waits)]
  · intro p
    refine ⟨?_, ?_, ?_⟩
    · rintro (h | h | h) <;> simp only [abortDoneAt, h]
    · intro h
      simp only [abortDoneAt, h]
    · rintro (h | h) <;> simp only [abortDoneAt, h]
  · intro p t a ht ha busy opened
    rw [exec_abortDeadline, onDev_nextWith awake, doAbortDeadline_eq ht ha busy opened]
    exact ⟨fun due => by rw [if_pos due], fun early => by rw [if_neg (by omega)]⟩

end Sys2Proof.Machine
end

section
/-!
PROOFS of the family 01_press_time: the passing of a point, the time inputs, rings and tickets, admission with its search and
its safety, entries of the imposition table as they fire and end, and the resets of the part. The lemmas that say what each
operation does stand before the obligation that is assembled from them.
-/
namespace Sys2Proof.Machine

/-! ## The passing of a point (R25, R26, R28) -/

theorem step_nil {s : State} (h : s.pending = []) : step s = .next { s with dev := idle s.dev } := by
  unfold step
  rw [h]

theorem idle_asleep {d : Device} (h : asleep d = true) : idle d = d := if_pos h

theorem idle_awake {d : Device} (h : asleep d = false) : idle d = settled (drainLink (tick d)) := by
  rw [idle, h]
  rfl

/-- The count stands at point 0 of a sheet and moves on. -/
def leavesBoundary (t : PressTime) : Bool := t.suppress = 0 && t.count.toNat % 4096 = 0

/-- The count moves to point 0 of a sheet. -/
def entersSheet (t : PressTime) : Bool := t.suppress = 0 && (t.count + 1).toNat % 4096 = 0

theorem leaveBoundary_eq (t : PressTime) : leaveBoundary t =
    let leaves : Bool := t.count.toNat % 4096 = 0
    { t with
      edgePlaced := t.edgePlaced && !leaves
      mismatch := if leaves then none else t.mismatch
      missedEdges := if leaves && !t.edgePlaced then t.missedEdges + 1 else t.missedEdges
      syncOk := t.syncOk && !(leaves && !t.edgePlaced) } := by
  unfold leaveBoundary
  by_cases at0 : t.count.toNat % 4096 = 0
  · cases placed : t.edgePlaced <;> simp [at0]
  · simp [at0]

theorem tickTime_eq (t : PressTime) : tickTime t =
    { t with
      count := if t.suppress = 0 then t.count + 1 else t.count
      suppress := t.suppress - 1
      refPoints := if t.refOk then min 4096 (t.refPoints + 1) else 0
      edgePlaced := t.edgePlaced && !leavesBoundary t
      mismatch := if leavesBoundary t then none else t.mismatch
      missedEdges := if leavesBoundary t && !t.edgePlaced then t.missedEdges + 1 else t.missedEdges
      syncOk := t.syncOk && !(leavesBoundary t && !t.edgePlaced)
      holdoverSheets := if entersSheet t && (t.state = .holdover || t.state = .lost) then satAdd t.holdoverSheets 1
                        else t.holdoverSheets
      missedFrames := if entersSheet t then (if t.frameLocal then 0 else t.missedFrames + 1) else t.missedFrames
      frameLocal := t.frameLocal && !entersSheet t } := by
  by_cases free : t.suppress = 0
  · by_cases new : (t.count + 1#64).toNat % 4096 = 0
    · simp [tickTime, leaveBoundary_eq, enterSheet, leavesBoundary, entersSheet, free, new, -BitVec.toNat_add]
    · simp [tickTime, leaveBoundary_eq, leavesBoundary, entersSheet, free, new, -BitVec.toNat_add]
  · simp [tickTime, leavesBoundary, entersSheet, free]

/-- The point that passes begins a sheet just where the count moves to a boundary. -/
theorem newSheet_eq_entersSheet (t : PressTime) :
    (decide ((tickTime t).count ≠ t.count) && decide ((tickTime t).count.toNat % 4096 = 0)) = entersSheet t := by
  by_cases free : t.suppress = 0 <;> simp [tickTime_eq, entersSheet, free]

theorem placeWakeAt_unarmed {d : Device} (h : d.power.wakeWait = none) : placeWakeAt d = d := by
  rw [placeWakeAt, h]

theorem stretchPoint_eq (d : Device) : stretchPoint d =
    { d with presses := if stretchLevel d.power = 0 then d.presses
                        else d.presses.map fun x =>
                          if pressHasWork x then
                            { x with stalls := { x.stalls with throttle := satAdd x.stalls.throttle (stretchLevel d.power) } }
                          else x } := by
  unfold stretchPoint
  by_cases off : stretchLevel d.power = 0 <;> simp [off]

/-- A session loses the sheet that a new sheet begins (R557). -/
def sheetLost (enters : Bool) (x : Trust) : Trust :=
  { x with sheets := if enters && x.session && x.sheets ≠ 0 then x.sheets - 1 else x.sheets }

theorem modTrust_sheetLost (enters : Bool) (d : Device) : modTrust (sheetLost enters) d =
    if enters && d.trust.session && d.trust.sheets ≠ 0 then modTrust (fun x => { x with sheets := x.sheets - 1 }) d else d := by
  by_cases loses : (enters && d.trust.session && decide (d.trust.sheets ≠ 0)) = true
  · simp only [modTrust, sheetLost, if_pos loses]
  · simp only [modTrust, sheetLost, if_neg loses]

/-- A point of an awake part with no armed wake: the time moves, the stretch takes its cycles, a session its sheet. -/
theorem tick_unarmed {d : Device} (awake : asleep d = false) (unarmed : d.power.wakeWait = none) :
    tick d = modTrust (sheetLost (entersSheet d.time)) (stretchPoint { d with time := tickTime d.time }) := by
  have still : placeWakeAt (stretchPoint { d with time := tickTime d.time }) = stretchPoint { d with time := tickTime d.time } :=
    placeWakeAt_unarmed (by rw [stretchPoint_eq]; exact unarmed)
  simp only [tick, awake, newSheet_eq_entersSheet, still, ite_self, Bool.false_eq_true, if_false, modTrust_sheetLost]

/-! ## The requests that wait on the link (R424, R472) -/

theorem drainLink_linkDown {d : Device} (h : d.host.linkUp = false) : drainLink d = d := by
  rw [drainLink, h]
  rfl

theorem drainLink_none {d : Device} (h : linkNext d d.host.link = none) : drainLink d = d := by
  rw [drainLink, h]
  exact ite_self d

theorem drainLink_some {d : Device} {i : Nat} {r : LinkReq} (up : d.host.linkUp = true)
    (next : linkNext d d.host.link = some i) (hr : d.host.link[i]? = some r) :
    drainLink d = settleLink (takeRequest r (modHost (fun h => { h with link := removeAt h.link i }) d)) := by
  simp only [drainLink, up, next, hr]
  rfl

/-- The request that is taken need not wait, and those before it are no posted writes and wait. -/
theorem linkNext_some {d : Device} {l : List LinkReq} {i : Nat} (h : linkNext d l = some i) :
    (∃ r, l[i]? = some r ∧ requestWaits d r = false) ∧
    ∀ j < i, ∃ q, l[j]? = some q ∧ q.posted = false ∧ requestWaits d q = true := by
  induction l generalizing i with
  | nil => cases h
  | cons r rest ih =>
    rw [linkNext] at h
    split at h
    · next ready =>
      cases h
      exact ⟨⟨r, rfl, by simpa using ready⟩, fun j hj => absurd hj (Nat.not_lt_zero j)⟩
    · next waits =>
      split at h
      · cases h
      · next read =>
        obtain ⟨k, hk, rfl⟩ := Option.map_eq_some_iff.mp h
        obtain ⟨taken, before⟩ := ih hk
        refine ⟨taken, fun j hj => ?_⟩
        cases j with
        | zero => exact ⟨r, rfl, by simpa using read, by simpa using waits⟩
        | succ j => exact before j (Nat.lt_of_succ_lt_succ hj)

/-- Settles O2: `tick` is the record of the statement, and `drainLink` splits on the link's next request. -/
theorem idleStepIsOnePoint : Obligations.IdleStepIsOnePoint := by
  unfold Obligations.IdleStepIsOnePoint
  refine ⟨?_, ?_, fun _ _ _ => linkNext_some⟩
  · intro s empty sleeps
    rw [step_nil empty, idle_asleep sleeps]
  · intro s empty awake unarmed t leaves enters level d
    have point : tick s.dev = d := by
      rw [tick_unarmed awake unarmed, stretchPoint_eq, tickTime_eq]
      rfl
    have answer : step s = nextWith s (drainLink d) := by
      rw [step_nil empty, idle_awake awake, point]
      rfl
    refine ⟨fun i r up next hr => ?_, ?_⟩
    · rw [answer, drainLink_some (d := d) up next hr]
    · rintro (none | down)
      · rw [answer, drainLink_none (d := d) none]
      · rw [answer, drainLink_linkDown (d := d) down]

/-! ## The time inputs (R22 to R34, R59, R60) -/

/-- The edge stands on a local sheet boundary (R24). -/
def edgeAligned (d : Device) (phase : Int) : Prop := ((d.point : Int) + phase) % 4096 = 0

theorem edgeAligned_zero {d : Device} (h : d.point = 0) : edgeAligned d 0 := by simp [edgeAligned, h]

theorem doPtSyncEdge_noRef {d : Device} (h : d.time.refOk = false) (n : Nat) (phase : Int) : doPtSyncEdge n phase d = d := by
  rw [doPtSyncEdge, h]
  rfl

/-- An aligned edge with the reference in tolerance: what it does is a matter of the time state alone. -/
theorem doPtSyncEdge_aligned {d : Device} (ref : d.time.refOk = true) {phase : Int} (al : edgeAligned d phase) (n : Nat) :
    doPtSyncEdge n phase d =
      if d.time.state = .locked then
        if phase = 0 then noteEdge n (placedEdge d)
        else modTime (fun t => { t with syncSlips := satAdd t.syncSlips 1 }) d
      else if restorable d.time && n = 1600 then noteEdge n (restoreTime phase d)
      else noteEdge n d := by
  rw [doPtSyncEdge, ref, if_neg]
  simpa [edgeAligned] using al

theorem doPtSyncEdge_placed {d : Device} (ref : d.time.refOk = true) (locked : d.time.state = .locked) (at0 : d.point = 0)
    (n : Nat) : doPtSyncEdge n 0 d = noteEdge n (placedEdge d) := by
  rw [doPtSyncEdge_aligned ref (edgeAligned_zero at0), if_pos locked, if_pos rfl]

theorem doPtSyncEdge_slip {d : Device} (ref : d.time.refOk = true) (locked : d.time.state = .locked) {phase : Int}
    (off : phase ≠ 0) (al : edgeAligned d phase) (n : Nat) :
    doPtSyncEdge n phase d = modTime (fun t => { t with syncSlips := satAdd t.syncSlips 1 }) d := by
  rw [doPtSyncEdge_aligned ref al, if_pos locked, if_neg off]

theorem doPtSyncEdge_noted {d : Device} (ref : d.time.refOk = true) (unlocked : d.time.state ≠ .locked) {phase : Int}
    (al : edgeAligned d phase) {n : Nat} (h : restorable d.time = false ∨ n ≠ 1600) :
    doPtSyncEdge n phase d = noteEdge n d := by
  rw [doPtSyncEdge_aligned ref al, if_neg unlocked, if_neg]
  rcases h with h | h <;> simp [h]

theorem doPtSyncEdge_restores {d : Device} (ref : d.time.refOk = true) (unlocked : d.time.state ≠ .locked) {phase : Int}
    (al : edgeAligned d phase) (h : restorable d.time = true) :
    doPtSyncEdge 1600 phase d = noteEdge 1600 (restoreTime phase d) := by
  rw [doPtSyncEdge_aligned ref al, if_neg unlocked, if_pos (by simp [h])]

/-! What an edge does to the count, in the words of the statement. -/

/-- A correctly placed edge has been noted. -/
def edgeSeen : Device → Device :=
  modTime fun t => { t with syncOk := true, edgePlaced := true, missedEdges := 0, mismatch := none }

theorem placedEdge_agrees {d : Device} (h : d.time.mismatch = none) : placedEdge d = edgeSeen d := by
  simp only [placedEdge, h]
  rfl

/-- The whole sheets by which an announced sheet differs from the local one. -/
def announcedStep (d : Device) (n : BitVec 52) : Int := n.toNat - d.sheet

theorem placedEdge_steps {d : Device} {n : BitVec 52} (h : d.time.mismatch = some n) (near : (announcedStep d n).natAbs ≤ 16) :
    placedEdge d = stepCount (announcedStep d n) 0 (edgeSeen d) := by
  simp only [placedEdge, h]
  exact if_pos near

theorem placedEdge_adopts {d : Device} {n : BitVec 52} (h : d.time.mismatch = some n) (far : 16 < (announcedStep d n).natAbs) :
    placedEdge d = enterLocked (adoptCount n.toNat (announcedStep d n) 0 (edgeSeen d)) := by
  simp only [placedEdge, h]
  exact if_neg (Nat.not_le.mpr far)

/-- At a boundary a step of whole sheets puts the count at the start of the sheet that it goes to. -/
theorem moveCount_onBoundary {d : Device} (at0 : d.point = 0) (n : Nat) :
    moveCount (n - d.sheet) 0 d = modTime (fun t => { t with count := BitVec.ofNat 64 (4096 * n), suppress := 0 }) d := by
  have whole : (d.time.count.toNat : Int) + 4096 * ((n : Int) - d.sheet) + max 0 0 = (4096 * n : Nat) := by
    have := Nat.div_add_mod d.now 4096
    simp only [Device.point, Device.sheet, Device.now] at *
    omega
  have count : BitVec.ofInt 64 (d.time.count.toNat + 4096 * ((n : Int) - d.sheet) + max 0 0) = BitVec.ofNat 64 (4096 * n) := by
    rw [whole, BitVec.ofInt_natCast]
  simp only [moveCount, modTime, count]
  rfl

theorem restoreTime_set {d : Device} (h : d.time.state = .unsynced ∨ d.time.state = .acquiring) (phase : Int) :
    restoreTime phase d = enterLocked (modTime (fun t => { t with
      count := if t.codeRequired then BitVec.ofNat 64 (4096 * (d.time.lastFrame.map BitVec.toNat).getD 0) else 0,
      suppress := 0 }) d) := by
  rcases h with h | h <;> simp only [restoreTime, h]

/-- The whole sheets by which time is stepped where it is restored (R32). -/
def restoreStep (d : Device) (phase : Int) : Int :=
  if d.time.codeRequired then (d.time.lastFrame.map BitVec.toNat).getD 0 - nearSheet d phase else 0

theorem restoreTime_move {d : Device} (h : d.time.state = .holdover ∨ d.time.state = .lost) (phase : Int) :
    restoreTime phase d =
      if phase.natAbs ≤ 256 ∧ (restoreStep d phase).natAbs ≤ 16 then enterLocked (stepCount (restoreStep d phase) phase d)
      else enterLocked (adoptCount
        (if d.time.codeRequired then (d.time.lastFrame.map BitVec.toNat).getD 0 else d.sheet + 1)
        (restoreStep d phase) phase d) := by
  rcases h with h | h <;> simp only [restoreTime, h] <;> rfl

theorem doPtCodeFrame_ignored {d : Device} (h : d.time.refOk = false ∨ d.time.codeRequired = false) (f : BitVec 100) :
    doPtCodeFrame f d = d := by
  rw [doPtCodeFrame, if_pos]
  rcases h with h | h <;> simp [h]

theorem doPtCodeFrame_valid {d : Device} (ref : d.time.refOk = true) (code : d.time.codeRequired = true) {f : BitVec 100}
    (h : frameValid f = true) : doPtCodeFrame f d = modTime (fun t =>
      { t with codeOk := true, srcHoldover := bit f 39, frameSeen := true, frameLocal := true,
               lastFrame := some (frameNext f),
               frameRun := if t.lastFrame = some (frameNext f - 1) then t.frameRun + 1 else 1,
               mismatch := if t.state = .locked ∧ (frameNext f).toNat ≠ d.sheet + 1 then some (frameNext f)
                           else t.mismatch }) d := by
  simp [doPtCodeFrame, ref, code, h]

theorem doPtCodeFrame_invalid {d : Device} (ref : d.time.refOk = true) (code : d.time.codeRequired = true) {f : BitVec 100}
    (h : frameValid f = false) : doPtCodeFrame f d =
      modTime (fun t => { t with codeOk := false, codeErrors := satAdd t.codeErrors 1, frameRun := 0 }) d := by
  simp [doPtCodeFrame, ref, code, h]

theorem enterHoldover_locked {d : Device} (h : d.time.state = .locked) :
    enterHoldover d = timeRec 0x0102 0 0 (modTime (fun t => { t with state := .holdover, mismatch := none }) d) := if_pos h

theorem enterHoldover_unlocked {d : Device} (h : d.time.state ≠ .locked) : enterHoldover d = d := if_neg h

theorem doHoldoverExpired_lost {d : Device} (h : d.time.state = .holdover) (long : 1024 ≤ d.time.holdoverSheets.toNat) :
    doHoldoverExpired d = loseTickets (modTime (fun t => { t with state := .lost }) d) := by
  simp [doHoldoverExpired, h, long]

theorem doRefclkInTolerance_first {d : Device} (h : d.time.refOk = false) : doRefclkInTolerance d =
    modTime (fun t => { t with refOk := true, refPoints := 0,
                               state := if t.state = .unsynced then .acquiring else t.state }) d := by
  rw [doRefclkInTolerance, h]
  rfl

/-- Settles O6: each command by its own equation on the states of time; an edge first by alignment and state. -/
theorem timeInputs : Obligations.TimeInputs := by
  unfold Obligations.TimeInputs
  intro s awake d edge placed lock record adopt
  have edges (n : Nat) (phase : Int) {x : Device} (h : doPtSyncEdge n phase d = x) :
      exec (.ptSyncEdge n phase) s = nextWith s x := by rw [exec_ptSyncEdge, onDev_nextWith awake, h]
  have frames (f : BitVec 100) {x : Device} (h : doPtCodeFrame f d = x) :
      exec (.ptCodeFrame f) s = nextWith s x := by rw [exec_ptCodeFrame, onDev_nextWith awake, h]
  have lost (i : TimeInput) {x : Device} (h : doInputLost i d = x) :
      exec (.inputLost i) s = nextWith s x := by rw [exec_inputLost, onDev_nextWith awake, h]
  refine ⟨?_, ?_, ?_, ?_, ?_, ?_, ?_, ?_, ?_, ?_, ?_, ?_⟩
  · intro noRef
    refine ⟨?_, fun n phase => edges n phase (doPtSyncEdge_noRef noRef n phase),
      fun f => frames f (doPtCodeFrame_ignored (.inl noRef) f)⟩
    rw [exec_refclkInTolerance, onDev_nextWith awake, doRefclkInTolerance_first noRef]
  · intro n ref locked at0
    refine ⟨fun agrees => edges n 0 ?_, fun sheet differs => ⟨fun near => edges n 0 ?_, fun far => edges n 0 ?_⟩⟩
    · rw [doPtSyncEdge_placed ref locked at0, placedEdge_agrees agrees]
      rfl
    · have move : moveCount (sheet.toNat - d.sheet) 0 (edgeSeen d) = _ := moveCount_onBoundary (d := edgeSeen d) at0 sheet.toNat
      rw [doPtSyncEdge_placed ref locked at0, placedEdge_steps differs near, stepCount, announcedStep, move]
      rfl
    · rw [doPtSyncEdge_placed ref locked at0, placedEdge_adopts differs far]
      rfl
  · intro n phase ref locked off al
    exact edges n phase (doPtSyncEdge_slip ref locked off al n)
  · intro n phase ref unlocked h al
    exact edges n phase (doPtSyncEdge_noted ref unlocked al h)
  · intro phase ref restores al next
    have restored (unlocked : d.time.state ≠ .locked) {x : Device} (h : restoreTime phase d = x) :
        exec (.ptSyncEdge 1600 phase) s = nextWith s (noteEdge 1600 x) :=
      edges 1600 phase (h ▸ doPtSyncEdge_restores ref unlocked al restores)
    refine ⟨fun begun => ?_, fun held => ?_⟩
    · have unlocked : d.time.state ≠ .locked := by rcases begun with h | h <;> simp [h]
      exact restored unlocked (restoreTime_set begun phase)
    · have unlocked : d.time.state ≠ .locked := by rcases held with h | h <;> simp [h]
      refine ⟨fun near => ?_, fun far => ?_⟩
      · exact restored unlocked ((restoreTime_move held phase).trans (if_pos near))
      · have notNear : ¬ (phase.natAbs ≤ 256 ∧ (restoreStep d phase).natAbs ≤ 16) := fun near =>
          far.elim (fun h => absurd near.1 (Nat.not_le.mpr h)) fun h => absurd near.2 (Nat.not_le.mpr h)
        exact restored unlocked ((restoreTime_move held phase).trans (if_neg notNear))
  · exact fun f ref code valid => frames f (doPtCodeFrame_valid ref code valid)
  · exact fun f ref code bad => frames f (doPtCodeFrame_invalid ref code bad)
  · exact fun f code => frames f (doPtCodeFrame_ignored (.inr code) f)
  · intro locked
    refine ⟨lost .refclk ?_, fun missed => lost .sync ?_, fun code missed => lost .code ?_⟩
    · exact enterHoldover_locked locked
    · rw [doInputLost, if_pos missed, enterHoldover_locked locked]
    · rw [doInputLost, if_pos (by simp [code, missed]), enterHoldover_locked locked]
  · intro unlocked
    refine ⟨lost .refclk ?_, lost .sync ?_, lost .code ?_⟩
    · exact enterHoldover_unlocked unlocked
    · rw [doInputLost, enterHoldover_unlocked unlocked, ite_self]
    · rw [doInputLost, enterHoldover_unlocked unlocked, ite_self]
  · intro held long
    rw [exec_holdoverExpired, onDev_nextWith awake, doHoldoverExpired_lost held long]
  · intro free
    rw [exec_ptClearCounts, onHost_free awake free, doPtClearCounts]

/-! ## Table reads, doorbells and ticket reads (R43, R65, R483 to R485) -/

theorem regValue_mkTableData (d : Device) :
    regValue d .pf0 0x100084 = field (getEntry d d.mkr.tableIndex.toNat) 31 0 := by
  rw [regValue_plain rfl rfl]
  rfl

theorem readEffect_mkTableData (d : Device) : readEffect .pf0 0x100084 d =
    modMk (fun m => { m with tableCopy := getEntry d m.tableIndex.toNat }) d :=
  modHost_hold_same (holdAfter_plain rfl rfl) _

theorem doMkTableRead_served {d : Device} (serves : fnServes d .pf0 = true) (be : BitVec 4) :
    doMkTableRead be d = complete .pf0 (.data (enabledBytes be (field (getEntry d d.mkr.tableIndex.toNat) 31 0)))
      (modMk (fun m => { m with tableCopy := getEntry d m.tableIndex.toNat }) d) := by
  rw [doMkTableRead, doRegRead_served serves rfl]
  simp only [readWords, List.nil_append, regValue_mkTableData, readEffect_mkTableData]

theorem doDoorbell_reported {d : Device} (serves : fnServes d .pf1 = true) {r : RingId} {tail : BitVec 12}
    (h : (vgetN {} d.host.rings r.1).enable = false ∨ (vgetN {} d.host.rings r.1).size.toNat ≤ tail.toNat) :
    doDoorbell r tail d = logPlain unitHost 0x0705 (noTask d unitHost) d := by
  have outside : (!(vgetN {} d.host.rings r.1).enable ||
      decide ((vgetN {} d.host.rings r.1).size.toNat ≤ tail.toNat)) = true := by
    simp only [Bool.or_eq_true, Bool.not_eq_true', decide_eq_true_eq]
    exact h
  simp only [doDoorbell, serves, outside]
  rfl

theorem doDoorbell_rings {d : Device} (serves : fnServes d .pf1 = true) {r : RingId} {tail : BitVec 12}
    (enabled : (vgetN {} d.host.rings r.1).enable = true)
    (inside : tail.toNat < (vgetN {} d.host.rings r.1).size.toNat) (new : tail ≠ (vgetN {} d.host.rings r.1).tail) :
    doDoorbell r tail d = wakeEvent 2 none .host
      (modHost (fun h =>
          if h.doorbells.any (queuedEntry r.1) then
            { h with doorbells := modWhere (queuedEntry r.1) (fun e => { e with tail := tail.toNat }) h.doorbells }
          else { h with doorbells := h.doorbells ++ [⟨r.1, tail.toNat, false⟩] })
        (modRing r.1 (fun x => { x with tail := tail }) d)) := by
  have taken : (!(vgetN {} d.host.rings r.1).enable ||
      decide ((vgetN {} d.host.rings r.1).size.toNat ≤ tail.toNat)) = false := by
    simp only [enabled, Nat.not_le.mpr inside]
    rfl
  simp only [doDoorbell, serves, taken, if_neg new]
  by_cases queued : d.host.doorbells.any (queuedEntry r.1) = true <;> simp [modHost, modRing, queued]

/-- Nothing keeps Makeready from the first entry of the doorbell queue: no ticket is in progress, its ring runs, and nothing
holds tickets back (R482, R484). -/
structure ServiceReady (d : Device) (e : Doorbell) : Prop where
  unread  : d.host.reading = none
  idle    : d.mkr.admission = none
  enabled : (vgetN {} d.host.rings e.ring).enable = true
  running : (vgetN {} d.host.rings e.ring).closing = false
  free    : ticketsHeld d (vgetN {} d.host.rings e.ring).pq.toNat = false

theorem doDoorbellService_eq {d : Device} {e : Doorbell} {l : List Doorbell} (first : d.host.doorbells = e :: l)
    (ready : ServiceReady d e) : doDoorbellService d =
      let x := vgetN {} d.host.rings e.ring
      if e.tail = x.head.toNat then modHost (fun h => { h with doorbells := l }) d
      else emit (.hostRead (x.base.toNat + 64 * x.head.toNat) 64)
        (modHost (fun h => { h with doorbells := { e with begun := true } :: l,
                                    reading := some (e.ring, x.head.toNat, x.pq.toNat) }) d) := by
  obtain ⟨unread, idle, enabled, running, free⟩ := ready
  simp only [doDoorbellService, first, unread, idle, enabled, running, free]
  rfl

theorem doTicketReadFailed_eq {d : Device} {r i q : Nat} (h : d.host.reading = some (r, i, q)) (poisoned : Bool) :
    doTicketReadFailed poisoned d =
      ringSettle r (refuse 0x0702 0 r i q 0 0 0 (readEnd r (if poisoned then notePoison .pf1 d else d))) := by
  simp only [doTicketReadFailed, h]

theorem hostWrite_clean (fn : FnId) (g : Device → Device) (d : Device) : hostWrite fn false g d = g d := rfl

/-- Settles O11: each command by its own equation, a host's row on the link's two cases. -/
theorem doorbellsAndTicketReads : Obligations.DoorbellsAndTicketReads := by
  unfold Obligations.DoorbellsAndTicketReads
  intro s awake d
  refine ⟨?_, ?_, ?_, ?_, ?_⟩
  · intro be busy
    rw [exec_mkTableRead, onHost_busy awake busy]
  · intro be free serves
    rw [exec_mkTableRead, onHost_free awake free, doMkTableRead_served serves]
  · intro r tail serves x
    refine ⟨fun busy => ?_, fun free enabled inside new => ?_, fun free outside => ?_⟩
    · rw [exec_doorbell, onHost_busy awake busy]
    · rw [exec_doorbell, onHost_free awake free, hostWrite_clean, doDoorbell_rings serves enabled inside new]
    · rw [exec_doorbell, onHost_free awake free, hostWrite_clean, doDoorbell_reported serves outside]
  · intro e l first unread idle x enabled running free
    have service := doDoorbellService_eq first ⟨unread, idle, enabled, running, free⟩
    rw [exec_doorbellService, onDev_nextWith awake, service]
    exact ⟨fun done => congrArg (nextWith s) (if_pos done), fun more => congrArg (nextWith s) (if_neg more)⟩
  · intro r i q reading
    rw [exec_ticketReadFailed, exec_ticketReadFailed, onDev_nextWith awake, onDev_nextWith awake,
      doTicketReadFailed_eq reading, doTicketReadFailed_eq reading]
    exact ⟨rfl, rfl⟩

/-! ## Ticket operations (R44, R480, R481) -/

theorem takeTicket_noImage (op : Nat) (t : BitVec 512) {d : Device} (h : noImage d = true) : takeTicket op t d = d := by
  unfold takeTicket
  split
  · rfl
  · rw [if_pos (by simp [h])]

theorem takeTicket_refused {d : Device} {r i q op : Nat} {t : BitVec 512} {c : BitVec 16}
    (reading : d.host.reading = some (r, i, q)) (image : noImage d = false)
    (fails : openingCheck (readEnd r d) t = some c) (hop : tkOp t = op) :
    takeTicket op t d = ringSettle r (refuse c (tkId t) r i q op 0 0 (readEnd r d)) := by
  simp [takeTicket, reading, image, hop, fails]

theorem takeTicket_admitted {d : Device} {r i q op : Nat} {t : BitVec 512} (reading : d.host.reading = some (r, i, q))
    (image : noImage d = false) (passes : openingCheck (readEnd r d) t = none) (hop : tkOp t = op) :
    takeTicket op t d = noteRead (tkImp t) 64 4 none
      (modMk (fun m => { m with admission := some ⟨r, i, q, t, false⟩ }) (readEnd r d)) := by
  simp [takeTicket, reading, image, hop, passes]

theorem takeControl_acts {d : Device} {r i q op : Nat} {t : BitVec 512} {x : Ticket}
    (reading : d.host.reading = some (r, i, q)) (ok : ticketOk t = true)
    (target : openTarget (readEnd r d) (tkId t) = some x) (hop : tkOp t = op) (act : Ticket → Device → Device) :
    takeControl op t act d = ringSettle r (act x (readEnd r d)) := by
  simp [takeControl, reading, hop, ok, target]

theorem takeControl_refused {d : Device} {r i q op : Nat} {t : BitVec 512} (reading : d.host.reading = some (r, i, q))
    (ok : ticketOk t = true) (target : openTarget (readEnd r d) (tkId t) = none) (hop : tkOp t = op)
    (act : Ticket → Device → Device) :
    takeControl op t act d = ringSettle r (refuse 0x0703 (tkId t) r i q op 0 0 (readEnd r d)) := by
  simp [takeControl, reading, hop, ok, target]

theorem pauseTicket_paused {x : Ticket} (h : x.pause.isSome = true) (addr : Nat) (d : Device) : pauseTicket x addr d = d :=
  if_pos h

theorem pauseTicket_started {x : Ticket} (unpaused : x.pause = none) (begun : x.started = true) (addr : Nat) (d : Device) :
    pauseTicket x addr d =
      (taskPresses (modTicket x.slot (fun y => { y with pause := some ⟨addr, d.time.count⟩ }) (withdraw x d)) x.slot).foldl
        requestPreempt (modTicket x.slot (fun y => { y with pause := some ⟨addr, d.time.count⟩ }) (withdraw x d)) := by
  simp only [pauseTicket, unpaused, begun]
  rfl

theorem pauseTicket_unstarted {x : Ticket} (unpaused : x.pause = none) (unbegun : x.started = false) (addr : Nat) (d : Device) :
    pauseTicket x addr d = dropTicket x.slot (pausedRec x addr 0 false (releaseEntries x (withdraw x d))) := by
  simp only [pauseTicket, unpaused, unbegun]
  rfl

/-- Settles O12: the ticket that has been read goes by `takeTicket` or `takeControl`, and a pause by its target's state. -/
theorem ticketOperations : Obligations.TicketOperations := by
  unfold Obligations.TicketOperations
  intro s awake r i q reading d
  have submit (t : BitVec 512) {x : Device} (h : takeTicket 0 t s.dev = x) : exec (.submit t) s = nextWith s x := by
    rw [exec_submit, onDev_nextWith awake, h]
  have resume (t : BitVec 512) {x : Device} (h : takeTicket 1 t s.dev = x) : exec (.resume t) s = nextWith s x := by
    rw [exec_resume, onDev_nextWith awake, h]
  have pause (t : BitVec 512) {x : Device} (h : doPause t s.dev = x) : exec (.pause t) s = nextWith s x := by
    rw [exec_pause, onDev_nextWith awake, h]
  have abort (t : BitVec 512) {x : Device} (h : doAbort t s.dev = x) : exec (.abort t) s = nextWith s x := by
    rw [exec_abort, onDev_nextWith awake, h]
  refine ⟨?_, ?_, ?_, ?_, ?_⟩
  · intro t none
    exact ⟨submit t (takeTicket_noImage 0 t none), resume t (takeTicket_noImage 1 t none)⟩
  · intro t c image fails
    exact ⟨fun op => submit t (takeTicket_refused reading image fails op),
      fun op => resume t (takeTicket_refused reading image fails op)⟩
  · intro t image passes
    exact ⟨fun op => submit t (takeTicket_admitted reading image passes op),
      fun op => resume t (takeTicket_admitted reading image passes op)⟩
  · intro t x ok target
    refine ⟨fun op unpaused begun => pause t ?_, fun op unpaused unbegun => pause t ?_, fun op paused => pause t ?_,
      fun op => abort t ?_⟩
    · rw [doPause, takeControl_acts reading ok target op, pauseTicket_started unpaused begun]
    · rw [doPause, takeControl_acts reading ok target op, pauseTicket_unstarted unpaused unbegun]
    · rw [doPause, takeControl_acts reading ok target op, pauseTicket_paused paused]
    · rw [doAbort, takeControl_acts reading ok target op]
  · intro t ok target
    exact ⟨fun op => pause t (takeControl_refused reading ok target op _),
      fun op => abort t (takeControl_refused reading ok target op _)⟩

/-! ## Admission (R44, R46) -/

theorem doAdmit_waits {d : Device} (h : busesIssue d = false ∨ noImage d = true) : doAdmit d = d := by
  unfold doAdmit
  split
  · rfl
  · rw [if_pos (by rcases h with h | h <;> simp [h])]

/-- The ticket of an admission is refused. -/
def refuseAdmission (a : Admission) (code : BitVec 16) (first done : Nat) (d : Device) : Device :=
  refuse code (tkId a.ticket) a.ring a.index a.pq (tkOp a.ticket) first done d

/-- The first sheet that the search of an admission tries. -/
def firstCandidate (a : Admission) (d : Device) : Nat := max (fullSheet d.sheet (tkStart a.ticket)) (leadSheet d)

/-- The search of an admission. -/
def admissionSearch (a : Admission) (imp : Imp) (d : Device) : SearchOut :=
  searchFrom d imp (tkClass a.ticket) (fullSheet d.sheet (tkDeadline a.ticket)) (max 1 (min 4096 d.mkr.search.toNat))
    (firstCandidate a d)

/-- The answer to an imposition that has been read and is well formed. -/
def judge (a : Admission) (imp : Imp) (d : Device) : Device :=
  if needsOffline d imp then refuseAdmission a 0x0A07 0 0 d
  else if !fitsEmpty d imp (tkClass a.ticket) then refuseAdmission a 0x0112 0 0 d
  else if needsOverrun d imp then refuseAdmission a 0x0110 (firstCandidate a d) 0 d
  else match admissionSearch a imp d, freeSlot d with
    | .placed p, some slot => acceptTicket a imp p slot d
    | .placed _, none => refuseAdmission a 0x0110 (firstCandidate a d) 0 d
    | .deadline done, _ => refuseAdmission a 0x0111 (firstCandidate a d) done d
    | .noRoom, _ => refuseAdmission a 0x0110 (firstCandidate a d) 0 d

/-- The admission in hand is taken up, and its imposition read where the read has not failed. -/
def admissionRead (a : Admission) (d : Device) : Device × Option Imp :=
  let d := modMk (fun m => { m with admission := none }) d
  if a.lost then (d, none) else readImp (tkImp a.ticket) d

section
variable {d : Device} {a : Admission} (adm : d.mkr.admission = some a) (issue : busesIssue d = true)
  (image : noImage d = false)
include adm issue image

theorem doAdmit_refusedByState {c : BitVec 16} (h : stateRefusal d.time.state = some c) : doAdmit d =
    ringSettle a.ring (refuseAdmission a c 0 0 (modMk (fun m => { m with admission := none }) d)) := by
  simp only [doAdmit, adm, issue, image, modMk_time, h]
  rfl

theorem doAdmit_badImposition {e : Device} (locked : d.time.state = .locked) (h : admissionRead a d = (e, none)) :
    doAdmit d = ringSettle a.ring (refuseAdmission a 0x0115 0 0 e) := by
  simp only [admissionRead] at h
  simp only [doAdmit, adm, issue, image, modMk_time, locked, stateRefusal, h]
  rfl

theorem doAdmit_judged {e : Device} {imp : Imp} (locked : d.time.state = .locked) (h : admissionRead a d = (e, some imp)) :
    doAdmit d = ringSettle a.ring (judge a imp e) := by
  simp only [admissionRead] at h
  simp only [doAdmit, adm, issue, image, modMk_time, locked, stateRefusal, h]
  rfl

end

theorem judge_offline {a : Admission} {imp : Imp} {d : Device} (h : needsOffline d imp = true) :
    judge a imp d = refuseAdmission a 0x0A07 0 0 d := if_pos h

theorem judge_overBudget {a : Admission} {imp : Imp} {d : Device} (online : needsOffline d imp = false)
    (h : fitsEmpty d imp (tkClass a.ticket) = false) : judge a imp d = refuseAdmission a 0x0112 0 0 d := by
  rw [judge, online, h]
  rfl

theorem judge_overrun {a : Admission} {imp : Imp} {d : Device} (online : needsOffline d imp = false)
    (fits : fitsEmpty d imp (tkClass a.ticket) = true) (h : needsOverrun d imp = true) :
    judge a imp d = refuseAdmission a 0x0110 (firstCandidate a d) 0 d := by
  rw [judge, online, fits, h]
  rfl

section
variable {a : Admission} {imp : Imp} {d : Device} (online : needsOffline d imp = false)
  (fits : fitsEmpty d imp (tkClass a.ticket) = true) (steady : needsOverrun d imp = false)
include online fits steady

theorem judge_accepted {p : Placement} {slot : Nat} (found : admissionSearch a imp d = .placed p)
    (free : freeSlot d = some slot) : judge a imp d = acceptTicket a imp p slot d := by
  simp only [judge, online, fits, steady, found, free]
  rfl

theorem judge_noSlot {p : Placement} (found : admissionSearch a imp d = .placed p) (full : freeSlot d = none) :
    judge a imp d = refuseAdmission a 0x0110 (firstCandidate a d) 0 d := by
  simp only [judge, online, fits, steady, found, full]
  rfl

theorem judge_deadline {done : Nat} (found : admissionSearch a imp d = .deadline done) :
    judge a imp d = refuseAdmission a 0x0111 (firstCandidate a d) done d := by
  simp only [judge, online, fits, steady, found]
  rfl

theorem judge_noRoom (found : admissionSearch a imp d = .noRoom) :
    judge a imp d = refuseAdmission a 0x0110 (firstCandidate a d) 0 d := by
  simp only [judge, online, fits, steady, found]
  rfl

end

/-- Settles O13: the admission waits, is refused by time or by its read, or is judged, check by check. -/
theorem admitTicketOutcome : Obligations.AdmitTicketOutcome := by
  unfold Obligations.AdmitTicketOutcome
  intro s a awake adm
  have answers {x : Device} (h : doAdmit s.dev = x) : exec .admitTicket s = nextWith s x := by
    rw [exec_admitTicket, onDev_nextWith awake, h]
  refine ⟨fun h => answers (doAdmit_waits h), ?_⟩
  intro issue image t d no
  refine ⟨fun c h => ?_, fun locked => ?_⟩
  · exact answers (doAdmit_refusedByState adm issue image h)
  · have bad {e : Device} (h : admissionRead a s.dev = (e, none)) : exec .admitTicket s = nextWith s (no 0x0115 0 0 e) :=
      answers (doAdmit_badImposition adm issue image locked h)
    have read (kept : a.lost = false) : admissionRead a s.dev = readImp (tkImp t) d := by
      rw [admissionRead, kept]
      rfl
    have judged (kept : a.lost = false) {e : Device} {imp : Imp} (h : readImp (tkImp t) d = (e, some imp)) {x : Device}
        (hx : judge a imp e = x) : exec .admitTicket s = nextWith s (ringSettle a.ring x) :=
      answers (hx ▸ doAdmit_judged adm issue image locked ((read kept).trans h))
    refine ⟨fun lost => bad ?_, fun kept e h => bad ((read kept).trans h),
      fun kept e imp h offline => judged kept h (judge_offline offline), ?_⟩
    · rw [admissionRead, lost]
      rfl
    · intro kept e imp h online first found
      refine ⟨fun excess => judged kept h (judge_overBudget online excess),
        fun fits overrun => judged kept h (judge_overrun online fits overrun), fun fits steady => ⟨?_, ?_, ?_, ?_⟩⟩
      · exact fun p slot placed free => judged kept h (judge_accepted online fits steady placed free)
      · exact fun p placed full => judged kept h (judge_noSlot online fits steady placed full)
      · exact fun done late => judged kept h (judge_deadline online fits steady late)
      · exact fun none => judged kept h (judge_noRoom online fits steady none)

/-! ## The search for a placement (R37, R44) -/

/-- One candidate of the search: it is past the deadline or the horizon, or it fits, or the next one is tried. -/
theorem searchFrom_succ (d : Device) (imp : Imp) (c deadline n s : Nat) :
    (searchFrom d imp c deadline (n + 1) s = .deadline (s + imp.span - 1) ∧ deadline < s + imp.span - 1) ∨
    searchFrom d imp c deadline (n + 1) s = .noRoom ∨
    (s + imp.span - 1 ≤ deadline ∧ s + imp.span - 1 ≤ d.sheet + 524287 ∧
      ((∃ p, candidate d imp c s = some p ∧ searchFrom d imp c deadline (n + 1) s = .placed p) ∨
       (candidate d imp c s = none ∧
         searchFrom d imp c deadline (n + 1) s = searchFrom d imp c deadline n (s + 1)))) := by
  simp only [searchFrom]
  split
  · next late => exact .inl ⟨rfl, late⟩
  · next inTime =>
    split
    · exact .inr (.inl rfl)
    · next near =>
      refine .inr (.inr ⟨by omega, by omega, ?_⟩)
      split
      · next p fits => exact .inl ⟨p, fits, rfl⟩
      · next full => exact .inr ⟨full, rfl⟩

/-- No candidate before the first is passed over, and one passed over now is passed over by the whole search. -/
theorem none_before_succ {d : Device} {imp : Imp} {c s k : Nat} (first : candidate d imp c s = none)
    (rest : ∀ j < k, candidate d imp c (s + 1 + j) = none) : ∀ j < k + 1, candidate d imp c (s + j) = none
  | 0, _ => first
  | j + 1, h => by
    rw [Nat.add_comm j 1, ← Nat.add_assoc]
    exact rest j (Nat.lt_of_succ_lt_succ h)

theorem searchFrom_placed {d : Device} {imp : Imp} {c deadline n s : Nat} {p : Placement}
    (h : searchFrom d imp c deadline n s = .placed p) :
    ∃ k < n, candidate d imp c (s + k) = some p ∧ (∀ j < k, candidate d imp c (s + j) = none) ∧
      s + k + imp.span - 1 ≤ deadline ∧ s + k + imp.span - 1 ≤ d.sheet + 524287 := by
  induction n generalizing s with
  | zero => cases h
  | succ n ih =>
    rcases searchFrom_succ d imp c deadline n s with ⟨e, _⟩ | e | ⟨inTime, near, ⟨q, fits, e⟩ | ⟨full, e⟩⟩ <;>
      rw [e] at h
    · cases h
    · cases h
    · cases h
      exact ⟨0, Nat.succ_pos n, fits, fun j hj => absurd hj (Nat.not_lt_zero j), inTime, near⟩
    · obtain ⟨k, hk, fits, before, inTime, near⟩ := ih h
      have shift : s + 1 + k = s + (k + 1) := by omega
      rw [shift] at fits inTime near
      exact ⟨k + 1, Nat.succ_lt_succ hk, fits, none_before_succ full before, inTime, near⟩

theorem searchFrom_deadline {d : Device} {imp : Imp} {c deadline n s done : Nat}
    (h : searchFrom d imp c deadline n s = .deadline done) :
    ∃ k < n, done = s + k + imp.span - 1 ∧ deadline < done ∧ ∀ j < k, candidate d imp c (s + j) = none := by
  induction n generalizing s with
  | zero => cases h
  | succ n ih =>
    rcases searchFrom_succ d imp c deadline n s with ⟨e, late⟩ | e | ⟨_, _, ⟨q, _, e⟩ | ⟨full, e⟩⟩ <;>
      rw [e] at h
    · cases h
      exact ⟨0, Nat.succ_pos n, rfl, late, fun j hj => absurd hj (Nat.not_lt_zero j)⟩
    · cases h
    · cases h
    · obtain ⟨k, hk, last, late, before⟩ := ih h
      exact ⟨k + 1, Nat.succ_lt_succ hk, by omega, late, none_before_succ full before⟩

/-- Settles O14: by induction on the candidates that are left to the search. -/
theorem earliestPlacement : Obligations.EarliestPlacement := by
  unfold Obligations.EarliestPlacement
  exact fun _ _ _ _ _ _ => ⟨fun _ => searchFrom_placed, fun _ => searchFrom_deadline⟩

/-! ## Admission never overcommits (R39, R44, R53)

Use of a resource rises only where a reservation starts and a budget falls only at a throttle's sheet. So the use at a point
is at most the use at the latest of those points before it, and admission has tested that one. -/

theorem exists_latest {l : List Nat} {p : Nat} (h : ∃ a ∈ l, a ≤ p) :
    ∃ q ∈ l, q ≤ p ∧ ∀ a ∈ l, a ≤ p → a ≤ q := by
  have mem {a : Nat} : a ∈ l.filter (· ≤ p) ↔ a ∈ l ∧ a ≤ p := by
    rw [List.mem_filter, decide_eq_true_eq]
  obtain ⟨a, ha⟩ := h
  cases e : (l.filter (· ≤ p)).max? with
  | none => exact absurd (List.max?_eq_none_iff.mp e) (List.ne_nil_of_mem (mem.mpr ha))
  | some q =>
    obtain ⟨hq, latest⟩ := List.max?_eq_some_iff.mp e
    exact ⟨q, (mem.mp hq).1, (mem.mp hq).2, fun b hb hbp => latest b (mem.mpr ⟨hb, hbp⟩)⟩

theorem nodup_eraseDups {α : Type} [DecidableEq α] (l : List α) : l.eraseDups.Nodup := by
  match l with
  | [] => simp
  | a :: l =>
    rw [List.eraseDups_cons, List.nodup_cons]
    exact ⟨by simp [List.mem_eraseDups], nodup_eraseDups (l.filter fun b => !b == a)⟩
termination_by l.length
decreasing_by exact Nat.lt_succ_of_le (List.length_filter_le _ _)

theorem length_eraseDups_le_of_subset {α : Type} [DecidableEq α] {l r : List α} (h : l ⊆ r) :
    l.eraseDups.length ≤ r.eraseDups.length :=
  (nodup_eraseDups l).length_le_of_subset fun _ hx => List.mem_eraseDups.mpr (h (List.mem_eraseDups.mp hx))

theorem active_iff {p : Nat} {x : Demand} : active p x = true ↔ x.start ≤ p ∧ p < x.stop := by
  simp [active]

/-- What is active at a point is active at every earlier one from its start on. -/
theorem active_earlier {p q : Nat} {x : Demand} (h : active p x = true) (hx : x.start ≤ q) (hq : q ≤ p) :
    active q x = true :=
  active_iff.mpr ⟨hx, by have := (active_iff.mp h).2; omega⟩

theorem foldl_amount_add (l : List Demand) (n : Nat) :
    l.foldl (fun a x => a + amount x) n = n + l.foldl (fun a x => a + amount x) 0 := by
  induction l generalizing n with
  | nil => rfl
  | cons x l ih =>
    rw [List.foldl_cons, List.foldl_cons, ih, ih (0 + amount x)]
    omega

theorem sumAt_cons (p : Nat) (x : Demand) (l : List Demand) (k : Demand → Bool) :
    sumAt p (x :: l) k = (if active p x && k x then amount x else 0) + sumAt p l k := by
  rw [sumAt, List.filter_cons]
  split
  · rw [List.foldl_cons, foldl_amount_add, Nat.zero_add]
    rfl
  · rw [Nat.zero_add]
    rfl

theorem sumAt_le {p q : Nat} {k : Demand → Bool} {l : List Demand}
    (h : ∀ x ∈ l, k x = true → active p x = true → active q x = true) : sumAt p l k ≤ sumAt q l k := by
  induction l with
  | nil => exact Nat.le_refl _
  | cons x l ih =>
    rw [sumAt_cons, sumAt_cons]
    refine Nat.add_le_add ?_ (ih fun y hy => h y (List.mem_cons_of_mem _ hy))
    by_cases counted : (active p x && k x) = true
    · obtain ⟨act, hk⟩ := Bool.and_eq_true_iff.mp counted
      have still : (active q x && k x) = true := Bool.and_eq_true_iff.mpr ⟨h x List.mem_cons_self hk act, hk⟩
      exact Nat.le_of_eq ((if_pos counted).trans (if_pos still).symm)
    · rw [if_neg counted]
      exact Nat.zero_le _

theorem formesAt_le {p q c : Nat} {l : List Demand}
    (h : ∀ x ∈ l, x.tcls = c → active p x = true → active q x = true) : formesAt p c l ≤ formesAt q c l := by
  refine length_eraseDups_le_of_subset (List.map_subset _ fun x hx => ?_)
  simp only [List.mem_filter, Bool.and_eq_true, decide_eq_true_eq] at hx ⊢
  obtain ⟨mem, ⟨act, forme⟩, cls⟩ := hx
  exact ⟨mem, ⟨h x mem cls act, forme⟩, cls⟩

theorem sumAt_eq_zero {p : Nat} {k : Demand → Bool} {l : List Demand}
    (h : ∀ x ∈ l, k x = true → active p x = true → False) : sumAt p l k = 0 := by
  have none : (l.filter fun x => active p x && k x) = [] := by
    simp only [List.filter_eq_nil_iff, Bool.and_eq_true]
    exact fun x hx both => h x hx both.2 both.1
  rw [sumAt, none]
  rfl

theorem formesAt_eq_zero {p c : Nat} {l : List Demand} (h : ∀ x ∈ l, x.tcls = c → active p x = true → False) :
    formesAt p c l = 0 := by
  have none : (l.filter fun x => active p x && x.cls = 0 && x.tcls = c) = [] := by
    simp only [List.filter_eq_nil_iff, Bool.and_eq_true, decide_eq_true_eq]
    exact fun x hx all => h x hx all.2 all.1.1
  rw [formesAt, none]
  rfl

/-- A fold whose steps agree on the list's elements. -/
theorem foldl_eq_of_step_eq {α β : Type} {f g : β → α → β} {l : List α} (h : ∀ x ∈ l, ∀ b, f b x = g b x) (b : β) :
    l.foldl f b = l.foldl g b := by
  induction l generalizing b with
  | nil => rfl
  | cons x l ih =>
    rw [List.foldl_cons, List.foldl_cons, h x List.mem_cons_self b]
    exact ih (fun y hy => h y (List.mem_cons_of_mem _ hy)) _

/-- The budget stays as it is between the sheets at which a throttle request takes effect. -/
theorem budgetAt_eq {m : Makeready} {now p q : Nat} (h : ∀ r ∈ m.throttles, 4096 * r.sheet ≤ p ↔ 4096 * r.sheet ≤ q) :
    budgetAt m now p = budgetAt m now q := by
  refine foldl_eq_of_step_eq (fun r hr b => ?_) _
  simp only [h r hr]

theorem demandFits_of_planFits {lim : Limits} {cuts : List Nat} {plan table : List Demand}
    (h : planFits lim cuts plan table = true) {x : Demand} (hx : x ∈ plan) {p : Nat}
    (hp : p ∈ ((plan ++ table).map (·.start)) ++ cuts) (act : active p x = true) :
    demandFits lim (plan ++ table) p x = true := by
  simp only [planFits, List.all_eq_true, Bool.and_eq_true] at h
  simpa [act] using (h x hx).2 p hp

theorem demandFits_earlier {lim : Limits} {all : List Demand} {p q : Nat} {x : Demand}
    (h : demandFits lim all q x = true) (use : ∀ k, sumAt p all k ≤ sumAt q all k) (budget : lim.budget p = lim.budget q) :
    if x.cls = 5 then x.qty = 0 ∨ sumAt p all (·.cls = 5) ≤ lim.budget p
    else sumAt p all (sameRes x) ≤ capacityOf x.cls := by
  unfold demandFits at h
  split at h
  · next power =>
    rw [if_pos power, budget]
    simp only [Bool.or_eq_true, decide_eq_true_eq] at h
    exact h.imp_right (Nat.le_trans (use _))
  · next other =>
    rw [if_neg other]
    exact Nat.le_trans (use _) (of_decide_eq_true h)

/-- A plan that fits at the tested points fits at every point. -/
theorem fits_everywhere_of_planFits {lim : Limits} {cuts : List Nat} {plan table : List Demand}
    (h : planFits lim cuts plan table = true)
    (budget : ∀ p q, (∀ a ∈ cuts, a ≤ p ↔ a ≤ q) → lim.budget p = lim.budget q)
    {x : Demand} (hx : x ∈ plan) {p : Nat} (act : active p x = true) :
    if x.cls = 5 then x.qty = 0 ∨ sumAt p (plan ++ table) (·.cls = 5) ≤ lim.budget p
    else sumAt p (plan ++ table) (sameRes x) ≤ capacityOf x.cls := by
  have started : x.start ∈ ((plan ++ table).map (·.start)) ++ cuts :=
    List.mem_append_left _ (List.mem_map_of_mem (List.mem_append_left _ hx))
  obtain ⟨q, tested, before, latest⟩ := exists_latest ⟨x.start, started, (active_iff.mp act).1⟩
  have back {y : Demand} (hy : y ∈ plan ++ table) (act : active p y = true) : active q y = true :=
    active_earlier act
      (latest _ (List.mem_append_left _ (List.mem_map_of_mem hy)) (active_iff.mp act).1) before
  refine demandFits_earlier (demandFits_of_planFits h hx tested (back (List.mem_append_left _ hx) act))
    (fun k => sumAt_le fun y hy _ => back hy) (budget _ _ fun a ha => ?_)
  exact ⟨latest a (List.mem_append_right _ ha), fun early => Nat.le_trans early before⟩

theorem classFits_start {lim : Limits} {c : Nat} {all : List Demand} (h : classFits lim c all = true) {x : Demand}
    (hx : x ∈ all) (cls : x.tcls = c) :
    sumAt x.start all (fun y => y.cls = 5 && y.tcls = c) ≤ lim.power ∧ formesAt x.start c all ≤ lim.formes := by
  simpa [cls] using List.all_eq_true.mp h x hx

/-- The points at which reservations of class `c` start. -/
def classStarts (c : Nat) (l : List Demand) : List Nat := (l.filter (·.tcls = c)).map (·.start)

/-- A class that is within its limits where its reservations start is within them at every point. -/
theorem fits_everywhere_of_classFits {lim : Limits} {c : Nat} {all : List Demand} (h : classFits lim c all = true) (p : Nat) :
    sumAt p all (fun y => y.cls = 5 && y.tcls = c) ≤ lim.power ∧ formesAt p c all ≤ lim.formes := by
  have started {y : Demand} (hy : y ∈ all) (cls : y.tcls = c) : y.start ∈ classStarts c all :=
    List.mem_map_of_mem (List.mem_filter.mpr ⟨hy, decide_eq_true cls⟩)
  have ofClass {y : Demand} (k : (decide (y.cls = 5) && decide (y.tcls = c)) = true) : y.tcls = c :=
    of_decide_eq_true (Bool.and_eq_true_iff.mp k).2
  by_cases some : ∃ a ∈ classStarts c all, a ≤ p
  · obtain ⟨q, hq, before, latest⟩ := exists_latest some
    obtain ⟨x, hx, rfl⟩ := List.mem_map.mp hq
    obtain ⟨mem, cls⟩ := List.mem_filter.mp hx
    have back (y) (hy : y ∈ all) (cls : y.tcls = c) (act : active p y = true) : active x.start y = true :=
      active_earlier act (latest _ (started hy cls) (active_iff.mp act).1) before
    obtain ⟨power, formes⟩ := classFits_start h mem (of_decide_eq_true cls)
    exact ⟨Nat.le_trans (sumAt_le fun y hy k => back y hy (ofClass k)) power, Nat.le_trans (formesAt_le back) formes⟩
  · have idle (y) (hy : y ∈ all) (cls : y.tcls = c) (act : active p y = true) : False :=
      some ⟨_, started hy cls, (active_iff.mp act).1⟩
    rw [sumAt_eq_zero fun y hy k act => idle y hy (ofClass k) act, formesAt_eq_zero idle]
    exact ⟨Nat.zero_le _, Nat.zero_le _⟩

/-- What admission has checked of the candidate that it takes. -/
theorem candidate_fits {d : Device} {imp : Imp} {c s : Nat} {pl : Placement} (h : candidate d imp c s = some pl) :
    planFits (limitsOf d c (budgetAt d.mkr d.now)) (d.mkr.throttles.map fun r => 4096 * r.sheet)
      (planDemands c s pl.es) (tableDemands d (4096 * s) (4096 * (s + imp.span))) = true ∧
    classFits (limitsOf d c (budgetAt d.mkr d.now)) c
      (planDemands c s pl.es ++ classDemands d c (4096 * s) (4096 * (s + imp.span))) = true := by
  simp only [candidate] at h
  generalize (if imp.reloc = true then _ else mapSelf d imp.entries) = placed at h
  cases placed with
  | none => cases h
  | some m =>
    dsimp only at h
    split at h
    · next fits =>
      simp only [Bool.and_eq_true] at fits
      split at h
      · cases h
      · split at h
        · cases h
          exact ⟨fits.1.2, fits.2⟩
        · cases h
    · cases h

/-- Settles O15: the plan was tested at the latest point, no later than the one in question, at which use or budget changes. -/
theorem admissionNeverOvercommits : Obligations.AdmissionNeverOvercommits := by
  unfold Obligations.AdmissionNeverOvercommits
  intro d imp c s pl accepted
  obtain ⟨plan, cls⟩ := candidate_fits accepted
  refine ⟨fun x hx p act => ?_, fits_everywhere_of_classFits cls⟩
  refine fits_everywhere_of_planFits plan (fun p q same => budgetAt_eq fun r hr => ?_) hx act
  exact same _ (List.mem_map_of_mem hr)

/-! ## Entries of the imposition table fire (R36 to R38) -/

theorem fireIf_due {d : Device} {i : BitVec 16} {a : Nat} (due : entryDue d i.toNat = true)
    (act : eAction (getEntry d i.toNat) = a) : fireIf a i d = fireEntry i.toNat d :=
  if_pos (by rw [due, act]; simp)

theorem fireEntry_start {d : Device} {i : Nat} (h : eAction (getEntry d i) = 1) : fireEntry i d = fireStart i d := by
  simp only [fireEntry, h]

theorem fireEntry_refresh {d : Device} {i : Nat} (h : eAction (getEntry d i) = 4) : fireEntry i d = fireRefresh i d := by
  simp only [fireEntry, h]

theorem fireEntry_power {d : Device} {i : Nat} (h : eAction (getEntry d i) = 5) : fireEntry i d = firePower i d := by
  simp only [fireEntry, h]

theorem fireEntry_wake {d : Device} {i : Nat} (h : eAction (getEntry d i) = 6) : fireEntry i d = fireWake i d := by
  simp only [fireEntry, h]

theorem fireEntry_promise {d : Device} {i : Nat} (h : eAction (getEntry d i) = 7) : fireEntry i d = firePromise i d := by
  simp only [fireEntry, h]

/-- A window or a HOLD only holds its resource. -/
theorem fireEntry_holds {d : Device} {i : Nat}
    (h : eAction (getEntry d i) = 2 ∨ eAction (getEntry d i) = 3 ∨ eAction (getEntry d i) = 8) :
    fireEntry i d = markFired i d := by
  rcases h with h | h | h <;> simp only [fireEntry, h]

/-- The ticket whose START has fired has one START less to come. -/
def startTaken (t : Ticket) : Device → Device :=
  modTicket t.slot fun t => { t with toStart := t.toStart - 1, started := true }

section
variable {d : Device} {i : Nat} {t : Ticket} (ticket : ticketOf d (eSlot (getEntry d i)) = some t)
  (free : formeFree d (eIndex (getEntry d i)) = true) (unaborted : t.abort = none) (unpaused : t.pause = none)
include ticket free unaborted unpaused

theorem fireStart_starts
    (opened : (maskPresses (eIndex (getEntry d i)) (eQty (getEntry d i))).find? (fenced (startTaken t (markFired i d))) = none) :
    fireStart i d = startForme (eIndex (getEntry d i)) t.slot i (virtualOf t (eIndex (getEntry d i))) (eQty (getEntry d i))
      (modTicket t.slot (fun t => { t with running := t.running + 1 }) (startTaken t (markFired i d))) := by
  rw [startTaken] at opened
  simp only [fireStart, ticket, free, unaborted, unpaused, opened]
  rfl

theorem fireStart_fenced {p : Nat}
    (closed : (maskPresses (eIndex (getEntry d i)) (eQty (getEntry d i))).find? (fenced (startTaken t (markFired i d))) =
      some p) :
    fireStart i d = faultTask t.slot 0x0A01 (unitPress p) { phase := 3 } none (startTaken t (markFired i d)) := by
  rw [startTaken] at closed
  simp only [fireStart, ticket, free, unaborted, unpaused, closed]
  rfl

end

theorem fireRefresh_serves {d : Device} {i : Nat}
    (h : (stack (markFired i d) (eIndex (getEntry d i))).state = .ready ∨
      (stack (markFired i d) (eIndex (getEntry d i))).state = .filling) :
    fireRefresh i d = modStack (eIndex (getEntry d i)) refreshSlot (markFired i d) := by
  rw [fireRefresh, if_pos (by simpa using h)]

theorem fireRefresh_rests {d : Device} {i : Nat}
    (ready : (stack (markFired i d) (eIndex (getEntry d i))).state ≠ .ready)
    (filling : (stack (markFired i d) (eIndex (getEntry d i))).state ≠ .filling) : fireRefresh i d = markFired i d := by
  rw [fireRefresh, if_neg (by simp [ready, filling])]

theorem firePower_on {d : Device} {i : Nat} (h : eArg (getEntry d i) % 8 = 1 ∨ eArg (getEntry d i) % 8 = 2) :
    firePower i d = wakeDomain (markFired i d) (eIndex (getEntry d i)) := by
  rcases h with h | h <;> simp only [firePower, h]

theorem firePower_off {d : Device} {i : Nat} (h : eArg (getEntry d i) % 8 = 0 ∨ eArg (getEntry d i) % 8 = 3) :
    firePower i d = switchOff (eIndex (getEntry d i)) (markFired i d) := by
  rcases h with h | h <;> simp only [firePower, h]

theorem firePower_rests {d : Device} {i : Nat} {st : DState}
    (inRange : 144 ≤ eIndex (getEntry d i) ∧ eIndex (getEntry d i) < 152)
    (h : (eArg (getEntry d i) % 8 = 4 ∧ st = .selfRefresh) ∨ (eArg (getEntry d i) % 8 = 5 ∧ st = .partialRefresh)) :
    firePower i d = restStack (eIndex (getEntry d i)) st (markFired i d) := by
  have isStack : (decide (144 ≤ eIndex (getEntry d i)) && decide (eIndex (getEntry d i) < 152)) = true := by
    simpa using inRange
  rcases h with ⟨h, rfl⟩ | ⟨h, rfl⟩ <;> simp only [firePower, h, isStack, if_true]

theorem switchOff_on {d : Device} {n : Nat} (h : (domain d n).dstate = .on) : switchOff n d =
    if domainHeld d n then modDomain n (fun x => { x with held := true }) d
    else modDomain n (fun x => { x with dstate := .goingOff }) d := by
  rw [switchOff, if_pos h]

theorem restStack_empty {d : Device} {n : Nat} {st : DState} (h : stackEmpty (finishStack n d) n = true) :
    restStack n st d = domainOff n st (finishStack n d) := by
  simp only [restStack, h, if_true]

theorem restStack_busy {d : Device} {n : Nat} {st : DState} (h : stackEmpty (finishStack n d) n = false) :
    restStack n st d = modDomain n (fun x =>
      { x with dstate := .goingOff, held := false, ramp := none, partialNext := st = .partialRefresh }) (finishStack n d) := by
  simp only [restStack, h, Bool.false_eq_true, if_false]

theorem fireWake_domain {d : Device} {i : Nat} (h : eSlot (getEntry d i) ≠ 0xFFF) :
    fireWake i d = wakeDomain (markFired i d) (eIndex (getEntry d i)) := if_neg h

theorem fireWake_system {d : Device} {i : Nat} (h : eSlot (getEntry d i) = 0xFFF) :
    fireWake i d = wakeEvent 3 none .makeready (markFired i d) := if_pos h

theorem firePromise_breaks {d : Device} {i : Nat} {t : Ticket} (ticket : ticketOf d (eSlot (getEntry d i)) = some t)
    (unpaused : t.pause = none) (unaborted : t.abort = none) :
    firePromise i d = breakPromise t unitMk (freeEntry i (markFired i d)) := by
  simp only [firePromise, ticket, unpaused, unaborted]
  rfl

theorem firePromise_kept {d : Device} {i : Nat} (ticket : ticketOf d (eSlot (getEntry d i)) = none) :
    firePromise i d = freeEntry i (markFired i d) := by
  simp only [firePromise, ticket]

/-- Settles O16: a due entry fires by its action, and each action by its own equation. -/
theorem entriesFire : Obligations.EntriesFire := by
  unfold Obligations.EntriesFire
  intro s i awake due e late d n
  have marked : d = markFired i.toNat s.dev := by
    simp only [d, late, markFired, decide_eq_true_eq]
    rfl
  clear_value d
  subst marked
  have fire {a : Nat} (act : eAction e = a) : onDev (fireIf a i) s = nextWith s (fireEntry i.toNat s.dev) := by
    rw [onDev_nextWith awake, fireIf_due due act]
  refine ⟨fun act => ?_, fun act => ?_, fun act => ?_, ?_, ?_, ?_, ?_, ?_, ?_⟩
  · rw [exec_xferWindowOpen, fire act, fireEntry_holds (.inl act)]
  · rw [exec_collectiveWindowOpen, fire act, fireEntry_holds (.inr (.inl act))]
  · rw [exec_holdFire, fire act, fireEntry_holds (.inr (.inr act))]
  · intro t act ticket free unaborted unpaused d1
    have start {x : Device} (h : fireStart i.toNat s.dev = x) : exec (.startFire i) s = nextWith s x := by
      rw [exec_startFire, fire act, fireEntry_start act, h]
    exact ⟨fun opened => start (fireStart_starts ticket free unaborted unpaused opened),
      fun p closed => start (fireStart_fenced ticket free unaborted unpaused closed)⟩
  · intro act serves
    rw [exec_refreshFire, fire act, fireEntry_refresh act, fireRefresh_serves serves]
    rfl
  · intro act ready filling
    rw [exec_refreshFire, fire act, fireEntry_refresh act, fireRefresh_rests ready filling]
  · intro act
    have power {x : Device} (h : firePower i.toNat s.dev = x) : exec (.powerStepFire i) s = nextWith s x := by
      rw [exec_powerStepFire, fire act, fireEntry_power act, h]
    refine ⟨fun arg => power (firePower_on arg), fun arg on => power ((firePower_off arg).trans (switchOff_on on)), ?_⟩
    intro lo hi st arg d2
    exact ⟨fun done => power ((firePower_rests ⟨lo, hi⟩ arg).trans (restStack_empty done)),
      fun busy => power ((firePower_rests ⟨lo, hi⟩ arg).trans (restStack_busy busy))⟩
  · intro act
    have wake {x : Device} (h : fireWake i.toNat s.dev = x) : exec (.wakeFire i) s = nextWith s x := by
      rw [exec_wakeFire, fire act, fireEntry_wake act, h]
    exact ⟨fun other => wake (fireWake_domain other), fun system => wake (fireWake_system system)⟩
  · intro act
    have promise {x : Device} (h : firePromise i.toNat s.dev = x) : exec (.promiseFire i) s = nextWith s x := by
      rw [exec_promiseFire, fire act, fireEntry_promise act, h]
    exact ⟨fun t ticket unpaused unaborted => promise (firePromise_breaks ticket unpaused unaborted),
      fun ticket => promise (firePromise_kept ticket)⟩

/-! ## Reservations end (R39, R48, R52) -/

/-- Entry `i` of the table is valid, and its span and margin have ended. -/
structure Ended (d : Device) (i : Nat) : Prop where
  valid : eValid (getEntry d i) = true
  past  : entryEnd d (getEntry d i) ≤ d.now

theorem Ended.passes {d : Device} {i : Nat} (h : Ended d i) :
    (!eValid (getEntry d i) || decide (d.now < entryEnd d (getEntry d i))) = false := by
  simp [h.valid, h.past]

section
variable {d : Device} {i : Nat} (ended : Ended d i)
include ended

theorem endReservation_completes {t : Ticket} (ticket : ticketOf d (eSlot (getEntry d i)) = some t)
    (done : noStartDone d t = true) : endReservation i d = completeTicket t d := by
  simp only [endReservation, ended.passes, ticket, done]
  rfl

theorem endReservation_window {t : Ticket} (ticket : ticketOf d (eSlot (getEntry d i)) = some t)
    (going : noStartDone d t = false)
    (act : eAction (getEntry d i) = 2 ∨ eAction (getEntry d i) = 3 ∨ eAction (getEntry d i) = 6)
    (fired : eFired (getEntry d i) = true ∨ overrunBlocks d i = true) : endReservation i d = freeEntry i d := by
  have ends : (eFired (getEntry d i) || overrunBlocks d i) = true := by simpa using fired
  rcases act with act | act | act <;> simp only [endReservation, ended.passes, ticket, going, act, ends] <;> rfl

theorem endReservation_held {t : Ticket} (ticket : ticketOf d (eSlot (getEntry d i)) = some t)
    (going : noStartDone d t = false) (act : eAction (getEntry d i) = 1 ∨ eAction (getEntry d i) = 8) :
    endReservation i d = overrun i d := by
  rcases act with act | act <;> simp only [endReservation, ended.passes, ticket, going, act] <;> rfl

theorem endReservation_refresh (system : ticketOf d (eSlot (getEntry d i)) = none) (fired : eFired (getEntry d i) = true)
    (act : eAction (getEntry d i) = 4) : endReservation i d =
      modEntry i (fun e => setField (e &&& ~~~6#128) 127 108 (eSheet e + eArg e)) d := by
  simp only [endReservation, ended.passes, system, fired, act, Bool.false_eq_true, if_false, if_true]

theorem endReservation_system (system : ticketOf d (eSlot (getEntry d i)) = none) (fired : eFired (getEntry d i) = true)
    (act : eAction (getEntry d i) ≠ 4) : endReservation i d = freeEntry i d := by
  simp only [endReservation, ended.passes, system, fired, if_neg act, Bool.false_eq_true, if_false, if_true]

end

/-- A change of the table opens and closes no ticket. -/
theorem ticketOf_modEntry (i slot : Nat) (g : BitVec 128 → BitVec 128) (d : Device) :
    ticketOf (modEntry i g d) slot = ticketOf d slot := rfl

theorem overrun_breaks {d : Device} {i : Nat} {t : Ticket} (ticket : ticketOf d (eSlot (getEntry d i)) = some t)
    (first : eOverrun (getEntry d i) = false) (unpaused : t.pause = none) (unaborted : t.abort = none) :
    overrun i d = breakPromise t (resUnit (getEntry d i)) (modEntry i (fun e => e ||| 8#128) d) := by
  simp only [overrun, first, ticketOf_modEntry, ticket, unpaused, unaborted]
  rfl

/-- Settles O17: by the entry's ticket, and then by the entry's action. -/
theorem reservationsEnd : Obligations.ReservationsEnd := by
  unfold Obligations.ReservationsEnd
  intro s i awake d e valid past
  have ended : Ended d i.toNat := ⟨valid, past⟩
  have ends {x : Device} (h : endReservation i.toNat d = x) : exec (.reservationEnd i) s = nextWith s x := by
    rw [exec_reservationEnd, onDev_nextWith awake, h]
  refine ⟨fun t ticket => ⟨fun done => ?_, fun going => ⟨fun fired act => ?_, fun act first unpaused unaborted => ?_⟩⟩,
    fun system fired => ⟨fun act => ?_, fun act => ?_⟩⟩
  · exact ends (endReservation_completes ended ticket done)
  · exact ends (endReservation_window ended ticket going act fired)
  · exact ends ((endReservation_held ended ticket going act).trans (overrun_breaks ticket first unpaused unaborted))
  · exact ends (endReservation_refresh ended system fired act)
  · exact ends (endReservation_system ended system fired act)

/-! ## Resets (R66, R493, R518, R587 to R590) -/

theorem onAlways_nextWith (g : Device → Device) (s : State) : onAlways g s = nextWith s (g s.dev) := rfl

theorem enterReset_running {d : Device} (h : inReset d = false) (rails : Bool) : enterReset rails d =
    modTrust (fun t => { t with porLow := t.porLow || !rails, railsBad := t.railsBad || rails })
      (wiped (if rails then loseLog (beforeReset d) else beforeReset d)) := by
  rw [enterReset, h]
  rfl

/-- The reset line enters reset: the log is whole. -/
theorem enterReset_por {d : Device} (h : inReset d = false) : enterReset false d =
    modTrust (fun t => { t with porLow := true, railsBad := t.railsBad || false }) (wiped (beforeReset d)) := by
  rw [enterReset_running h]
  simp only [Bool.not_false, Bool.or_true]
  rfl

/-- Rails out of order: the newest entries of the log may be lost. -/
theorem enterReset_rails {d : Device} (h : inReset d = false) : enterReset true d =
    modTrust (fun t => { t with porLow := t.porLow || false, railsBad := true }) (wiped (loseLog (beforeReset d))) := by
  rw [enterReset_running h]
  simp only [Bool.not_true, Bool.or_true]
  rfl

theorem doDeviceReset_release {d : Device} (held : inReset d = true) (cool : d.power.tripped = false) :
    doDeviceReset .release d = startUp d := by
  rw [doDeviceReset, held, cool]
  rfl

/-- Foreman runs image `i`. -/
def foremanRuns (i : FwImage) (d : Device) : Device :=
  modErrata (fun e => { e with paused := false }) (modPower (fun w => { w with deepWake := false })
    (modTrust (fun t => { t with running := some i, booting := none }) d))

/-- The routes, and the refresh entries of the stacks present (R267, R290). -/
def foremanWrites (d : Device) : Device :=
  let es := ((List.range 8).filter (stackPresent d.part)).map (refreshEntry d)
  modChase (fun c => { c with routed := true })
    (writeEntries ((freeIndices (65536 + d.mkr.table.length) 0 d.mkr.table es.length).zip es) d)

theorem doForemanStarted_booting {d : Device} {i : FwImage} (h : d.trust.booting = some i) :
    doForemanStarted d = if d.chase.routed then foremanRuns i d else foremanWrites (foremanRuns i d) := by
  simp only [doForemanStarted, h]
  rfl

/-- The log's entry leaves the loader as it is. -/
theorem logFlr_cf (role source fn : Nat) (d : Device) : (logFlr role source fn d).cf = d.cf := rfl

theorem flrPf2_noLoad {d : Device} (h : d.cf.load = none) : flrPf2 d =
    (let d1 := if (stagedReset d).cf.capState = .timedOut then stagedReset d else modCf cancelCapture (stagedReset d)
     modHost (fun h => flrFunction .pf2 { h with user := [] })
      (modFount (fun f => { f with feedWait := Vector.replicate 32 0, slips := Vector.replicate 24 0 })
        (d1.host.user.foldl (fun d q => withdrawUser q d) d1))) := by
  rw [flrPf2, h]
  rfl

theorem flrFunction_flr (fn : FnId) (h : HostIf) :
    (flrFunction fn h).flr = setField h.flr (fnIndex fn) (fnIndex fn) 1 := rfl

theorem flrFunction_aer (fn : FnId) (h : HostIf) : (flrFunction fn h).aer = h.aer := rfl

theorem flrFunction_command (fn : FnId) (h : HostIf) : vgetN 0 (flrFunction fn h).command (fnIndex fn) = 0 := by
  have inRange : fnIndex fn < 3 := by cases fn <;> decide
  exact (vgetN_vmodN ..).trans (if_pos ⟨rfl, inRange⟩)

/-- The functions in D3hot once those of `fns` have entered it. -/
def d3hotShown (fns : BitVec 3) : Device → Device := modHost fun h => { h with d3hot := h.d3hot ||| fns }

theorem doD3hot_some {d : Device} {fns : BitVec 3} (h : d.host.d3hot = 7 ∨ d.host.d3hot ||| fns ≠ 7) :
    doD3hot fns d = d3hotShown fns d := by
  rw [doD3hot, if_pos]
  · rfl
  · rw [Bool.or_eq_true, decide_eq_true_eq, decide_eq_true_eq]
    exact h

theorem doD3hot_last {d : Device} {fns : BitVec 3} (before : d.host.d3hot ≠ 7) (now : d.host.d3hot ||| fns = 7) :
    doD3hot fns d =
      (let st := if bit d.trust.store.policy 0 then PwState.stand else .idle
       requestState st .d3hot (logAct 8 1 0 0 4 addrPwCtrl (BitVec.ofNat 256 (pwCode st)) (d3hotShown fns d))) := by
  rw [doD3hot, if_neg]
  · rfl
  · rw [Bool.or_eq_true, decide_eq_true_eq, decide_eq_true_eq]
    exact not_or.mpr ⟨before, fun waits => waits now⟩

/-- Settles O50: a reset of the part from its entry or its release, each other command by its own equation. -/
theorem resetsOfThePart : Obligations.ResetsOfThePart := by
  unfold Obligations.ResetsOfThePart
  intro s d
  refine ⟨fun runs => ?_, fun held cool => ?_, fun awake => ⟨?_, ?_, ?_, ?_, ?_, ?_, ?_, ?_, ?_⟩⟩
  · intro w
    refine ⟨?_, ?_, ?_⟩
    · rw [exec_deviceReset, onAlways_nextWith]
      exact congrArg (nextWith s) (enterReset_por runs)
    · rw [exec_railFault, onAlways_nextWith]
      exact congrArg (nextWith s) (enterReset_rails runs)
    · rw [exec_deviceReset, onAlways_nextWith]
      exact congrArg (fun d => nextWith s (powerCycled d)) (enterReset_rails runs)
  · rw [exec_deviceReset, onAlways_nextWith, doDeviceReset_release held cool]
    rfl
  · intro i boots
    rw [exec_foremanStarted, onDev_nextWith awake, doForemanStarted_booting boots]
    rfl
  · rw [exec_flrPf1, onDev_nextWith awake]
    rfl
  · intro closed
    rw [exec_flrPf2, onDev_nextWith awake, doFlrPf2, flrPf2_noLoad (by rw [logFlr_cf, closed])]
  · rw [exec_flrPf0, onDev_nextWith awake]
    rfl
  · exact fun fn h => ⟨flrFunction_flr fn h, flrFunction_aer fn h, flrFunction_command fn h⟩
  · rw [exec_hotReset, onDev_nextWith awake]
    rfl
  · intro fn
    rw [exec_flrComplete, onDev_nextWith awake]
    rfl
  · intro fns d' st
    rw [exec_d3hotEntry, onDev_nextWith awake]
    exact ⟨fun some => congrArg (nextWith s) (doD3hot_some some),
      fun before now => congrArg (nextWith s) (doD3hot_last before now)⟩
  · intro fn
    rw [exec_functionD0, onDev_nextWith awake]
    rfl

end Sys2Proof.Machine
end

section
/-!
PROOFS of the family 02_number_formats: the preemption of a press, and the host's clearing of a press block's counters. The
lemmas that say what each operation does stand before the obligation.
-/
namespace Sys2Proof.Machine

/-! ## Preemption of a press (R135, R139, R385) -/

/-- A press of which no preemption is asked completes none. -/
theorem preempts_unasked {x : Press} (h : x.preempt = .none) : preempts x = false := by
  rw [preempts, h]

theorem doPreempted_unasked {d : Device} {p : Nat} (h : (press d p).preempt = .none) : doPreempted p d = d := by
  simp [doPreempted, preempts_unasked h, h]

theorem doPreempted_complete {d : Device} {p : Nat} (h : preempts (press d p) = true) :
    doPreempted p d = preemptAbort p (modPress p (fun x => { x with preempt := .preempted }) d) :=
  if_pos h

/-- A press that still completes its work, and one that is preempted already, count alike. -/
theorem doPreempted_counts {d : Device} {p : Nat} (asked : (press d p).preempt ≠ .none)
    (incomplete : preempts (press d p) = false) : doPreempted p d = countPreempt p d := by
  simp [doPreempted, incomplete, asked]

/-! ## Counter clears of a press block (R103, R142, R171, R263) and the frisket (R509) -/

theorem onHost_clearPress_inService {s : State} {p : Nat} (awake : asleep s.dev = false) (free : linkBusy s.dev = false)
    (opened : fenced s.dev p = false) (c : Instr) (g : Press → Press) :
    onHost c (clearPress p g) s = nextWith s (modPress p g s.dev) := by
  rw [onHost_free awake free, clearPress, opened]
  rfl

theorem onHost_clearPress_fenced {s : State} {p : Nat} (awake : asleep s.dev = false) (free : linkBusy s.dev = false)
    (closed : fenced s.dev p = true) (c : Instr) (g : Press → Press) :
    onHost c (clearPress p g) s = nextWith s (logPress p 0x0A01 false s.dev) := by
  rw [onHost_free awake free, clearPress, if_pos closed]

/-- Settles O31: a preemption by whether it is asked for and complete, a clear by whether the frisket is closed. -/
theorem preemptionAndClears : Obligations.PreemptionAndClears := by
  unfold Obligations.PreemptionAndClears
  intro s p awake
  refine ⟨?_, fun unasked => ?_, fun asked => ⟨fun complete => ?_, fun incomplete => ?_⟩, fun free opened => ?_,
    fun free closed => ?_⟩
  · rw [exec_preemptRequest, onDev_nextWith awake, doPreemptRequest]
  · rw [exec_preempted, onDev_nextWith awake, doPreempted_unasked unasked]
  · rw [exec_preempted, onDev_nextWith awake, doPreempted_complete complete]
  · rw [exec_preempted, onDev_nextWith awake, doPreempted_counts asked incomplete]
    rfl
  · have cleared := onHost_clearPress_inService awake free opened
    exact ⟨cleared _ _, fun _ => cleared _ _, cleared _ _, cleared _ _, cleared _ _⟩
  · have discarded := onHost_clearPress_fenced awake free closed
    exact ⟨discarded _ _, discarded _ _⟩

end Sys2Proof.Machine
end

section
/-!
PROOFS of the family 03_platens: passes and drains of a press's platens, and the save image of a paused task. The lemmas that
say what each operation does on the path a statement names stand before the obligation that is assembled from them.
-/
namespace Sys2Proof.Machine

/-! ## What the events of a platen share: the queue's head, the galley's side, a delivered access -/

theorem atHead_some {op : Nat → Bool} {p : Nat} {d : Device} {e : QEntry} (h : headOf d p op = some e)
    (act : QEntry → Device → Device) : atHead op p act d = act e d := by
  rw [atHead, h]

/-- The device as a press-side access finds it where the galley does not make it wait (R261). -/
def pressTurn (p : Nat) (d : Device) : Device := modPress p (fun x => { x with pressWait := false }) d

theorem onPressSide_free {p : Nat} {d : Device} (side : (press d p).chaseSide = false) (act : Device → Device) :
    onPressSide p act d = act (pressTurn p d) := by
  rw [onPressSide, side]
  rfl

/-- An access that was delivered and whose check passes goes on with what the check answers. -/
theorem afterCheck_ok {α : Type} {p phase : Nat} {e : QEntry} {pl : Option PlatenId} {r : Rd × Except (BitVec 16) α}
    {v : α} {d d' : Device} (put : putGalley p phase e pl r.1 d = (d', true)) (ok : r.2 = .ok v)
    (act : α → Device → Device) : afterCheck p phase e pl r act d = act v d' := by
  simp only [afterCheck, put, ok]

/-- A delivered access that nothing else is checked of. -/
theorem afterCheck_delivered {p phase : Nat} {e : QEntry} {pl : Option PlatenId} {r : Rd} {d d' : Device}
    (put : putGalley p phase e pl r d = (d', true)) (act : Device → Device) :
    afterCheck p phase e pl (r, .ok ()) (fun _ d => act d) d = act d' :=
  afterCheck_ok (r := (r, .ok ())) put rfl fun _ d => act d

/-! ## Passes (R110 to R134, R228 to R230) -/

/-- What a PASS or FEED at the head of the queue reads of its operands' headers when it is dispatched (R166, R229). -/
def passRead (d : Device) (p : Nat) (e : QEntry) (k : Nat) (src : OpSrc × OpSrc) :
    Rd × Except (BitVec 16) (List Fmt × List Fmt) :=
  passFormats (press d p).block p k (decide (wop e.word = 0x21)) src (galleyRd d p)

/-- A PASS or FEED that passes every check of R229 and R230 enters the pass stage. -/
theorem passAtHead_enters {d d' : Device} {p : Nat} {e : QEntry} {k m n img g : Nat} {src : OpSrc × OpSrc}
    {f : List Fmt × List Fmt} (room : stageRoom (getPlaten (press d p) (platenOf e)) = true)
    (shape : shapeReg (nth 0 e.vals 0) = some (k, m, n)) (sources : passSources p e = .ok src)
    (image : passImage p e = .ok img) (mapped : decide (wop e.word = 0x21) = true → feedMapped d (feedOf p) = true)
    (side : (press d p).chaseSide = false)
    (put : putGalley p 1 e (some (platenOf e)) (passRead (pressTurn p d) p e k src).1 (pressTurn p d) = (d', true))
    (formats : (passRead (pressTurn p d) p e k src).2 = .ok f) (cycles : passG k (f.1 ++ f.2) = .ok g)
    (kept : keepInvalid (press d p) e = false) :
    passAtHead p e d = enterPass p
      { entry := e, seq := (press d p).seq, bank := bankOf e, pre := fieldN e.word 13 12, k := k, m := m, n := n,
        a := src.1, b := src.2, feed := decide (wop e.word = 0x21), paddr := img,
        int := !decide (wop e.word = 0x21) && passInt f.1 f.2, g := g, fmtsA := f.1, fmtsB := f.2 } d' := by
  have served : (decide (wop e.word = 0x21) && !feedMapped d (feedOf p)) = false := by
    cases feed : decide (wop e.word = 0x21) with
    | false => rfl
    | true => simp [mapped feed]
  rw [passRead] at put formats
  simp only [passAtHead, room, shape, sources, image, served, onPressSide_free side, afterCheck_ok put formats, cycles,
    kept, Bool.not_true, Bool.false_eq_true, if_false]

/-- The bank image that the pass `o` loads, as read from the galley (R125). -/
def imageRead (d : Device) (p : Nat) (o : PassOp) : Rd × List Byte :=
  rdBytes (press d p).block 16 (galleyRd d p) o.paddr 33088

/-- A good image fills the bank of the pass that loads it, which is then ready to feed (R125, R134). -/
theorem doPreloadDone_loads {d d' : Device} {p : Nat} {pl : PlatenId} {o : PassOp}
    (loading : loadingPass (getPlaten (press d p) pl) = some o) (side : (press d p).chaseSide = false)
    (put : putGalley p 2 o.entry (some pl) (imageRead (pressTurn p d) p o).1 (pressTurn p d) = (d', true))
    (kind : imageKind (imageRead (pressTurn p d) p o).2 ≤ 1) :
    doPreloadDone p pl d = preloads p (modPlaten p pl (fun y =>
      let y := setBank y o.bank (imageBank (imageRead (pressTurn p d) p o).2 .ready)
      { y with passes := modWhere (fun q => decide (q.seq = o.seq)) (fun q => { q with phase := .ready }) y.passes })
      d') := by
  rw [imageRead] at put kind
  simp only [doPreloadDone, loading, onPressSide_free side, imageRead]
  exact afterCheck_ok put (if_pos kind) _

theorem not_feeding_of_nextPass {y : Platen} {o : PassOp} (h : nextPass y = some o) :
    (y.passes.any fun o => o.feed && o.phase = .feeding) = false := by
  unfold nextPass at h
  split at h
  next => cases h
  next idle => exact Bool.eq_false_iff.mpr idle

/-- A press that counts a cycle in which the inking path holds its feed port, where it does (R127, R263). -/
def countPort (p : Nat) (d : Device) : Device := if pathBusy (press d p) then countFeedGalley p d else d

theorem countPort_chaseSide {d : Device} {p : Nat} : (press (countPort p d) p).chaseSide = (press d p).chaseSide := by
  unfold countPort
  split
  · rw [countFeedGalley, press_modPress]
    split <;> rfl
  · rfl

/-- A ready pass of the galley begins to feed as soon as the galley is on its press side (R132). -/
theorem doPassFeedStart_begins {d : Device} {p : Nat} {pl : PlatenId} {o : PassOp}
    (next : nextPass (getPlaten (press d p) pl) = some o) (run : begins (press d p) = true)
    (on : domainOn d p = true) (lives : taskLives d o.entry.slot = true) (ready : o.phase = .ready)
    (galley : o.feed = false) (side : (press d p).chaseSide = false) :
    doPassFeedStart p pl d = feedStart p pl o (pressTurn p (countPort p d)) := by
  have goesOn : doPassFeedStart p pl d = onPressSide p (feedStart p pl o) (countPort p d) := by
    simp [doPassFeedStart, not_feeding_of_nextPass next, next, run, on, lives, ready, galley, countPort]
  rw [goesOn, onPressSide_free (countPort_chaseSide.trans side)]

/-- The runs of operand A of a pass, and then those of operand B, as the galley answers them (R109). -/
def readA (d : Device) (p : Nat) (o : PassOp) : Rd × List RunData :=
  readRuns (press d p).block (p % 8) 256 o.k o.a (galleyRd d p) o.fmtsA
def readB (d : Device) (p : Nat) (o : PassOp) : Rd × List RunData :=
  readRuns (press d p).block (p % 8) 32 o.k o.b (readA d p o).1 o.fmtsB

/-- A pass of the galley feeds on a bank of its own kind (R113 to R119). -/
theorem feedStart_galley {d d' : Device} {p : Nat} {pl : PlatenId} {o o' : PassOp} {y' : Platen}
    (kind : kindOk (getPlaten (press d p) pl) o = true) (galley : o.feed = false)
    (put : putGalley p 2 o.entry (some pl) (readB d p o).1 d = (d', true))
    (fed : feedGalley (getPlaten (press d p) pl) o (readA d p o).2 (readB d p o).2 = .ok (y', o')) :
    feedStart p pl o d = modPlaten p pl (fun _ => putFed y' o') d' := by
  simp only [readB, readA] at put fed
  simp only [feedStart, kind, galley, Bool.not_true, Bool.false_eq_true, if_false, fed]
  exact afterCheck_ok (r := (_, .ok (y', o'))) put rfl _

theorem doPassFeedStart_waits {d : Device} {p : Nat} {pl : PlatenId}
    (feeding : (getPlaten (press d p) pl).passes.any (fun o => o.feed && o.phase = .feeding) = true) :
    doPassFeedStart p pl d = countFeedWait p d :=
  if_pos feeding

theorem doPassSettle_settles {d : Device} {p : Nat} {pl : PlatenId} {o : PassOp}
    (settling : settlingPass (getPlaten (press d p) pl) = some o) :
    doPassSettle p pl d = preloads p (modPlaten p pl (settlePass o) d) := by
  rw [doPassSettle, settling]

/-- Settles O27: each command goes by the lemma of its event, from the dispatch of a pass to its settling. -/
theorem passesRun : Obligations.PassesRun := by
  unfold Obligations.PassesRun
  intro s p awake
  refine ⟨fun side => ⟨?_, ?_, ?_⟩, ?_, ?_⟩
  · intro e k m n a b img d' f g head pl feed room shape sources image mapped r put formats cycles kept
    rw [exec_passDispatch, onDev_nextWith awake, doPassDispatch, atHead_some head,
      passAtHead_enters room shape sources image mapped side put formats cycles kept]
  · intro pl o d' loading r put kind
    rw [exec_preloadDone, onDev_nextWith awake, doPreloadDone_loads loading side put kind]
    rfl
  · intro pl o d' y' o' next run on lives ready galley d1 y kind ra rb put fed
    rw [exec_passFeedStart, onDev_nextWith awake, doPassFeedStart_begins next run on lives ready galley side]
    exact congrArg (nextWith s) (feedStart_galley kind galley put fed)
  · intro pl feeding
    rw [exec_passFeedStart, onDev_nextWith awake, doPassFeedStart_waits feeding]
  · intro pl o settling
    rw [exec_passSettle, onDev_nextWith awake, doPassSettle_settles settling]

/-! ## Drains (R121 to R133, R157, R158, R168, R231, R232) -/

/-- A bank save opens no tile. -/
theorem drainAtHead_save {d : Device} {p : Nat} {e : QEntry} {o : DrainOp}
    (empty : (getPlaten (press d p) (platenOf e)).drain = none) (checked : drainCheck d p e = .ok o)
    (filled : drainInvalid (press d p) o = false) (save : o.save = true) :
    drainAtHead p e d = enterDrain p o (press d p).opens d := by
  simp [drainAtHead, empty, checked, filled, save]

/-- A converting drain enters with its place in the list of open tiles (R168, R232). -/
theorem drainAtHead_converts {d : Device} {p : Nat} {e : QEntry} {o : DrainOp} {l : List OpenDest}
    (empty : (getPlaten (press d p) (platenOf e)).drain = none) (checked : drainCheck d p e = .ok o)
    (filled : drainInvalid (press d p) o = false) (converts : o.save = false) (tile : openTile d p o = some l) :
    drainAtHead p e d = enterDrain p o l d := by
  simp [drainAtHead, empty, checked, filled, converts, tile]

/-- A drain begins when it has its turn on the inking path, a converting one on a free inking unit (R122, R133). -/
theorem doDrainStart_begins {d : Device} {p : Nat} {pl : PlatenId} {o : DrainOp}
    (drain : (getPlaten (press d p) pl).drain = some o) (fresh : o.started = false)
    (first : earlierPass (getPlaten (press d p) pl) o.bank o.seq = false) (turn : pathTurn (press d p) o.seq = true)
    (on : domainOn d p = true) (free : o.save = true ∨ unitFree (press d p) = true)
    (side : (press d p).chaseSide = false) :
    doDrainStart p pl d = (if o.save then drainSave p pl o else drainRun p pl o) (pressTurn p d) := by
  have unit : (!o.save && !unitFree (press d p)) = false := by
    rcases free with save | free
    · simp [save]
    · simp [free]
  simp [doDrainStart, drain, fresh, first, turn, on, unit, onPressSide_free side]

/-- The bank that a drain of platen `pl` empties. -/
def drainedBank (d : Device) (p : Nat) (pl : PlatenId) (o : DrainOp) : Bank :=
  getBank (getPlaten (press d p) pl) o.bank

theorem drainSave_begins {d d' : Device} {p : Nat} {pl : PlatenId} {o : DrainOp}
    (put : putGalley p 2 o.entry (some pl) (rdWrite (press d p).block 16 (galleyRd d p) o.addr
      (imageBytes (drainedBank d p pl o) (b2n (drainedBank d p pl o).int))) d = (d', true)) :
    drainSave p pl o d = drainBegun p pl o d' :=
  afterCheck_delivered put (drainBegun p pl o)

/-! The stages of a converting drain, in their order: bias, conversion, the tile's header, the elements and the counts. -/

def biasOf (d : Device) (p : Nat) (o : DrainOp) : Rd × List Word := drainBias (press d p).block o (galleyRd d p)

def converted (d : Device) (p : Nat) (pl : PlatenId) (o : DrainOp) : DrainOut :=
  drainConvert (drainedBank d p pl o) o (taskSeed d o.entry.slot).1 (taskSeed d o.entry.slot).2 (biasOf d p o).2

def headerWritten (d : Device) (p : Nat) (pl : PlatenId) (o : DrainOp) : Rd :=
  drainHeader (press d p).block (press d p) o (converted d p pl o).counts (biasOf d p o).1

def elementsWritten (d : Device) (p : Nat) (pl : PlatenId) (o : DrainOp) : Rd × Nat :=
  drainWrite (press d p).block o (converted d p pl o).cells (headerWritten d p pl o)

def conversionCounts (d : Device) (p : Nat) (pl : PlatenId) (o : DrainOp) : FmtCounts :=
  drainCounted (drainedBank d p pl o) o (taskSeed d o.entry.slot).1 (taskSeed d o.entry.slot).2 (biasOf d p o).2
    (converted d p pl o) (elementsWritten d p pl o)

/-- A drain whose writes are delivered counts every conversion (R100). -/
theorem drainCounted_delivered {rn : Rd × Nat} (delivered : rdFailed rn.1 = false) (b : Bank) (o : DrainOp)
    (seed step : BitVec 64) (bias : List Word) (out : DrainOut) :
    drainCounted b o seed step bias out rn = out.counts := by
  simp [drainCounted, delivered]

/-- A converting drain of which no element faults writes its rows and begins to drain its bank. -/
theorem drainRun_begins {d d' : Device} {p : Nat} {pl : PlatenId} {o : DrainOp}
    (faultless : (converted d p pl o).fault = none)
    (put : putGalley p 2 o.entry (some pl) (elementsWritten d p pl o).1
      (drainCounts p (conversionCounts d p pl o)
        (drainOpens p o (converted d p pl o).counts (headerWritten d p pl o) d)) = (d', true)) :
    drainRun p pl o d = drainBegun p pl o d' := by
  have writes : drainRun p pl o d = afterCheck p 2 o.entry (some pl) ((elementsWritten d p pl o).1, .ok ())
      (fun _ d => drainBegun p pl o d) (drainCounts p (conversionCounts d p pl o)
        (drainOpens p o (converted d p pl o).counts (headerWritten d p pl o) d)) := by
    rw [converted, biasOf, drainedBank] at faultless
    simp only [drainRun, faultless]
    rfl
  rw [writes, afterCheck_delivered put]

/-- The open tile that a drain closes (R168). -/
def closedTile (x : Press) (o : DrainOp) : Option OpenDest :=
  if o.close then x.opens.find? (sameTile o.addr) else none

/-- A drain that is done leaves its stage, and its tile's header is written with valid 1 where it closes one (R232). -/
def closeDrain (p : Nat) (pl : PlatenId) (o : DrainOp) (mask : BitVec 32) (tile : Option OpenDest) (d : Device) : Device :=
  match tile with
  | none => drainLeave p pl o d
  | some t => afterCheck p 2 o.entry (some pl)
      (rdWrite mask 16 (galleyRd d p) o.addr (destHeader t false true), .ok ()) (fun _ d =>
        drainLeave p pl o (modPress p (fun x => { x with opens := x.opens.eraseP (sameTile o.addr) }) d)) d

theorem closeDrain_stays (p : Nat) (pl : PlatenId) (o : DrainOp) (mask : BitVec 32) (d : Device) :
    closeDrain p pl o mask none d = drainLeave p pl o d := rfl

theorem closeDrain_closes {d d' : Device} {p : Nat} {pl : PlatenId} {o : DrainOp} {mask : BitVec 32} {t : OpenDest}
    (put : putGalley p 2 o.entry (some pl) (rdWrite mask 16 (galleyRd d p) o.addr (destHeader t false true)) d
      = (d', true)) :
    closeDrain p pl o mask (some t) d
      = drainLeave p pl o (modPress p (fun x => { x with opens := x.opens.eraseP (sameTile o.addr) }) d') := by
  rw [closeDrain, afterCheck_delivered put]

/-- DRAIN_DONE closes the tile after the flush of the merge buffer (R304). -/
theorem doDrainDone_flushes {d d1 : Device} {p : Nat} {pl : PlatenId} {o : DrainOp}
    (drain : (getPlaten (press d p) pl).drain = some o) (started : o.started = true)
    (side : (press d p).chaseSide = false)
    (flush : putGalley p 2 o.entry (some pl) (rdFlush (galleyRd (pressTurn p d) p)) (pressTurn p d) = (d1, true)) :
    doDrainDone p pl d = closeDrain p pl o (press d p).block (closedTile (press d p) o) d1 := by
  simp only [doDrainDone, drain, started, Bool.not_true, Bool.false_eq_true, if_false, onPressSide_free side]
  exact afterCheck_delivered flush (closeDrain p pl o (press d p).block (closedTile (press d p) o))

/-- Settles O28: a drain and a bank save part at the dispatch and at the start; DRAIN_DONE goes by the tile it closes. -/
theorem drainsRun : Obligations.DrainsRun := by
  unfold Obligations.DrainsRun
  intro s p awake
  refine ⟨?_, fun pl o drain side => ⟨?_, ?_⟩⟩
  · intro e o l head empty checked filled
    simp only [exec_drainDispatch, onDev_nextWith awake, doDrainDispatch, atHead_some head]
    constructor
    · intro save
      rw [drainAtHead_save empty checked filled save]
    · intro converts tile
      rw [drainAtHead_converts empty checked filled converts tile]
  · intro fresh first turn on bank
    have begun := fun free => doDrainStart_begins drain fresh first turn on free side
    refine ⟨fun save d' put => ?_, fun converts free => ⟨?_, fun faultless d' put => ?_⟩⟩
    · rw [exec_drainStart, onDev_nextWith awake, begun (.inl save), if_pos save]
      exact congrArg (nextWith s) (drainSave_begins put)
    · exact fun delivered => drainCounted_delivered delivered _ _ _ _ _ _
    · rw [exec_drainStart, onDev_nextWith awake, begun (.inr free), converts]
      exact congrArg (nextWith s) (drainRun_begins faultless put)
  · intro started q d1 flush
    rw [exec_drainDone, onDev_nextWith awake, doDrainDone_flushes drain started side flush]
    constructor
    · intro stays
      rw [show closedTile (press s.dev p.1) o = none from stays, closeDrain_stays]
    · intro t d2 closes put
      rw [show closedTile (press s.dev p.1) o = some t from closes, closeDrain_closes put]

/-! ## The save image (R384 to R391) -/

theorem doSaveDone_saves {d : Device} {id : BitVec 64} {t : Ticket} {r : PauseSt} (ticket : ticketById d id = some t)
    (pause : t.pause = some r) (abort : t.abort = none) (reached : pauseReached d t.slot = true)
    (issue : busesIssue d = true) : doSaveDone id d = saveTask t r.addr d := by
  simp [doSaveDone, ticket, pause, abort, reached, issue]

/-- The formes of a section each, with the presses that the ticket holds of them (R387). -/
def heldFormes (d : Device) (t : Ticket) : List (Nat × BitVec 8) :=
  (savedFormes d t).map fun vf => (vf.2, heldMask d t.slot vf.2)

/-- A galley or case with a blocked bank faults the task before anything is saved (R311). -/
theorem saveTask_blocked {d d1 : Device} {t : Ticket} {k : MemId} {a : Nat} (flush : flushTask t.slot d = (d1, false))
    (blocked : blockedImage d1 (heldFormes d1 t) = some (k, a)) (addr : Nat) :
    saveTask t addr d = faultBlocked t.slot k a 0xFF none { phase := 3 } d1 := by
  rw [heldFormes] at blocked
  simp only [saveTask, flush, blocked]

/-- The elapsed sheets of a paused ticket (R387). -/
def elapsedAt (d : Device) (t : Ticket) : Nat := d.sheet + 1 + t.elapsed - t.start

/-- The header page of an image whose sections are `v` (R387). -/
def savedHeader (d : Device) (t : Ticket) (v : List Byte) : List Byte :=
  headerHead t (savedFormes d t) (elapsedAt d t) ++ leBytes 8 (tally (bytesOf 4032 0 ++ v)).toNat ++ bytesOf 8 0
    ++ bytesOf 4032 0

/-- The header is written after the sections that follow it (R386). -/
theorem saveTask_writes {d d1 d2 : Device} {t : Ticket} {v : List Byte} (flush : flushTask t.slot d = (d1, false))
    (clear : blockedImage d1 (heldFormes d1 t) = none)
    (saved : (heldFormes d1 t).foldl saveForme (d1, [], none) = (d2, v, none)) (addr : Nat) :
    saveTask t addr d = endPause t addr (elapsedAt d1 t)
      (writeImage addr (savedHeader d1 t v) (writeImage (addr + 4096) v d2)) := by
  rw [heldFormes] at clear saved
  simp only [saveTask, flush, clear, saved]
  rfl

theorem doRestoreDone_restores {d : Device} {f : Nat} {t : Ticket} (task : (forme d f).task.bind (ticketOf d) = some t)
    (loading : (forme d f).state = .loading) (resume : t.resume = true) (abort : t.abort = none)
    (issue : busesIssue d = true) (on : (maskPresses f (forme d f).pmask.toNat).all (domainOn d) = true) :
    doRestoreDone f d = restoreTask f t d := by
  simp [doRestoreDone, task, loading, resume, abort, issue, on]

/-- The image of a resumed ticket lies in HBM, and the restore reads it: its header page `h`, which leaves the device `d1`,
and then its sections `body`, which leaves `d2` (R390). -/
structure ImageRead (d : Device) (f : Nat) (t : Ticket) (h body : List Byte) (d1 d2 : Device) : Prop where
  headerFits   : t.program + 4096 ≤ hbmBytes d.part
  header       : readLoad f t.program 4096 d = (d1, some h)
  notEmpty     : leAt h 3 1 ≠ 0
  atMost16     : leAt h 3 1 ≤ 16
  sectionsFit  : t.program + 4096 + sectionSize * leAt h 3 1 ≤ hbmBytes d1.part
  sections     : readLoad f (t.program + 4096) (sectionSize * leAt h 3 1) d1 = (d2, some body)

/-- The section of virtual forme `v` of an image (R388). -/
def sectionOf (h body : List Byte) (v : Nat) : List Byte :=
  (body.drop (sectionSize * sectionsBefore (leAt h 44 2) v)).take sectionSize

/-- The ticket of `slot` takes its seed, step and elapsed sheets back from the header (R391). -/
def resumeFrom (h : List Byte) (slot : Nat) : Device → Device := modTicket slot fun t =>
  { t with seed := BitVec.ofNat 64 (leAt h 24 8), step := BitVec.ofNat 64 (leAt h 32 8), elapsed := leAt h 40 4 }

section Restore
variable {d d1 d2 : Device} {f : Nat} {t : Ticket} {h body : List Byte}

/-- The header's section count is in range and its sections end within HBM. -/
theorem ImageRead.sized (read : ImageRead d f t h body d1 d2) :
    (decide (leAt h 3 1 = 0) || decide (16 < leAt h 3 1)
      || decide (hbmBytes d1.part < t.program + 4096 + sectionSize * leAt h 3 1)) = false := by
  simp [read.notEmpty, read.atMost16, read.sectionsFit]

theorem restoreTask_refused {c : BitVec 16} (read : ImageRead d f t h body d1 d2)
    (bad : imageFault t (forme d2 f).vforme h body = some c) : restoreTask f t d = imageBad f t c d2 := by
  rw [restoreTask, if_neg (Nat.not_lt.mpr read.headerFits)]
  simp only [read.header, read.sized, read.sections, bad, Bool.false_eq_true, if_false]

/-- An image that passes its checks goes to its forme and presses where none of their banks is blocked (R311). -/
theorem restoreTask_restores (read : ImageRead d f t h body d1 d2)
    (good : imageFault t (forme d2 f).vforme h body = none)
    (clear : blockedImage d2 [(f, (forme d2 f).pmask)] = none) :
    restoreTask f t d = restoreForme f t (sectionOf h body (forme d2 f).vforme) (resumeFrom h t.slot d2) := by
  rw [restoreTask, if_neg (Nat.not_lt.mpr read.headerFits)]
  simp only [read.header, read.sized, read.sections, good, clear, Bool.false_eq_true, if_false]
  rfl

end Restore

/-- Settles O43: the save by what its banks let it read, the restore by what the image's checks answer. -/
theorem imagesSavedAndRestored : Obligations.ImagesSavedAndRestored := by
  unfold Obligations.ImagesSavedAndRestored
  intro s awake
  refine ⟨?_, ?_⟩
  · intro id t r ticket pause abort reached issue d1 flush
    rw [exec_saveDone, onDev_nextWith awake, doSaveDone_saves ticket pause abort reached issue]
    refine ⟨fun k a blocked => ?_, fun clear d2 v saved => ?_⟩
    · rw [saveTask_blocked flush blocked]
    · exact congrArg (nextWith s) (saveTask_writes flush clear saved r.addr)
  · intro f t d1 h d2 body task loading resume abort issue on headerFits header n notEmpty atMost16
      sectionsFit sections v
    have read : ImageRead s.dev f.1 t h body d1 d2 :=
      ⟨headerFits, header, notEmpty, atMost16, sectionsFit, sections⟩
    rw [exec_restoreDone, onDev_nextWith awake, doRestoreDone_restores task loading resume abort issue on]
    refine ⟨fun c bad => ?_, fun good clear => ?_⟩
    · rw [restoreTask_refused read bad]
    · exact congrArg (nextWith s) (restoreTask_restores read good clear)

end Sys2Proof.Machine
end

section
/-!
PROOFS of the family 04_inking_and_justifying: INK and JUSTIFY of a press's inking unit, from dispatch to done. The lemmas
that say what each of the four events does on the path the statement names stand before the obligation.
-/
namespace Sys2Proof.Machine

/-! ## INK (R145 to R156, R233 to R235) -/

/-- The device on which an INK reads its sources: one that touches the galley has its turn there first (R261). -/
def inkTurn (p : Nat) (k : InkPlan) (d : Device) : Device := if inkGalley k then pressTurn p d else d

/-- A checked INK runs where the unit takes it and the galley, if it touches it, is on its press side. -/
theorem inkAtHead_runs {d : Device} {p : Nat} {e : QEntry} {k : InkPlan} (unit : unitTakes (press d p) = true)
    (plan : inkPlan d p e = .ok k) (side : inkGalley k = true → (press d p).chaseSide = false) :
    inkAtHead p e d = inkRun p e k (inkTurn p k d) := by
  simp only [inkAtHead, unit, plan, inkTurn, Bool.not_true, Bool.false_eq_true, if_false]
  split
  next galley => exact onPressSide_free (side galley) _
  next => rfl

/-- The sources `A`, `B` and `C` of an INK, read in this order (R146, R233). -/
def inkReadA (d : Device) (p : Nat) (e : QEntry) (k : InkPlan) : Rd × List Word :=
  inkSource (press d p).block (press d p).ink e.vals (galleyRd d p) k.ctl.a k.vecA
def inkReadB (d : Device) (p : Nat) (e : QEntry) (k : InkPlan) : Rd × List Word :=
  inkSource (press d p).block (press d p).ink e.vals (inkReadA d p e k).1 k.ctl.b k.vecB
def inkReadC (d : Device) (p : Nat) (e : QEntry) (k : InkPlan) : Rd × List Word :=
  inkSource (press d p).block (press d p).ink e.vals (inkReadB d p e k).1 k.ctl.c k.vecC

/-- What an INK that is no comparison computes of its sources, on the device that its reads leave. -/
def inkResult (d d' : Device) (p : Nat) (e : QEntry) (k : InkPlan) : InkOut :=
  inkCompute d' p e k (inkReadA d p e k).2 (inkReadB d p e k).2 (inkReadC d p e k).2

section InkRun
variable {d d' : Device} {p : Nat} {e : QEntry} {k : InkPlan}

/-- A comparison takes the unit with the mask it will write (R149, R235). -/
theorem inkRun_compares (put : putGalley p 2 e none (inkReadC d p e k).1 d = (d', true)) (compares : k.iop = 6) :
    inkRun p e k d = takeUnit p ⟨e, [], some (k.ctl.d,
      inkCompare (press d p).ink k (inkReadA d p e k).2 (inkReadB d p e k).2), []⟩ false d' := by
  rw [inkReadC, inkReadB, inkReadA] at put
  simp only [inkRun, compares, if_true]
  exact afterCheck_delivered put _

/-- An INK of which no lane faults takes the unit with what it will write, and its conversions count (R104). -/
theorem inkRun_writes (put : putGalley p 2 e none (inkReadC d p e k).1 d = (d', true)) (values : k.iop ≠ 6)
    (faultless : (inkResult d d' p e k).fault = none) :
    inkRun p e k d = takeUnit p (inkWrites e k (inkResult d d' p e k)) (decide (k.mode.rnd = .sr))
      (modPress p (fun x => { x with fmt := addCounts x.fmt (inkResult d d' p e k).counts }) d') := by
  rw [inkReadC, inkReadB, inkReadA] at put
  simp only [inkResult, inkReadC, inkReadB, inkReadA] at faultless ⊢
  simp only [inkRun, values, if_false, afterCheck_delivered put, faultless]

end InkRun

/-- An INK whose results are lanes or a mask is done without the galley. -/
theorem doInkDone_registers {d : Device} {p : Nat} {o : InkOp} (inking : (press d p).inkOp = some o)
    (registers : o.mem = []) : doInkDone p d = inkFinish p o d := by
  simp only [doInkDone, inking, registers, if_true]

/-- The galley after the elements of an INK's vector, with the merge buffer flushed (R304). -/
def inkVector (d : Device) (p : Nat) (o : InkOp) : Rd :=
  rdFlush (o.mem.foldl (fun r w => rdWrite (press d p).block 16 r w.1 w.2) (galleyRd d p))

/-- An INK whose results are a galley vector is done once they are delivered. -/
theorem doInkDone_vector {d d' : Device} {p : Nat} {o : InkOp} (inking : (press d p).inkOp = some o)
    (vector : o.mem ≠ []) (side : (press d p).chaseSide = false)
    (put : putGalley p 2 o.entry none (inkVector (pressTurn p d) p o) (pressTurn p d) = (d', true)) :
    doInkDone p d = inkFinish p o d' := by
  simp only [doInkDone, inking, vector, if_false, onPressSide_free side]
  exact afterCheck_delivered put (inkFinish p o)

/-! ## JUSTIFY (R159 to R168, R236) -/

/-- A delivered access whose check fails faults with the code of the check. -/
theorem afterCheck_error {α : Type} {p phase : Nat} {e : QEntry} {pl : Option PlatenId} {r : Rd} {d d' : Device}
    (put : putGalley p phase e pl r d = (d', true)) (c : BitVec 16) (act : α → Device → Device) :
    afterCheck p phase e pl (r, .error c) act d = faultEntry p phase e c pl d' := by
  simp only [afterCheck, put]

/-- What a JUSTIFY reads of its source tile: the header, and then the rows (R161, R162). -/
def jusTile (d : Device) (p : Nat) (o : JusOp) : Rd × Except (BitVec 16) JusOp :=
  jusHeader (press d p).block p o (galleyRd d p)
def jusRows (d : Device) (p : Nat) (o : JusOp) : Rd × List (List Val) :=
  jusSource (press d p).block p o (galleyRd d p)

/-- A JUSTIFY that passes its checks starts with a place for its slug in the list (R168). -/
theorem jusAtHead_starts {d d' : Device} {p : Nat} {e : QEntry} {o o' : JusOp} {l : List OpenDest}
    (unit : unitTakes (press d p) = true) (checked : jusCheck d p e = .ok o) (side : (press d p).chaseSide = false)
    (put : putGalley p 1 e none (jusTile (pressTurn p d) p o).1 (pressTurn p d) = (d', true))
    (tile : (jusTile (pressTurn p d) p o).2 = .ok o') (slug : openSlug d' p o' = some l) :
    jusAtHead p e d = jusStart p e o' l d' := by
  rw [jusTile] at put tile
  simp only [jusAtHead, unit, checked, onPressSide_free side, afterCheck_ok put tile, slug, Bool.not_true,
    Bool.false_eq_true, if_false]

/-- The source converted to the format `f`, under the modes of the JUSTIFY (R162). -/
def jusIn (o : JusOp) (seed step : BitVec 64) (src : List (List Val)) (f : Fmt) : JusOut :=
  jusConvert f ⟨if o.sr then .sr else .rne, .sat, o.squash, true⟩ seed step o.quoin o.slug o.m src

/-- The JUSTIFY falls back: its trial exceeds a limit, and it has another format to fall back to (R163). -/
def jusFallsBack (o : JusOp) (seed step : BitVec 64) (src : List (List Val)) : Bool :=
  jusExceeds o.van o.sat (jusIn o seed step src o.fmt) && decide (o.fb ≠ o.fmt)

/-- The conversion whose results the slug holds: the fallback's, or the trial's. -/
def jusFinal (o : JusOp) (seed step : BitVec 64) (src : List (List Val)) : JusOut :=
  if jusFallsBack o seed step src then jusIn o seed step src o.fb else jusIn o seed step src o.fmt

/-- The JUSTIFY with the slug that it will write. -/
def jusWithSlug (p : Nat) (o : JusOp) (seed step : BitVec 64) (src : List (List Val)) : JusOp :=
  { o with
    image := slugImage p o step (jusIn o seed step src o.fmt) (jusFinal o seed step src)
      (if jusFallsBack o seed step src then o.fb else o.fmt) (jusFallsBack o seed step src)
    promoted := jusFallsBack o seed step src
    noughts := (((jusFinal o seed step src).leads.take o.m).filter (· = 0x80#8)).length
    counts := (jusFinal o seed step src).counts }

section Trial
variable {o : JusOp} {seed step : BitVec 64} {src : List (List Val)}

/-- A NaN that the trial meets under FAULT faults before the slug is made (R162). -/
theorem jusSlug_faults {c : BitVec 16} (p : Nat) (fault : (jusIn o seed step src o.fmt).fault = some c) :
    jusSlug p o seed step src = .error c := by
  unfold jusSlug
  extract_lets md trial
  rw [show trial.fault = some c from fault]

theorem jusSlug_converts (p : Nat) (tried : (jusIn o seed step src o.fmt).fault = none)
    (final : (jusFinal o seed step src).fault = none) :
    jusSlug p o seed step src = .ok (jusWithSlug p o seed step src) := by
  unfold jusSlug
  extract_lets md trial promoted f out
  rw [show trial.fault = none from tried, show out.fault = none from final]
  rfl

end Trial

section Start
variable {d d' : Device} {p : Nat} {e : QEntry} {o : JusOp} {l : List OpenDest}

/-- What a JUSTIFY does once its rows are read and its slug is made. -/
theorem jusStart_eq (p : Nat) (e : QEntry) (o : JusOp) (l : List OpenDest) (d : Device) :
    jusStart p e o l d = afterCheck p 2 e none
      ((jusRows d p o).1, jusSlug p o (taskSeed d e.slot).1 (taskSeed d e.slot).2 (jusRows d p o).2)
      (fun o d => jusBegin p o (popHead p (modPress p (fun x => { x with jusOp := some o, opens := l }) d))) d := by
  rw [jusStart, ← jusRows]

theorem jusStart_faults {c : BitVec 16} (put : putGalley p 2 e none (jusRows d p o).1 d = (d', true))
    (fault : jusSlug p o (taskSeed d e.slot).1 (taskSeed d e.slot).2 (jusRows d p o).2 = .error c) :
    jusStart p e o l d = faultEntry p 2 e c none d' := by
  rw [jusStart_eq, fault, afterCheck_error put]

/-- A JUSTIFY that has converted its rows takes the unit, and opens its slug before any element is written (R168). -/
theorem jusStart_begins {o' : JusOp} (put : putGalley p 2 e none (jusRows d p o).1 d = (d', true))
    (slug : jusSlug p o (taskSeed d e.slot).1 (taskSeed d e.slot).2 (jusRows d p o).2 = .ok o') :
    jusStart p e o l d
      = jusBegin p o' (popHead p (modPress p (fun x => { x with jusOp := some o', opens := l }) d')) := by
  rw [jusStart_eq, slug]
  exact afterCheck_ok (r := (_, .ok o')) put rfl _

end Start

/-- A slug of the case is written there; the galley is not asked for. -/
theorem doJustifyDone_case {d : Device} {p : Nat} {o : JusOp} (justifying : (press d p).jusOp = some o)
    (slot : o.inCase = true) : doJustifyDone p d = slugToCase p o o.image (modPress p (jusCounts o)) d := by
  simp only [doJustifyDone, justifying, slot, if_true]

/-- The galley after a slug has been written, with the merge buffer flushed (R304). -/
def slugWritten (d : Device) (p : Nat) (o : JusOp) : Rd :=
  rdFlush (rdWrite (press d p).block 16 (galleyRd d p) o.addr o.image)

/-- A slug of the galley counts, and is no longer open, once it is delivered. -/
theorem doJustifyDone_galley {d d' : Device} {p : Nat} {o : JusOp} (justifying : (press d p).jusOp = some o)
    (slot : o.inCase = false) (side : (press d p).chaseSide = false)
    (put : putGalley p 2 o.entry none (slugWritten (pressTurn p d) p o) (pressTurn p d) = (d', true)) :
    doJustifyDone p d = modPress p (jusCounts o) d' := by
  simp only [doJustifyDone, justifying, slot, Bool.false_eq_true, if_false, onPressSide_free side]
  exact afterCheck_delivered put (modPress p (jusCounts o))

/-- Settles O29: an INK by whether it compares and whether it writes a vector, a JUSTIFY by its trial and its slug's place. -/
theorem inkAndJustify : Obligations.InkAndJustify := by
  unfold Obligations.InkAndJustify
  intro s p awake
  refine ⟨?_, fun o inking => ⟨?_, ?_⟩, fun side => ?_, fun o justifying => ⟨?_, ?_⟩⟩
  · intro e k head unit plan d0 side ra rb rc d' put
    rw [exec_inkDispatch, onDev_nextWith awake, doInkDispatch, atHead_some head, inkAtHead_runs unit plan side]
    refine ⟨fun compares => ?_, fun values => ?_⟩
    · exact congrArg (nextWith s) (inkRun_compares put compares)
    · exact fun faultless => congrArg (nextWith s) (inkRun_writes put values faultless)
  · intro registers
    rw [exec_inkDone, onDev_nextWith awake, doInkDone_registers inking registers, inkFinish]
  · intro vector side d' put
    rw [exec_inkDone, onDev_nextWith awake, doInkDone_vector inking vector side put, inkFinish]
  · intro e o o' l d' head unit checked put tile slug src d2 rows seed step md conv trial promoted f out
    rw [exec_justifyDispatch, onDev_nextWith awake, doJustifyDispatch, atHead_some head,
      jusAtHead_starts unit checked side put tile slug]
    refine ⟨fun tried final => ?_, fun c fault => ?_⟩
    · exact congrArg (nextWith s) (jusStart_begins rows (jusSlug_converts p.1 tried final))
    · exact congrArg (nextWith s) (jusStart_faults rows (jusSlug_faults p.1 fault))
  · intro slot
    rw [exec_justifyDone, onDev_nextWith awake, doJustifyDone_case justifying slot]
  · intro slot side d' put
    rw [exec_justifyDone, onDev_nextWith awake, doJustifyDone_galley justifying slot side put]

end Sys2Proof.Machine
end

section
/-!
PROOFS of the family 05_compositor: how a compositor issues a word, what each scalar instruction answers on the registers
and data memories of its forme, the issue of tensor instructions, the synchronisation of the core and of a press queue,
and the beginning and end of a program. The lemmas that say what each operation does stand before the obligation.
-/
namespace Sys2Proof.Machine

/-! ## How a fetched word issues (R188 to R191, R207, R208) -/

/-- The device once the corrected errors of a fetch are counted and reported. -/
def afterFetch (d : Device) (f : Nat) : Device := memEvents (.imem f) 1 none (fetchWord d f).2 d

theorem issueAs_stopped {d : Device} {f : Nat} (stopped : mayIssue d f = false) (op : Nat)
    (act : Word → Device → Device) : issueAs op f act d = d := by
  simp [issueAs, stopped]

section Fetched
variable {d : Device} {f : Nat} (may : mayIssue d f = true) (good : firstBad (fetchWord d f).2 = none)
include may good

theorem issueAs_illegal (illegal : wordValid (fetchWord d f).1 = false) (op : Nat) (act : Word → Device → Device) :
    issueAs op f act d = faultIssue f (fetchWord d f).1 0 codeIllegal (afterFetch d f) := by
  simp [issueAs, may, good, illegal, afterFetch]

section Valid
variable (valid : wordValid (fetchWord d f).1 = true) {op : Nat} (code : wop (fetchWord d f).1 = op)
include valid code

theorem issueAs_turnedOff (off : qualOn (fetchWord d f).1 (forme (afterFetch d f) f).regs = false)
    (act : Word → Device → Device) : issueAs op f act d = modForme f advance (afterFetch d f) := by
  simp only [afterFetch] at off
  simp [issueAs, may, good, valid, code, off, afterFetch]

variable (executes : qualOn (fetchWord d f).1 (forme (afterFetch d f) f).regs = true)
include executes

theorem issueAs_interlocked (reads : interlocked (forme (afterFetch d f) f) (fetchWord d f).1 = true)
    (act : Word → Device → Device) :
    issueAs op f act d = modForme f (fun x => { x with interlock := satAdd x.interlock 1 }) (afterFetch d f) := by
  simp only [afterFetch] at executes reads
  simp [issueAs, may, good, valid, code, executes, reads, afterFetch]

theorem issueAs_executes (free : interlocked (forme (afterFetch d f) f) (fetchWord d f).1 = false)
    (act : Word → Device → Device) : issueAs op f act d = act (fetchWord d f).1 (afterFetch d f) := by
  simp only [afterFetch] at executes free
  simp [issueAs, may, good, valid, code, executes, free, afterFetch]

end Valid
end Fetched

section Issuing
variable {d d' : Device} {f : Nat} {w : Word}

/-- A word that issues is acted on as the fetch leaves the device. -/
theorem issueAs_acts (issues : Issues d f w d') {op : Nat} (code : wop w = op) (act : Word → Device → Device) :
    issueAs op f act d = act w d' := by
  obtain ⟨may, rfl, good, valid, rfl, qual, free⟩ := issues
  exact issueAs_executes may good valid code qual free act

theorem runScalar_faults (issues : Issues d f w d') {op : Nat} (code : wop w = op) {co : Word → Forme → CoOut}
    {c : BitVec 16} (fault : co w (advance (forme d' f)) = .fault c) :
    runScalar op co f d = faultIssue f w 0 c d' := by
  rw [runScalar, issueAs_acts issues code, fault]

/-- A scalar instruction whose accesses report no uncorrectable error has its effect whole; a store also owns what it
leaves in the merge buffers (R304). -/
theorem runScalar_acts (issues : Issues d f w d') {op : Nat} (code : wop w = op) {co : Word → Forme → CoOut}
    {x : Forme} {evs : List (Nat × MemEv)} (runs : co w (advance (forme d' f)) = .ok x evs)
    (good : evs.all (!·.2.bad) = true) :
    runScalar op co f d =
      dataEvents f evs (modForme f (fun _ => if op = 0x09 then storeOwn f w d' x else x) d') := by
  have faultless : evs.find? (fun ce => ce.2.bad && !ce.2.flush) = none := by
    rw [List.find?_eq_none]
    intro ce mem
    have fine : ce.2.bad = false := by simpa using List.all_eq_true.mp good ce mem
    simp [fine]
  rw [runScalar, issueAs_acts issues code, runs]
  simp only [faultless]

end Issuing

section Answers
variable {s : State} {f : Nat} {w : Word} {d : Device} (awake : asleep s.dev = false) (issues : Issues s.dev f w d)
  {op : Nat} (code : wop w = op) {co : Word → Forme → CoOut}
include awake issues code

theorem scalar_faults {c : BitVec 16} (fault : co w (advance (forme d f)) = .fault c) :
    onDev (runScalar op co f) s = nextWith s (faultIssue f w 0 c d) := by
  rw [onDev_nextWith awake, runScalar_faults issues code fault]

/-- An instruction other than ST that reports nothing changes its forme alone. -/
theorem scalar_answers {x : Forme} (runs : co w (advance (forme d f)) = .ok x []) (other : op ≠ 0x09 := by decide) :
    onDev (runScalar op co f) s = nextWith s (modForme f (fun _ => x) d) := by
  rw [onDev_nextWith awake, runScalar_acts issues code runs rfl, if_neg other]
  rfl

/-- An instruction other than ST that accesses memory. -/
theorem scalar_accesses {x : Forme} {evs : List (Nat × MemEv)} (runs : co w (advance (forme d f)) = .ok x evs)
    (good : evs.all (!·.2.bad) = true) (other : op ≠ 0x09 := by decide) :
    onDev (runScalar op co f) s = nextWith s (dataEvents f evs (modForme f (fun _ => x) d)) := by
  rw [onDev_nextWith awake, runScalar_acts issues code runs good, if_neg other]

/-- An ST. -/
theorem store_accesses (store : op = 0x09) {x : Forme} {evs : List (Nat × MemEv)}
    (runs : co w (advance (forme d f)) = .ok x evs) (good : evs.all (!·.2.bad) = true) :
    onDev (runScalar op co f) s = nextWith s (dataEvents f evs (modForme f (fun _ => storeOwn f w d x) d)) := by
  rw [onDev_nextWith awake, runScalar_acts issues code runs good, if_pos store]

end Answers

/-! ## Scalar instructions on registers (R212, R213, R216, R217, R222) -/

section Registers
variable {w : Word} {x : Forme}

theorem coNop_ok (zero : fieldN w 21 0 = 0) : coNop w x = .ok x [] := if_pos zero

theorem coHalt_ok (zero : fieldN w 21 0 = 0) : coHalt w x = .ok { x with state := .finishing } [] := if_pos zero

theorem coAlu_ok {o : AluOut} (zero : fieldN w 5 4 = 0)
    (unary : fieldN w 3 0 = 13 ∨ fieldN w 3 0 = 14 → bit w 6 = false ∧ fieldN w 11 7 = 0)
    (result : alu (fieldN w 3 0) (rg x.regs (fieldN w 16 12))
      (if bit w 6 then BitVec.ofNat 32 (fieldN w 11 7) else rg x.regs (fieldN w 11 7)) = some o) :
    coAlu w x = coRegs x { wg x.regs (fieldN w 21 17) o.res with sr := setNzcv x.regs.sr o } := by
  have wellFormed : ¬ ((fieldN w 5 4 ≠ 0 ||
      (fieldN w 3 0 = 13 || fieldN w 3 0 = 14) && (bit w 6 || fieldN w 11 7 ≠ 0)) = true) := by
    simpa [zero, or_imp] using fun func => unary func
  simp only [coAlu, result]
  exact if_neg wellFormed

/-- Whether the selector of an AMOV names a register of Y memory (R216). -/
def amovY (w : Word) : Bool := decide (fieldN w 16 13 / 4 % 2 = 1)

theorem coAmov_reads (zero : fieldN w 11 0 = 0) (read : bit w 12 = true) :
    coAmov w x = coRegs x (wg x.regs (fieldN w 21 17)
      (if 8 ≤ fieldN w 16 13 then amod x.regs (amovY w) (fieldN w 16 13 % 4)
       else (areg x.regs (amovY w) (fieldN w 16 13 % 4)).setWidth 32)) := by
  simp [coAmov, amovY, zero, read]

theorem coAmov_setsAddress (zero : fieldN w 11 0 = 0) (write : bit w 12 = false) (address : fieldN w 16 13 < 8) :
    coAmov w x = coRegs x (setAreg x.regs (amovY w) (fieldN w 16 13 % 4)
      ((rg x.regs (fieldN w 21 17)).setWidth 16)) := by
  simp [coAmov, amovY, zero, write, Nat.not_le.mpr address]

theorem coAmov_setsModifier (zero : fieldN w 11 0 = 0) (write : bit w 12 = false) (modifier : 8 ≤ fieldN w 16 13)
    (legal : modifierOk (rg x.regs (fieldN w 21 17)) = true) :
    coAmov w x = coRegs x (setAmod x.regs (amovY w) (fieldN w 16 13 % 4)
      (rg x.regs (fieldN w 21 17))) := by
  simp [coAmov, amovY, zero, write, modifier, legal]

section Special
variable (zero : fieldN w 11 0 = 0)
include zero

theorem coSmov_readsTrip (read : bit w 12 = true) (trip : fieldN w 16 13 = 0) :
    coSmov w x = coRegs x (wg x.regs (fieldN w 21 17) (x.regs.trip.setWidth 32)) := by
  simp [coSmov, zero, read, trip]

theorem coSmov_readsSr (read : bit w 12 = true) (sr : fieldN w 16 13 = 5) :
    coSmov w x = coRegs x (wg x.regs (fieldN w 21 17) x.regs.sr) := by
  simp [coSmov, zero, read, sr]

theorem coSmov_setsTrip (write : bit w 12 = false) (trip : fieldN w 16 13 = 0) :
    coSmov w x = coRegs x { x.regs with trip := (rg x.regs (fieldN w 21 17)).setWidth 16 } := by
  simp [coSmov, zero, write, trip]

theorem coSmov_setsDepth (write : bit w 12 = false) (depth : fieldN w 16 13 = 2)
    (positive : fieldN (rg x.regs (fieldN w 21 17)) 3 0 ≠ 0) (bound : fieldN (rg x.regs (fieldN w 21 17)) 3 0 ≤ 8) :
    coSmov w x = coRegs x { x.regs with depth := (rg x.regs (fieldN w 21 17)).setWidth 4 } := by
  simp [coSmov, zero, write, depth, positive, Nat.not_lt.mpr bound]

theorem coSmov_setsSr (write : bit w 12 = false) (sr : fieldN w 16 13 = 5) :
    coSmov w x = coRegs x { x.regs with sr := rg x.regs (fieldN w 21 17) &&& 0x30F#32 } := by
  simp [coSmov, zero, write, sr]

end Special

/-- The eight g registers of block `blk` as the 256 bits of a descriptor (R217). -/
def blockValue (r : CoRegs) (blk : Nat) : Nat :=
  (List.range 8).foldl (fun a k => a + (rg r (8 * blk + k)).toNat * 2 ^ (32 * k)) 0

theorem coLdt_ok (zero : fieldN w 15 0 = 0) (block : fieldN w 17 16 ≠ 0) :
    coLdt w x = coRegs x { x.regs with
      t := vmodN x.regs.t (fieldN w 21 18) fun _ => BitVec.ofNat 256 (blockValue x.regs (fieldN w 17 16)) } := by
  simp only [coLdt, zero, block]
  rfl

/-- A descriptor with its word `k` replaced (R217). -/
def putWord (k : Nat) (v : Word) (t : BitVec 256) : BitVec 256 := setField t (32 * k + 31) (32 * k) v.toNat

theorem coMtt_ok (zero : fieldN w 9 0 = 0) :
    coMtt w x = coRegs x { x.regs with
      t := vmodN x.regs.t (fieldN w 21 18) (putWord (fieldN w 17 15) (rg x.regs (fieldN w 14 10))) } :=
  if_neg (not_not_intro zero)

theorem coMft_ok (zero : fieldN w 9 0 = 0) :
    coMft w x = coRegs x (wg x.regs (fieldN w 14 10) (BitVec.ofNat 32
      (fieldN (vgetN 0 x.regs.t (fieldN w 21 18)) (32 * fieldN w 17 15 + 31) (32 * fieldN w 17 15)))) :=
  if_neg (not_not_intro zero)

end Registers

/-- Settles O19: each instruction by its own equation on the forme whose pc has moved on. -/
theorem scalarRegisters : Obligations.ScalarRegisters := by
  unfold Obligations.ScalarRegisters
  intro s f w d awake issues x r put
  refine ⟨fun code zero => ?_, fun code zero => ?_, fun o code zero unary result => ?_, fun code zero => ?_,
    fun code zero => ?_, fun code zero block => ?_, fun code zero => ?_, fun code zero => ?_⟩
  · rw [exec_nop]
    exact scalar_answers awake issues code (coNop_ok zero)
  · rw [exec_halt]
    exact scalar_answers awake issues code (coHalt_ok zero)
  · rw [exec_aluGroup]
    exact scalar_answers awake issues code (coAlu_ok zero unary result)
  · intro sel y v
    rw [exec_amov]
    exact ⟨fun read => scalar_answers awake issues code (coAmov_reads zero read),
      fun write address => scalar_answers awake issues code (coAmov_setsAddress zero write address),
      fun write modifier legal =>
        scalar_answers awake issues code (coAmov_setsModifier zero write modifier legal)⟩
  · intro sel v
    rw [exec_smov]
    exact ⟨fun read trip => scalar_answers awake issues code (coSmov_readsTrip zero read trip),
      fun read sr => scalar_answers awake issues code (coSmov_readsSr zero read sr),
      fun write trip => scalar_answers awake issues code (coSmov_setsTrip zero write trip),
      fun write depth positive bound =>
        scalar_answers awake issues code (coSmov_setsDepth zero write depth positive bound),
      fun write sr => scalar_answers awake issues code (coSmov_setsSr zero write sr)⟩
  · rw [exec_ldt]
    exact scalar_answers awake issues code (coLdt_ok zero block)
  · rw [exec_mtt]
    exact scalar_answers awake issues code (coMtt_ok zero)
  · rw [exec_mft]
    exact scalar_answers awake issues code (coMft_ok zero)

/-! ## Loads and stores (R181, R184, R215) -/

/-- The bytes that an LD or ST accesses. -/
def accessBytes (w : Word) : Nat := if fieldN w 11 10 = 0 then 4 else 2

/-- What an LD of `v` puts into its register: sign-extended for size 1, zero-extended else. -/
def loadedWord (w : Word) (v : Nat) : Word :=
  if fieldN w 11 10 = 1 then BitVec.ofInt 32 (sextN 16 v) else BitVec.ofNat 32 v

section DataAccess
variable {w : Word} {x : Forme} (form : immOk w = true)
include form

theorem coLd_ok {a' : Half} (size : fieldN w 11 10 < 3) (aligned : (effAddr w x.regs).toNat % accessBytes w = 0)
    (post : formPost x.regs (bit w 16) (fieldN w 15 14) (fieldN w 13 12) = .ok a') :
    coLd w x =
      let access := dmemLoad x (bit w 16) (effAddr w x.regs).toNat (accessBytes w)
      let r := setAreg x.regs (bit w 16) (fieldN w 15 14) a'
      .ok { access.1 with regs := wg r (fieldN w 21 17) (loadedWord w access.2.1) } access.2.2 := by
  simp only [accessBytes] at aligned
  simp [coLd, form, aligned, post, accessBytes, loadedWord, Nat.ne_of_lt size]

theorem coLd_misaligned (size : fieldN w 11 10 < 3) (misaligned : (effAddr w x.regs).toNat % accessBytes w ≠ 0) :
    coLd w x = .fault codeMisaligned := by
  simp only [accessBytes] at misaligned
  simp [coLd, form, misaligned, Nat.ne_of_lt size]

theorem coSt_ok {a' : Half} (size : fieldN w 11 10 < 2) (aligned : (effAddr w x.regs).toNat % accessBytes w = 0)
    (post : formPost x.regs (bit w 16) (fieldN w 15 14) (fieldN w 13 12) = .ok a') :
    coSt w x =
      let out := memWrite (dmem x (bit w 16)) (effAddr w x.regs).toNat
        (leBytes (accessBytes w) (rg x.regs (fieldN w 21 17)).toNat)
      .ok { setDmem x (bit w 16) out.1 with regs := setAreg x.regs (bit w 16) (fieldN w 15 14) a' }
        (out.2.map fun e => (dmemCode (bit w 16), e)) := by
  simp only [accessBytes] at aligned
  simp [coSt, form, aligned, post, accessBytes, Nat.not_le.mpr size]

theorem coSt_misaligned (size : fieldN w 11 10 < 2) (misaligned : (effAddr w x.regs).toNat % accessBytes w ≠ 0) :
    coSt w x = .fault codeMisaligned := by
  simp only [accessBytes] at misaligned
  simp [coSt, form, misaligned, Nat.not_le.mpr size]

end DataAccess

/-- The events of one memory, told apart by its code, report no uncorrectable error where that memory reports none. -/
theorem all_good_map {evs : List MemEv} (good : evs.all (!·.bad) = true) (code : Nat) :
    (evs.map fun e => (code, e)).all (!·.2.bad) = true := by
  rwa [List.all_map]

/-- Settles O20: LD and ST by alignment; an aligned access by what the memory answers. -/
theorem loadsAndStores : Obligations.LoadsAndStores := by
  unfold Obligations.LoadsAndStores
  intro s f w d awake issues form x r y size bytes ea
  refine ⟨fun aligned a' post => ⟨fun code size good => ?_, fun code size good => ?_⟩,
    fun misaligned => ⟨fun code size => ?_, fun code size => ?_⟩⟩
  · rw [exec_ld]
    exact scalar_accesses awake issues code (coLd_ok form size aligned post) (all_good_map good _)
  · rw [exec_st]
    exact store_accesses awake issues code rfl (coSt_ok form size aligned post) (all_good_map good _)
  · rw [exec_ld]
    exact scalar_faults awake issues code (coLd_misaligned form size misaligned)
  · rw [exec_st]
    exact scalar_faults awake issues code (coSt_misaligned form size misaligned)

/-! ## The multiplier and the accumulators (R185 to R187, R218, R219) -/

/-- The registers after accumulator `i` takes the value `exact` modulo 2^40 (R185). -/
def setAccumulator (r : CoRegs) (i : Nat) (exact : Int) : CoRegs :=
  { r with acc := vmodN r.acc i fun _ => BitVec.ofInt 40 exact,
           sr := stickA r.sr ((BitVec.ofInt 40 exact).toInt ≠ exact) }

/-- The registers after a rounding of `acc` into `rd` (R186). -/
def roundInto (r : CoRegs) (rd : Nat) (acc : BitVec 40) : CoRegs :=
  wg { r with sr := stickS r.sr (rnd16 acc).2 } rd ((rnd16 acc).1.signExtend 32)

/-- The exact value that a multiplier instruction gives its accumulator: `kind` 0 the product, 1 the sum, else the
difference (R185). -/
def mulExact (kind : Nat) (w : Word) (r : CoRegs) (a b : Half) : Int :=
  let p := mulProduct (mulOperand a (mulUa w)) (mulOperand b (mulUb w)) (bit r.cr 0)
  let old := (vgetN 0 r.acc (b2n (bit w 21))).toInt
  match kind with | 0 => p | 1 => old + p | _ => old - p

section Multiplier
variable {w : Word} {x y : Forme} {a b : Half} {evs : List (Nat × MemEv)} (fetch : mulFetch w x = .ok (y, a, b, evs))
include fetch

theorem coMul_accumulates (kind : Nat) (rd : fieldN w 20 16 = 0) :
    coMul kind false w x =
      .ok { y with regs := setAccumulator y.regs (b2n (bit w 21)) (mulExact kind w y.regs a b) } evs := by
  simp only [coMul, fetch, rd]
  rfl

theorem coMul_rounds (kind : Nat) :
    coMul kind true w x =
      let value := mulExact kind w y.regs a b
      let r := setAccumulator y.regs (b2n (bit w 21)) value
      .ok { y with regs := roundInto r (fieldN w 20 16) (BitVec.ofInt 40 value) } evs := by
  simp only [coMul, fetch]
  rfl

end Multiplier

section AccumulatorGroup
variable {w : Word} {x : Forme} (zero : fieldN w 11 0 = 0)
include zero

theorem coAcc_rounds (func : fieldN w 15 12 = 0) :
    coAcc w x = coRegs x (roundInto x.regs (fieldN w 20 16) (vgetN 0 x.regs.acc (b2n (bit w 21)))) := by
  simp only [coAcc, zero, func]
  rfl

theorem coAcc_saturates (func : fieldN w 15 12 = 1) :
    coAcc w x =
      let out := sat32 (vgetN 0 x.regs.acc (b2n (bit w 21)))
      coRegs x (wg { x.regs with sr := stickS x.regs.sr out.2 } (fieldN w 20 16) out.1) := by
  simp only [coAcc, zero, func]
  rfl

theorem coAcc_counts (func : fieldN w 15 12 = 2) :
    coAcc w x =
      coRegs x (wg x.regs (fieldN w 20 16) (BitVec.ofInt 32 (expx (vgetN 0 x.regs.acc (b2n (bit w 21)))))) := by
  simp only [coAcc, zero, func]
  rfl

theorem coAcc_normalises {v : BitVec 40} (func : fieldN w 15 12 = 3)
    (count : norm (vgetN 0 x.regs.acc (b2n (bit w 21))) (rg x.regs (fieldN w 20 16)).toInt = some v) :
    coAcc w x = coRegs x { x.regs with acc := vmodN x.regs.acc (b2n (bit w 21)) fun _ => v } := by
  simp only [coAcc, zero, func, count]
  rfl

theorem coAcc_readsLow (func : fieldN w 15 12 = 4) :
    coAcc w x =
      coRegs x (wg x.regs (fieldN w 20 16) ((vgetN 0 x.regs.acc (b2n (bit w 21))).extractLsb' 0 32)) := by
  simp only [coAcc, zero, func]
  rfl

theorem coAcc_readsHigh (func : fieldN w 15 12 = 5) :
    coAcc w x =
      coRegs x (wg x.regs (fieldN w 20 16) (((vgetN 0 x.regs.acc (b2n (bit w 21))).extractLsb' 32 8).signExtend 32)) := by
  simp only [coAcc, zero, func]
  rfl

theorem coAcc_writes (func : fieldN w 15 12 = 6) :
    coAcc w x = coRegs x { x.regs with
      acc := vmodN x.regs.acc (b2n (bit w 21)) fun _ => (rg x.regs (fieldN w 20 16)).signExtend 40 } := by
  simp only [coAcc, zero, func]
  rfl

theorem coAcc_clears (func : fieldN w 15 12 = 7) (rd : fieldN w 20 16 = 0) :
    coAcc w x = coRegs x { x.regs with acc := vmodN x.regs.acc (b2n (bit w 21)) fun _ => 0 } := by
  simp only [coAcc, zero, func, rd]
  rfl

end AccumulatorGroup

/-- Settles O21: a multiplier instruction accumulates or also rounds; the accumulator group goes by its function. -/
theorem multiplierAndAccumulators : Obligations.MultiplierAndAccumulators := by
  unfold Obligations.MultiplierAndAccumulators
  intro s f w d awake issues x i rd
  refine ⟨fun y a b evs fetch good => ?_, fun code zero => ?_⟩
  · intro r p old acc rounded put
    rw [exec_mpy, exec_mac, exec_msu, exec_mpyr, exec_macr]
    exact ⟨fun code rd => scalar_accesses awake issues code (coMul_accumulates fetch 0 rd) good,
      fun code rd => scalar_accesses awake issues code (coMul_accumulates fetch 1 rd) good,
      fun code rd => scalar_accesses awake issues code (coMul_accumulates fetch 2 rd) good,
      fun code => scalar_accesses awake issues code (coMul_rounds fetch 0) good,
      fun code => scalar_accesses awake issues code (coMul_rounds fetch 1) good⟩
  · intro r a put set
    have answers {r' : CoRegs} (runs : coAcc w x = coRegs x r') : exec (.accGroup f) s = nextWith s (put r') := by
      rw [exec_accGroup]
      exact scalar_answers awake issues code runs
    exact ⟨fun func => answers (coAcc_rounds zero func), fun func => answers (coAcc_saturates zero func),
      fun func => answers (coAcc_counts zero func), fun v func count => answers (coAcc_normalises zero func count),
      fun func => answers (coAcc_readsLow zero func), fun func => answers (coAcc_readsHigh zero func),
      fun func => answers (coAcc_writes zero func), fun func rd => answers (coAcc_clears zero func rd)⟩

/-! ## Branches and loops (R180, R190, R220, R221) -/

section Branches
variable {w : Word} {x : Forme}

theorem coJ_ok (zero : fieldN w 21 15 = 0) : coJ w x = coRegs x (jumpTo x.regs (fieldN w 14 0)) :=
  if_neg (not_not_intro zero)

theorem coJr_ok (zero : fieldN w 16 0 = 0) (inside : (rg x.regs (fieldN w 21 17)).toNat < 2 ^ 15) :
    coJr w x = coRegs x (jumpTo x.regs (rg x.regs (fieldN w 21 17)).toNat) := by
  have wellFormed : ¬ ((fieldN w 16 0 ≠ 0 || 2 ^ 15 ≤ (rg x.regs (fieldN w 21 17)).toNat) = true) := by
    simpa [zero] using inside
  exact if_neg wellFormed

theorem coCall_ok (zero : fieldN w 21 15 = 0) :
    coCall w x = coRegs x (jumpTo (wg x.regs 15 (x.issuedPc.setWidth 32 + 1)) (fieldN w 14 0)) :=
  if_neg (not_not_intro zero)

theorem coBcc_ok {b : Bool} (zero : fieldN w 17 15 = 0) (cond : condHolds (fieldN w 21 18) x.regs.sr = some b) :
    coBcc w x = coRegs x (if b then jumpTo x.regs (fieldN w 14 0) else x.regs) := by
  simp only [coBcc, zero, cond]
  cases b <;> rfl

theorem coDbnz_ok (zero : fieldN w 16 15 = 0) :
    coDbnz w x =
      let v := rg x.regs (fieldN w 21 17) - 1
      let r := wg x.regs (fieldN w 21 17) v
      coRegs x (if v = 0 then r else jumpTo r (fieldN w 14 0)) :=
  if_neg (not_not_intro zero)

theorem coBrc_ok (zero : fieldN w 21 15 = 0) :
    coBrc w x =
      let r := { x.regs with iter := x.regs.iter + 1, rbase := BitVec.ofNat 4 (x.regs.rbase.toNat + stride x.regs) }
      coRegs x (if ((x.regs.iter + 1).toNat : Int) < x.regs.trip.toNat + x.regs.depth.toNat - 1 then
        jumpTo r (fieldN w 14 0) else r) :=
  if_neg (not_not_intro zero)

theorem coLpset_ok (zero : bit w 18 = true → fieldN w 10 0 = 0) :
    coLpset w x = coRegs x { x.regs with
      trip := if bit w 18 then (rg x.regs (fieldN w 15 11)).setWidth 16 else BitVec.ofNat 16 (fieldN w 15 0),
      depth := BitVec.ofNat 4 (fieldN w 21 19 + 1), iter := 0, rbase := 0,
      rstep := BitVec.ofNat 2 (fieldN w 17 16) } := by
  have wellFormed : ¬ ((bit w 18 && fieldN w 10 0 ≠ 0) = true) := by simpa using zero
  simp only [coLpset]
  exact if_neg wellFormed

end Branches

/-- Settles O22: each branch and loop instruction by its own equation on the forme whose pc has moved on. -/
theorem branchesAndLoops : Obligations.BranchesAndLoops := by
  unfold Obligations.BranchesAndLoops
  intro s f w d awake issues x r put goto t
  rw [exec_j, exec_jr, exec_call, exec_dbnz, exec_brc, exec_lpset]
  refine ⟨fun code zero => ?_, fun code zero inside => ?_, fun code zero => ?_, fun b code zero cond => ?_,
    fun code zero => ?_, fun code zero => ?_, fun code zero => ?_⟩
  · exact scalar_answers awake issues code (coJ_ok zero)
  · exact scalar_answers awake issues code (coJr_ok zero inside)
  · exact scalar_answers awake issues code (coCall_ok zero)
  · rw [exec_bcc]
    exact scalar_answers awake issues code (coBcc_ok zero cond)
  · exact scalar_answers awake issues code (coDbnz_ok zero)
  · exact scalar_answers awake issues code (coBrc_ok zero)
  · exact scalar_answers awake issues code (coLpset_ok zero)

/-! ## Token counters (R199, R239) -/

/-- What token counter `c` of a forme holds. -/
def tokensHeld (x : Forme) (c : Nat) : Nat := (vgetN 0 x.tokens c).toNat

/-- A forme whose token counter `c` holds `v`. -/
def withTokens (x : Forme) (c v : Nat) : Forme := { x with tokens := vmodN x.tokens c fun _ => BitVec.ofNat 16 v }

section Tokens
variable {x : Forme} {c n : Nat}

theorem tokenAdd_fits (fits : tokensHeld x c + n < 65536) :
    tokenAdd x c n = some (withTokens x c (tokensHeld x c + n)) := if_pos fits

theorem tokenAdd_overflows (passes : 65536 ≤ tokensHeld x c + n) : tokenAdd x c n = none :=
  if_neg (Nat.not_lt.mpr passes)

theorem tokenTake_held (held : n ≤ tokensHeld x c) :
    tokenTake x c n = some (withTokens x c (tokensHeld x c - n)) := if_pos held

theorem tokenTake_short (short : tokensHeld x c < n) : tokenTake x c n = none :=
  if_neg (Nat.not_le.mpr short)

end Tokens

/-! ## Tensor instructions at issue (R196, R199, R224, R225) -/

section TensorWord
variable {d d' : Device} {f : Nat} {w : Word} (issues : Issues d f w d') {op : Nat} (code : wop w = op)
  (ok : tensorWordOk w = true)
include issues code ok

theorem runTensor_queues (mask : maskOk w (forme d' f).regs = true) (queue : tgtPm w = true ∨ tgtCore w = false) :
    runTensor op f d = issueQueue f w d' := by
  have notCore : (!tgtPm w && tgtCore w) = false := by
    rcases queue with pm | core
    · rw [pm]; rfl
    · rw [core, Bool.and_false]
  rw [runTensor, issueAs_acts issues code]
  simp [ok, mask, notCore]

/-- The core performs an instruction that names it and no press mask; such a word has no mask register to check. -/
theorem runTensor_core (pm : tgtPm w = false) (core : tgtCore w = true) : runTensor op f d = issueCore f w d' := by
  have mask : maskOk w (forme d' f).regs = true := by rw [maskOk, pm]; rfl
  rw [runTensor, issueAs_acts issues code]
  simp [ok, mask, pm, core]

end TensorWord

section IssueQueue
variable {d : Device} {f : Nat} {w : Word}

/-- The presses that an issue names. -/
def namedPresses (f : Nat) (w : Word) (d : Device) : List Nat := maskPresses f (issueMask w (forme d f).regs)

theorem issueQueue_notHeld (foreign : (namedPresses f w d).any (fun p => !bit (forme d f).pmask (p % 8)) = true) :
    issueQueue f w d = faultIssue f w (issueMask w (forme d f).regs) codePressNotHeld d := if_pos foreign

variable (held : (namedPresses f w d).any (fun p => !bit (forme d f).pmask (p % 8)) = false)
  (opened : (namedPresses f w d).find? (fenced d) = none)
include held opened

theorem issueQueue_stalls (waits : (namedPresses f w d).any (pressWaits d) = true) :
    issueQueue f w d = modForme f (fun x => { x with issueStall := satAdd x.issueStall 1 }) d := by
  simp only [namedPresses] at held opened waits
  simp only [issueQueue, held, opened, waits]
  rfl

theorem issueQueue_captures (room : (namedPresses f w d).any (pressWaits d) = false) :
    issueQueue f w d =
      let e := captureEntry w (forme d f) (issueMask w (forme d f).regs)
      modForme f (fun x => { advance x with
          pend := if wop w = 0x2D ∧ fieldN w 15 11 ≠ 0 then x.pend ++ [e.dest] else x.pend })
        ((namedPresses f w d).foldl (fun d p => modPress p (fun y => { y with queue := y.queue ++ [e] }) d) d) := by
  simp only [namedPresses] at held opened room
  simp only [issueQueue, held, opened, room, Bool.and_eq_true, decide_eq_true_eq]
  rfl

end IssueQueue

/-- Settles O23: whatever its opcode, a tensor word goes to the queues of its presses, and they decide how it fares. -/
theorem tensorIssue : Obligations.TensorIssue := by
  unfold Obligations.TensorIssue
  intro s f w d awake issues x ok mask queue ps e queued stalled all
  have alike {d' : Device} (issued : issueQueue f.1 w d = d') : all (nextWith s d') := by
    have answers {op : Nat} (code : wop w = op) : onDev (runTensor op f.1) s = nextWith s d' := by
      rw [onDev_nextWith awake, runTensor_queues issues code ok mask queue, issued]
    exact ⟨fun code => (exec_pass f s).trans (answers code), fun code => (exec_feed f s).trans (answers code),
      fun code => (exec_drain f s).trans (answers code), fun code => (exec_ink f s).trans (answers code),
      fun code => (exec_justify f s).trans (answers code), fun code => (exec_xfer f s).trans (answers code),
      fun code => (exec_link f s).trans (answers code), fun code => (exec_waitpt f s).trans (answers code),
      fun code => (exec_signal f s).trans (answers code), fun code => (exec_wait f s).trans (answers code),
      fun code => (exec_fence f s).trans (answers code), fun code => (exec_pwr f s).trans (answers code),
      fun code => (exec_prd f s).trans (answers code)⟩
  refine ⟨fun foreign => ?_, fun held opened => ⟨fun waits => ?_, fun room => ?_⟩⟩
  · exact alike (issueQueue_notHeld foreign)
  · exact alike (issueQueue_stalls held opened waits)
  · exact alike (issueQueue_captures held opened room)

/-! ## The core's own synchronisation (R199, R238 to R240) -/

section IssueCore
variable {d : Device} {f : Nat} {w : Word}

theorem issueCore_waitpt (code : wop w = 0x28) :
    issueCore f w d =
      if pointReached d ((forme d f).task.getD 0xFFF) (rg (forme d f).regs (fieldN w 3 0)).toNat then
        modForme f advance d
      else d := by
  simp only [issueCore, code]

theorem issueCore_fence (code : wop w = 0x2B) :
    issueCore f w d = if formeQuiet d f then modForme f advance d else d := by
  simp only [issueCore, code]

theorem issueCore_signals (code : wop w = 0x29)
    (fits : tokensHeld (forme d f) (fieldN w 15 10) + fieldN w 7 0 < 65536) :
    issueCore f w d = modForme f (fun _ => advance (withTokens (forme d f) (fieldN w 15 10)
      (tokensHeld (forme d f) (fieldN w 15 10) + fieldN w 7 0))) d := by
  simp only [issueCore, code, tokenAdd_fits fits]

theorem issueCore_overflows (code : wop w = 0x29)
    (passes : 65536 ≤ tokensHeld (forme d f) (fieldN w 15 10) + fieldN w 7 0) :
    issueCore f w d = faultIssue f w 0 codeTokenOverflow d := by
  simp only [issueCore, code, tokenAdd_overflows passes]

theorem issueCore_takes (code : wop w = 0x2A)
    (held : fieldN w 7 0 ≤ tokensHeld (forme d f) (fieldN w 15 10)) :
    issueCore f w d = modForme f (fun _ => advance (withTokens (forme d f) (fieldN w 15 10)
      (tokensHeld (forme d f) (fieldN w 15 10) - fieldN w 7 0))) d := by
  simp only [issueCore, code, tokenTake_held held]

theorem issueCore_waits (code : wop w = 0x2A)
    (short : tokensHeld (forme d f) (fieldN w 15 10) < fieldN w 7 0) : issueCore f w d = d := by
  simp only [issueCore, code, tokenTake_short short]

end IssueCore

/-- Settles O24: the core performs each word as `issueCore` does for its opcode. -/
theorem coreSynchronisation : Obligations.CoreSynchronisation := by
  unfold Obligations.CoreSynchronisation
  intro s f w d awake issues x ok pm core c n held tokens
  have answers {op : Nat} (code : wop w = op) {d' : Device} (performed : issueCore f.1 w d = d') :
      onDev (runTensor op f.1) s = nextWith s d' := by
    rw [onDev_nextWith awake, runTensor_core issues code ok pm core, performed]
  rw [exec_waitpt, exec_signal, exec_wait, exec_fence]
  refine ⟨fun code => ?_, fun code fits => ?_, fun code passes => ?_, fun code enough => ?_, fun code short => ?_,
    fun code => ?_⟩
  · exact answers code (issueCore_waitpt code)
  · exact answers code (issueCore_signals code fits)
  · exact answers code (issueCore_overflows code passes)
  · exact answers code (issueCore_takes code enough)
  · exact answers code (issueCore_waits code short)
  · exact answers code (issueCore_fence code)

/-! ## A program begins and ends (R176 to R178, R204, R479) -/

section Loader
variable {d : Device} {f : Nat} {t : Ticket} (task : (forme d f).task.bind (ticketOf d) = some t)
include task

theorem doProgramLoaded_waits (replays : busesIssue d = false) : doProgramLoaded f d = d := by
  simp [doProgramLoaded, task, replays]

/-- The entry of the table of a program that a START names (R176). -/
def entryAddress (d : Device) (i : Nat) (tab : List Byte) : Nat := leAt tab (8 * (eArg (getEntry d i) % 16)) 8

section Table
variable (issue : busesIssue d = true) (loading : (forme d f).state = .loading) (fresh : t.resume = false)
  {d1 : Device} {tab : List Byte} (table : readLoad f t.program 128 d = (d1, some tab)) {a : Nat}
  (address : entryAddress d1 (forme d f).entry tab = a)
include issue loading fresh table address

theorem doProgramLoaded_refuses (bad : tally tab ≠ t.entryTally ∨ a = 0 ∨ a % 64 ≠ 0) :
    doProgramLoaded f d = faultForme f codeBadImage d1 := by
  subst address
  simp only [doProgramLoaded, task, loading, fresh, issue, table]
  exact if_pos bad

theorem doProgramLoaded_loads (same : tally tab = t.entryTally) (named : a ≠ 0) (aligned : a % 64 = 0) :
    doProgramLoaded f d = loadImage f a d1 := by
  have good : ¬ (tally tab ≠ t.entryTally ∨ a = 0 ∨ a % 64 ≠ 0) := by simp [same, named, aligned]
  subst address
  simp only [doProgramLoaded, task, loading, fresh, issue, table]
  exact if_neg good

end Table

theorem doCompositorIdle_ends (finishing : (forme d f).state = .finishing) (quiet : formeQuiet d f = true)
    (unpaused : t.pause = none) (unaborted : t.abort = none) : doCompositorIdle f d = endProgram f t d := by
  simp [doCompositorIdle, task, finishing, quiet, unpaused, unaborted]

end Loader

/-- The size in bytes of the three memories of a program image, by its header (R176). -/
def imageSize (h : List Byte) : Nat := leAt h 4 4 + leAt h 8 4 + leAt h 12 4

theorem loadImage_begins {d d1 d2 : Device} {f a : Nat} {h b : List Byte} (header : readLoad f a 64 d = (d1, some h))
    (ok : imageHeaderOk h = true) (body : readLoad f (a + 64) (imageSize h) d1 = (d2, some b))
    (sum : (tally (h.take 24 ++ b)).toNat = leAt h 24 8) : loadImage f a d = beginProgram f h b d2 := by
  simp only [imageSize] at body
  simp [loadImage, header, ok, body, sum]

/-- The device once a program of ticket `t` in forme `f` has ended: its entry is released and one program fewer runs. -/
def programEnded (f : Nat) (t : Ticket) (d : Device) : Device :=
  modTicket t.slot (fun t => { t with running := t.running - 1 }) (freeEntry (forme d f).entry (freeForme d f))

theorem endProgram_leaves {d : Device} {f : Nat} {t u : Ticket} (left : ticketOf (programEnded f t d) t.slot = some u) :
    endProgram f t d =
      if u.running = 0 ∧ u.toStart = 0 then completeTicket u (programEnded f t d) else programEnded f t d := by
  simp only [programEnded] at left
  simp only [endProgram, left, programEnded, Bool.and_eq_true, decide_eq_true_eq]

/-- Settles O25: PROGRAM_LOADED waits, refuses the entry table or loads its image; COMPOSITOR_IDLE ends the program. -/
theorem programsBeginAndEnd : Obligations.ProgramsBeginAndEnd := by
  unfold Obligations.ProgramsBeginAndEnd
  intro s f awake x
  rw [exec_programLoaded, exec_compositorIdle, exec_fmCoClearCounts, onDev_nextWith awake, onDev_nextWith awake]
  refine ⟨fun t task => ⟨fun replays => ?_, fun issue loading fresh d1 tab table => ?_,
    fun finishing quiet unpaused unaborted => ?_⟩, fun free => ?_⟩
  · rw [doProgramLoaded_waits task replays]
  · intro a
    refine ⟨fun bad => ?_, fun same named aligned d2 h header ok d3 b body sum => ?_⟩
    · rw [doProgramLoaded_refuses task issue loading fresh table rfl bad]
    · have loads := doProgramLoaded_loads task issue loading fresh table rfl same named aligned
      exact congrArg (nextWith s) (loads.trans (loadImage_begins header ok body sum))
  · intro d1 u left
    rw [doCompositorIdle_ends task finishing quiet unpaused unaborted, endProgram_leaves left]
    rfl
  · rw [onHost_free awake free, doFmCoClearCounts]

/-! ## What keeps a fetched word from executing -/

/-- Settles O26: whatever scalar command comes, the word at the pc decides. -/
theorem issueConditions : Obligations.IssueConditions := by
  unfold Obligations.IssueConditions
  intro s f awake w d all
  have alike {d' : Device} (issued : ∀ op act, wop w = op → issueAs op f.1 act s.dev = d') : all (nextWith s d') := by
    have answers {op : Nat} (co : Word → Forme → CoOut) (code : wop w = op) :
        onDev (runScalar op co f.1) s = nextWith s d' := by
      rw [onDev_nextWith awake, runScalar, issued op _ code]
    exact ⟨fun code => (exec_nop f s).trans (answers coNop code),
      fun code => (exec_movi f s).trans (answers coMovi code),
      fun code => (exec_addi f s).trans (answers coAddi code)⟩
  refine ⟨fun stopped => ?_, fun may good => ⟨fun illegal => ?_, fun valid off => ?_,
    fun valid executes reads => ?_⟩⟩
  · exact alike fun op act _ => issueAs_stopped stopped op act
  · exact alike fun op act _ => issueAs_illegal may good illegal op act
  · exact alike fun op act code => issueAs_turnedOff may good valid code off act
  · exact alike fun op act code => issueAs_interlocked may good valid code executes reads act

/-! ## The head of a press queue (R197 to R200, R225, R238 to R241, R263) -/

section QueueHead
variable {d : Device} {p : Nat} {e : QEntry}

theorem forme_popHead (f : Nat) : forme (popHead p d) f = forme d f := rfl

theorem doWaitpt_head (head : headOf d p (fun o => o = 0x28) = some e) :
    doWaitpt p d = if pointReached d e.slot (nth 0 e.vals 0).toNat then popHead p d else scheduleWait p d :=
  atHead_some head _

theorem doWait_takes (head : headOf d p (fun o => o = 0x2A) = some e)
    (held : fieldN e.word 7 0 ≤ tokensHeld (forme d (p / 8)) (fieldN e.word 15 10)) :
    doWait p d = popHead p (modForme (p / 8) (fun _ => withTokens (forme d (p / 8)) (fieldN e.word 15 10)
      (tokensHeld (forme d (p / 8)) (fieldN e.word 15 10) - fieldN e.word 7 0)) d) := by
  rw [doWait, atHead_some head, tokenTake_held held]

theorem doWait_waits (head : headOf d p (fun o => o = 0x2A) = some e)
    (short : tokensHeld (forme d (p / 8)) (fieldN e.word 15 10) < fieldN e.word 7 0) :
    doWait p d = scheduleWait p d := by
  rw [doWait, atHead_some head, tokenTake_short short]

theorem doSignal_waits (head : headOf d p (fun o => o = 0x29) = some e) (busy : queueDrained d p = false) :
    doSignal p d = d := by
  rw [doSignal, atHead_some head, busy]
  rfl

theorem doSignal_adds (head : headOf d p (fun o => o = 0x29) = some e) (drained : queueDrained d p = true)
    (fits : tokensHeld (forme d (p / 8)) (fieldN e.word 15 10) + fieldN e.word 7 0 < 65536) :
    doSignal p d = modForme (p / 8) (fun _ => withTokens (forme d (p / 8)) (fieldN e.word 15 10)
      (tokensHeld (forme d (p / 8)) (fieldN e.word 15 10) + fieldN e.word 7 0)) (popHead p d) := by
  rw [doSignal, atHead_some head, if_pos drained, signalToken, forme_popHead, tokenAdd_fits fits]

theorem doFence_head (head : headOf d p (fun o => o = 0x2B) = some e) :
    doFence p d = if queueDrained d p then popHead p d else d :=
  atHead_some head _

theorem doPwr_writes {g : Press → Press} (head : headOf d p (fun o => o = 0x2C) = some e)
    (writable : pwrWrite (regOffset e) (nth 0 e.vals 0) = some g) : doPwr p d = modPress p g (popHead p d) := by
  rw [doPwr, atHead_some head, writable]

theorem doPwr_faults (head : headOf d p (fun o => o = 0x2C) = some e)
    (foreign : pwrWrite (regOffset e) (nth 0 e.vals 0) = none) : doPwr p d = faultEntry p 1 e codePressReg none d := by
  rw [doPwr, atHead_some head, foreign]

theorem doPrd_writes (head : headOf d p (fun o => o = 0x2D) = some e) (named : fieldN e.word 15 11 ≠ 0) :
    doPrd p d = modForme (p / 8) (fun x =>
      { x with regs := { x.regs with g := vset x.regs.g e.dest (pressRead d p (regOffset e)) },
               pend := x.pend.erase e.dest }) (popHead p d) := by
  rw [doPrd, atHead_some head]
  simp only [if_neg named, dropPend]

theorem doPrd_discards (head : headOf d p (fun o => o = 0x2D) = some e) (g0 : fieldN e.word 15 11 = 0) :
    doPrd p d = modForme (p / 8) id (popHead p d) := by
  rw [doPrd, atHead_some head]
  simp only [if_pos g0]
  rfl

end QueueHead

/-- Settles O30: the head of the queue by its opcode, and by what it waits for. -/
theorem queueInstructions : Obligations.QueueInstructions := by
  unfold Obligations.QueueInstructions
  intro s p e awake d f c n held waits tokens
  rw [exec_waitptDispatch, exec_waitDispatch, exec_signalDispatch, exec_fenceDispatch, exec_pwrDispatch,
    exec_prdDispatch]
  simp only [onDev_nextWith awake]
  refine ⟨fun head => ?_, fun head => ?_, fun head => ⟨fun busy => ?_, fun drained fits => ?_⟩, fun head => ?_,
    fun head => ⟨fun g writable => ?_, fun foreign => ?_⟩, fun head => ⟨fun named => ?_, fun g0 => ?_⟩⟩
  · rw [doWaitpt_head head]
    rfl
  · split
    next enough =>
      rw [doWait_takes head enough]
      rfl
    next short =>
      rw [doWait_waits head (Nat.not_le.mp short)]
      rfl
  · rw [doSignal_waits head busy]
  · rw [doSignal_adds head drained fits]
    rfl
  · rw [doFence_head head]
  · rw [doPwr_writes head writable]
  · rw [doPwr_faults head foreign]
  · rw [doPrd_writes head named]
  · rw [doPrd_discards head g0]

end Sys2Proof.Machine
end

section
/-!
PROOFS of the family 06_tequen_instructions: ADDI and MOVI on the registers of a forme, and what an XFER asks of its press:
a transfer, a pool operation, the next chunk of a transfer. The lemmas that say what each operation does stand before the
obligation.
-/
namespace Sys2Proof.Machine

/-! ## A field of a word and its replacement -/

theorem fieldN_lt {n : Nat} (x : BitVec n) (hi lo : Nat) : fieldN x hi lo < 2 ^ (hi - lo + 1) :=
  Nat.mod_lt _ (Nat.two_pow_pos _)

/-- Inside the field a bit is the replacement's, outside it the word's own. -/
theorem getLsbD_setField {n i : Nat} (x : BitVec n) (hi lo v : Nat) (inside : i < n) :
    (setField x hi lo v).getLsbD i =
      if lo ≤ i ∧ i - lo < hi - lo + 1 then v.testBit (i - lo) else x.getLsbD i := by
  have mask : (BitVec.ofNat n ((2 ^ (hi - lo + 1) - 1) * 2 ^ lo)).getLsbD i =
      decide (lo ≤ i ∧ i - lo < hi - lo + 1) := by
    rw [BitVec.getLsbD_ofNat, Nat.testBit_mul_two_pow, Nat.testBit_two_pow_sub_one]
    simp [inside]
  have value : (BitVec.ofNat n (v % 2 ^ (hi - lo + 1) * 2 ^ lo)).getLsbD i =
      (decide (lo ≤ i ∧ i - lo < hi - lo + 1) && v.testBit (i - lo)) := by
    rw [BitVec.getLsbD_ofNat, Nat.testBit_mul_two_pow, Nat.testBit_mod_two_pow]
    simp [inside, Bool.and_assoc]
  rw [setField, BitVec.getLsbD_or, BitVec.getLsbD_and, BitVec.getLsbD_not, mask, value]
  split
  next field => simp only [decide_eq_true field, Bool.not_true, Bool.and_false, Bool.false_or, Bool.true_and]
  next other =>
    simp only [decide_eq_false other, decide_eq_true inside, Bool.not_false, Bool.and_true, Bool.false_and, Bool.or_false]

/-- The bits below a field are as before. -/
theorem extractLsb'_setField_below {n start len : Nat} (x : BitVec n) {hi lo : Nat} (v : Nat) (below : start + len ≤ lo) :
    (setField x hi lo v).extractLsb' start len = x.extractLsb' start len := by
  ext i bound
  rw [BitVec.getElem_extractLsb', BitVec.getElem_extractLsb']
  by_cases inside : start + i < n
  · rw [getLsbD_setField x hi lo v inside, if_neg (by omega)]
  · rw [BitVec.getLsbD_of_ge _ _ (by omega), BitVec.getLsbD_of_ge _ _ (by omega)]

/-- The field itself is the replacement. -/
theorem extractLsb'_setField_same {n : Nat} (x : BitVec n) {hi lo : Nat} (v : Nat) (ordered : lo ≤ hi) (inside : hi < n) :
    (setField x hi lo v).extractLsb' lo (hi - lo + 1) = BitVec.ofNat (hi - lo + 1) v := by
  ext i bound
  rw [BitVec.getElem_extractLsb', getLsbD_setField x hi lo v (by omega), if_pos (by omega), Nat.add_sub_cancel_left,
    ← BitVec.getLsbD_eq_getElem, BitVec.getLsbD_ofNat, decide_eq_true bound, Bool.true_and]

/-! ## A g register after a write (R179, R180, R210) -/

theorem gphys_lt (r : CoRegs) {n : Nat} (named : n < 32) : gphys r n < 32 := by
  unfold gphys
  split <;> omega

theorem gphys_wg (r : CoRegs) (n k : Nat) (v : Word) : gphys (wg r n v) k = gphys r k := by
  unfold wg
  split <;> rfl

theorem rg_wg_same {r : CoRegs} {n : Nat} (named : n < 32) (v : Word) (other : n ≠ 0) : rg (wg r n v) n = v := by
  rw [rg, if_neg other, gphys_wg, wg, if_neg other]
  exact (vgetN_vmodN 0 r.g _ _ _).trans (if_pos ⟨rfl, gphys_lt r named⟩)

@[simp] theorem wg_zero (r : CoRegs) (v : Word) : wg r 0 v = r := rfl
@[simp] theorem rg_zero (r : CoRegs) : rg r 0 = 0 := rfl

/-! ## ADDI and MOVI (R213, R214) -/

section Immediates
variable (w : Word) (x : Forme)

/-- The sum that an ADDI forms, with its flags. -/
def addiSum : AluOut := aluAdd (rg x.regs (fieldN w 16 12)) (BitVec.ofInt 32 (sextN 12 (fieldN w 11 0)))

/-- The value that a MOVI writes. -/
def moviValue : Word :=
  if bit w 16 then setField (rg x.regs (fieldN w 21 17)) 31 16 (fieldN w 15 0)
  else BitVec.ofInt 32 (sextN 16 (fieldN w 15 0))

theorem coAddi_eq : coAddi w x = coRegs x
    { wg x.regs (fieldN w 21 17) (addiSum w x).res with sr := setNzcv x.regs.sr (addiSum w x) } := rfl

theorem coMovi_eq : coMovi w x = coRegs x (wg x.regs (fieldN w 21 17) (moviValue w x)) := rfl

variable {w} (upper : bit w 16 = true)
include upper

theorem moviValue_low :
    (moviValue w x).extractLsb' 0 16 = (rg x.regs (fieldN w 21 17)).extractLsb' 0 16 := by
  rw [moviValue, if_pos upper]
  exact extractLsb'_setField_below _ _ (Nat.le_refl 16)

theorem moviValue_high : ((moviValue w x).extractLsb' 16 16).toNat = fieldN w 15 0 := by
  rw [moviValue, if_pos upper, extractLsb'_setField_same (hi := 31) (lo := 16) _ _ (by decide) (by decide),
    BitVec.toNat_ofNat]
  exact Nat.mod_eq_of_lt (fieldN_lt w 15 0)

end Immediates

/-- Settles O18: each instruction by its equation on the forme whose pc has moved on; what rd then reads by the registers'
own laws, and the two halves that a MOVI with hi = 1 leaves by those of a replaced field. -/
theorem addiAndMovi : Obligations.AddiAndMovi := by
  unfold Obligations.AddiAndMovi
  intro s f w d awake issues x r put rd sum imm mov
  refine ⟨fun code => ?_, fun code => ?_, rfl, fun upper => ?_, fun v other => ?_, fun v g0 => ?_⟩
  · rw [exec_addi]
    exact scalar_answers awake issues code (coAddi_eq w x)
  · rw [exec_movi]
    exact scalar_answers awake issues code (coMovi_eq w x)
  · exact ⟨moviValue_low x upper, moviValue_high x upper⟩
  · exact rg_wg_same (fieldN_lt w 21 17) v other
  · rw [g0]
    exact ⟨wg_zero r v, rg_zero r⟩

/-! ## The dispatch of an XFER of kind 8h (R237, R248, R249, R260, R596) -/

section Stream
variable {d : Device} {p : Nat} {e : QEntry}

/-- The stream descriptor of an XFER entry of press `p`. -/
def entryStream (p : Nat) (e : QEntry) : StreamDesc := streamDesc e.pm p (nth 0 e.desc 0)

/-- A transfer dispatches while fewer than 8 are in progress, and where it touches the press's galley, once nothing before
it in the queue still may (R260). -/
theorem xferWaits_eq_false {x : StreamDesc} (room : (press d p).transfers.length + (press d p).ftransfers.length < 8)
    (drained : x.src = p ∨ (x.mcast = false ∧ x.dst = p) ∨ (x.mcast = true ∧ p ∈ mcastSet x) → queueDrained d p = true) :
    xferWaits d p x = false := by
  have notFull : decide (8 ≤ controllerLoad (press d p)) = false := decide_eq_false (Nat.not_le.mpr room)
  rw [xferWaits, notFull, Bool.false_or]
  cases busy : queueDrained d p with
  | true => rw [Bool.not_true, Bool.and_false]
  | false =>
    have apart := mt drained (by simp [busy])
    obtain ⟨source, notUnicast, notMulticast⟩ := (not_or.mp apart).imp_right not_or.mp
    have unicast (cast : x.mcast = false) : x.dst ≠ p := fun same => notUnicast ⟨cast, same⟩
    have multicast (cast : x.mcast = true) : p ∉ mcastSet x := fun mem => notMulticast ⟨cast, mem⟩
    cases cast : x.mcast with
    | false => simp [source, unicast cast]
    | true => simp [source, multicast cast]

variable (kind : dKind (nth 0 e.desc 0) = 8) (wellFormed : streamWf (entryStream p e) = true)
  (free : xferWaits d p (entryStream p e) = false)
include kind wellFormed free

theorem xferAtHead_starts (pass : streamChecks d p e.slot (entryStream p e) = none) :
    xferAtHead p e d = popHead p (modPress p
      (fun y => { y with transfers := y.transfers ++ [makeTransfer d p e (entryStream p e)] }) d) := by
  simp only [entryStream] at wellFormed free pass
  simp only [xferAtHead, kind, wellFormed, free, pass]
  rfl

theorem xferAtHead_faults {code : BitVec 16} {ep : Nat}
    (fails : streamChecks d p e.slot (entryStream p e) = some (code, ep)) :
    xferAtHead p e d = faultStream p 1 e (entryStream p e).stream code (unitPress p)
      { peer := ep, pool := if (entryStream p e).pool then (entryStream p e).daddr % 256 else 0xFF } d := by
  simp only [entryStream] at wellFormed free fails
  simp only [xferAtHead, kind, wellFormed, free, fails]
  rfl

end Stream

/-! ## Pool operations (R253, R254) -/

section Pools
variable {d d' : Device} {p ep k : Nat} {e : QEntry} {b : BitVec 256}

theorem openPool_opens (alignedBase : fieldN b 235 212 % 4096 = 0) (alignedSize : fieldN b 211 188 % 4096 = 0)
    (least : 0x1000 ≤ fieldN b 211 188) (most : fieldN b 211 188 ≤ 0x800000)
    (inside : fieldN b 235 212 + fieldN b 211 188 ≤ epBytes d (epOf ep))
    (empty : (getPool d (epOf ep) k).isOpen = true → (getPool d (epOf ep) k).free = (getPool d (epOf ep) k).size) :
    openPool ep k b d = some (modPool (epOf ep) k (fun _ =>
      { isOpen := true, head := fieldN b 235 212, tail := fieldN b 235 212, free := fieldN b 211 188,
        base := fieldN b 235 212, size := fieldN b 211 188, lsig := bit b 187, ltok := fieldN b 186 181 }) d) := by
  simp only [openPool]
  refine if_neg ?_
  simpa [alignedBase, alignedSize, Nat.not_lt.mpr least, Nat.not_lt.mpr most, Nat.not_lt.mpr inside] using empty

theorem releasePool_releases (aligned : fieldN b 180 157 % 64 = 0)
    (committed : fieldN b 180 157 ≤ (getPool d (epOf ep) k).committed) :
    releasePool ep k b d = some (modPool (epOf ep) k (fun q =>
      { q with head := poolNext q q.head (fieldN b 180 157), free := q.free + fieldN b 180 157,
               committed := q.committed - fieldN b 180 157 }) d) := by
  simp only [releasePool]
  refine if_neg ?_
  simp [aligned, Nat.not_lt.mpr committed]

variable (kind : dKind (nth 0 e.desc 0) = 9) (zero : reservedZero (nth 0 e.desc 0) kind9Fields = true)
  (target : poolTarget p e.pm (nth 0 e.desc 0) = some (ep, k))
include kind zero target

theorem poolAtHead_opens (op : fieldN (nth 0 e.desc 0) 251 250 = 0) (opens : openPool ep k (nth 0 e.desc 0) d = some d') :
    poolAtHead p false e d = poolDone p e d' := by
  simp only [poolAtHead, kind, zero, target, op, opens]
  rfl

theorem poolAtHead_releases (op : fieldN (nth 0 e.desc 0) 251 250 = 1)
    (releases : releasePool ep k (nth 0 e.desc 0) d = some d') : poolAtHead p true e d = poolDone p e d' := by
  simp only [poolAtHead, kind, zero, target, op, releases]
  rfl

end Pools

/-! ## The next chunk of a transfer (R251, R256, R259) -/

section Chunks
variable {d : Device} {p i : Nat} {t : Transfer}

/-- The device once an attempt to ask for a chunk of `t` has counted RESERVE_WAIT, where a chunk of it waits. -/
def reserveCounted (p : Nat) (t : Transfer) (d : Device) : Device :=
  if t.chunks.any (chunkWaits d p t) then countReserveWait p d else d

section Attempt
variable (named : transferAt d p i = some t)
include named

theorem doChunkRequest_rests (full : t.len ≤ t.asked ∨ 4 ≤ t.chunks.length) :
    doChunkRequest p i d = reserveCounted p t d := by
  simp [doChunkRequest, named, full, reserveCounted]

variable (more : t.asked < t.len) (room : t.chunks.length < 4)
include more room

theorem doChunkRequest_attempts : doChunkRequest p i d =
    if !chunkWindow (reserveCounted p t d) t t.asked then scheduleWait p (reserveCounted p t d)
    else requestNext p i t (reserveCounted p t d) := by
  have notFull : (decide (t.len ≤ t.asked) || decide (4 ≤ t.chunks.length)) = false := by simp [more, room]
  simp only [doChunkRequest, named, notFull]
  rfl

theorem doChunkRequest_waits (shut : chunkWindow (reserveCounted p t d) t t.asked = false) :
    doChunkRequest p i d = scheduleWait p (reserveCounted p t d) := by
  rw [doChunkRequest_attempts named more room, shut]
  rfl

theorem doChunkRequest_requests (opened : chunkWindow (reserveCounted p t d) t t.asked = true) :
    doChunkRequest p i d = requestNext p i t (reserveCounted p t d) := by
  rw [doChunkRequest_attempts named more room, opened]
  rfl

end Attempt

/-- The chunk of `t` that press `p` asks for next. -/
def nextChunk (d : Device) (p : Nat) (t : Transfer) : TxChunk :=
  { num := t.nextNum, tag := freshTag (press d p), off := t.asked, len := chunkLen t t.asked, asked := d.chase.asks,
    grantBy := d.now + max 1 d.chase.grantDeadline.toNat }

theorem requestNext_asks (fits : poolBad d t (chunkLen t t.asked) = false)
    (sound : chunkRetired d t t.asked (chunkLen t t.asked) = false)
    (routed : chunkRoutes d p t (nextChunk d p t) = true) :
    requestNext p i t d = askChunk p t (nextChunk d p t) (modTransfer p i
      (fun t' => { t' with asked := t'.asked + chunkLen t t.asked, nextNum := t'.nextNum + 1,
                           chunks := t'.chunks ++ [nextChunk d p t] })
      (modPress p (fun y => { y with tagNext := freshTag (press d p) + 1 })
        (modChase (fun x => { x with asks := x.asks + 1 }) d))) := by
  simp only [nextChunk] at routed
  simp only [requestNext, fits, sound, routed]
  rfl

end Chunks

/-- Settles O32: an XFER at the head of its queue by its kind and its checks, a chunk request by what its transfer still has
to ask for. -/
theorem xferAndPools : Obligations.XferAndPools := by
  unfold Obligations.XferAndPools
  intro s p awake d
  constructor
  · intro e head b x
    refine ⟨fun kind wellFormed room drained => ?_, fun kind zero ep k target => ?_⟩
    · have dispatches : exec (.xferDispatch p) s = nextWith s (xferAtHead p.1 e d) := by
        rw [exec_xferDispatch, onDev_nextWith awake, doXferDispatch, atHead_some head]
      have free := xferWaits_eq_false room drained
      rw [dispatches]
      exact ⟨fun pass => congrArg (nextWith s) (xferAtHead_starts kind wellFormed free pass),
        fun code ep fails => congrArg (nextWith s) (xferAtHead_faults kind wellFormed free fails)⟩
    · constructor
      · intro op base size alignedBase alignedSize least most inside empty
        rw [exec_poolOpen, onDev_nextWith awake, doPoolOpen, atHead_some head]
        exact congrArg (nextWith s) (poolAtHead_opens kind zero target op
          (openPool_opens alignedBase alignedSize least most inside empty))
      · intro op n aligned committed
        rw [exec_poolRelease, onDev_nextWith awake, doPoolRelease, atHead_some head]
        exact congrArg (nextWith s) (poolAtHead_releases kind zero target op (releasePool_releases aligned committed))
  · intro i t named
    rw [exec_chunkRequest, onDev_nextWith awake]
    intro d1
    refine ⟨fun full => ?_, fun more room => ⟨fun shut => ?_, fun opened => ?_⟩⟩
    · exact congrArg (nextWith s) (doChunkRequest_rests named full)
    · exact congrArg (nextWith s) (doChunkRequest_waits named more room shut)
    · intro n tag c fits sound routed
      exact congrArg (nextWith s)
        ((doChunkRequest_requests named more room opened).trans (requestNext_asks fits sound routed))

end Sys2Proof.Machine
end

section
/-!
PROOFS of the family 07_galleys_and_chase: what follows at once from a command (grants at the receivers, answers of the
engines, feed maps) and what it cannot touch, the chase's messages and chunks, the sides of a galley and the deadlines of a
transfer, and the host's windows with the completions of its reads. The general lemmas stand first; each obligation's proof
follows the lemmas that it is assembled from.
-/
namespace Sys2Proof.Machine

/-! ## Sending at a port leaves the modes of the quads -/

theorem mode_modQuad {g : Quad → Quad} (i q : Nat) (d : Device) (h : ∀ x, (g x).mode = x.mode := by intro; rfl) :
    (quad (modQuad i g d) q).mode = (quad d q).mode := by
  rw [quad_modQuad]
  split
  · exact h _
  · rfl

theorem mode_foldl_emit {α : Type} (l : List α) (f : α → Output) (q : Nat) (d : Device) :
    (quad (l.foldl (fun d k => emit (f k) d) d) q).mode = (quad d q).mode := by
  obtain ⟨o, h⟩ := foldl_emit_frame l f d
  rw [h]
  rfl

theorem mode_sendBlocks (p : Nat) (l : List Block) (q : Nat) (d : Device) :
    (quad (sendBlocks p l d) q).mode = (quad d q).mode := by
  unfold sendBlocks
  extract_lets d1 x w d2
  have stored : (quad d1 q).mode = (quad d q).mode := mode_modQuad ..
  split
  · exact stored
  · obtain ⟨o, marks⟩ := sendMarks_frame p (x.frames + 1) (modQuad p (fun x => { x with
      stream := x.stream.drop (513 * w), frames := x.frames + 1 }) d2)
    rw [marks]
    exact (mode_modQuad ..).trans ((mode_foldl_emit ..).trans stored)

theorem mode_emitFlit (p : Nat) (h : BitVec 96) (m : Option FMsg) (q : Nat) (d : Device) :
    (quad (emitFlit p h m d) q).mode = (quad d q).mode :=
  mode_sendBlocks ..

theorem mode_returnCredit (p : Nat) (data : Bool) (q : Nat) (d : Device) :
    (quad (returnCredit p data d) q).mode = (quad d q).mode :=
  mode_modQuad _ _ _ fun _ => by cases data <;> rfl

theorem mode_takeHeader (p : Nat) (msg data : Bool) (seq : BitVec 12) (q : Nat) (d : Device) :
    (quad (takeHeader p msg data seq d).2 q).mode = (quad d q).mode :=
  mode_modQuad ..

theorem mode_pumpPort (n p q : Nat) (d : Device) : (quad (pumpPort n p d) q).mode = (quad d q).mode := by
  induction n generalizing d with
  | zero => rfl
  | succ n ih =>
    unfold pumpPort
    extract_lets x seq due
    split
    · split
      · rfl
      · extract_lets e m data d1 d2
        have sent : (quad d1 q).mode = (quad d q).mode := mode_modQuad ..
        have credited : (quad d2 q).mode = (quad d1 q).mode := by
          unfold d2
          split
          · exact mode_returnCredit ..
          · rfl
        have headed := mode_takeHeader p true data seq q d2
        exact (ih _).trans ((mode_emitFlit ..).trans (headed.trans (credited.trans sent)))
    · rfl

theorem mode_flAnswer (t st ca v : Nat) (x : FRx) (q : Nat) (d : Device) :
    (quad (flAnswer t st ca v x d) q).mode = (quad d q).mode := by
  unfold flAnswer originate
  split
  · rfl
  · exact (mode_pumpPort ..).trans (mode_modQuad ..)

/-! ## What decides on grants beside the chase and the pools -/

/-- All that decides on grants, beside the chase and the pools, is in `d'` as in `d`. -/
structure SameSetting (d d' : Device) : Prop where
  part      : d'.part = d.part
  time      : d'.time = d.time
  mkr       : d'.mkr = d.mkr
  host      : d'.host = d.host
  cf        : d'.cf = d.cf
  power     : d'.power = d.power
  treeRun   : d'.fount.treeRun = d.fount.treeRun
  pllLock   : d'.fount.pllLock = d.fount.pllLock
  isoOver   : d'.fount.isoOver = d.fount.isoOver
  isoTail   : d'.fount.isoTail = d.fount.isoTail
  modes     : ∀ q, (quad d' q).mode = (quad d q).mode
  states    : ∀ n, (stack d' n).state = (stack d n).state
  buses     : ∀ n, (stack d' n).buses = (stack d n).buses
  transfers : ∀ p, (press d' p).transfers = (press d p).transfers

/-- All that decides on grants is in `d'` as in `d`. -/
structure SameGrants (d d' : Device) : Prop extends SameSetting d d' where
  chase : d'.chase = d.chase
  pools : ∀ e k, getPool d' e k = getPool d e k

theorem SameSetting.refl (d : Device) : SameSetting d d := by
  constructor <;> intros <;> rfl

theorem SameSetting.trans {a b c : Device} (h : SameSetting a b) (k : SameSetting b c) : SameSetting a c where
  part := k.part.trans h.part
  time := k.time.trans h.time
  mkr := k.mkr.trans h.mkr
  host := k.host.trans h.host
  cf := k.cf.trans h.cf
  power := k.power.trans h.power
  treeRun := k.treeRun.trans h.treeRun
  pllLock := k.pllLock.trans h.pllLock
  isoOver := k.isoOver.trans h.isoOver
  isoTail := k.isoTail.trans h.isoTail
  modes q := (k.modes q).trans (h.modes q)
  states n := (k.states n).trans (h.states n)
  buses n := (k.buses n).trans (h.buses n)
  transfers p := (k.transfers p).trans (h.transfers p)

theorem SameGrants.refl (d : Device) : SameGrants d d := ⟨.refl d, rfl, fun _ _ => rfl⟩

theorem SameGrants.trans {a b c : Device} (h : SameGrants a b) (k : SameGrants b c) : SameGrants a c :=
  ⟨h.toSameSetting.trans k.toSameSetting, k.chase.trans h.chase, fun e i => (k.pools e i).trans (h.pools e i)⟩

namespace SameSetting
variable {d d' : Device} (h : SameSetting d d')
include h

theorem now : d'.now = d.now := by
  rw [Device.now, h.time, Device.now]

theorem domainOn (n : Nat) : domainOn d' n = domainOn d n := by
  unfold Machine.domainOn domain
  rw [h.power]

theorem epAwake (e : Ep) : epAwake d' e = epAwake d e := by
  unfold Machine.epAwake epPresent
  simp only [h.part, h.domainOn]

theorem treeDriven (t : Nat) : treeDriven d' t = treeDriven d t := by
  unfold Machine.treeDriven treeSource
  rw [h.cf, h.pllLock]
  simp only [h.modes]

theorem crossIsolated (r : Nat) : crossIsolated d' r crossPort = crossIsolated d r crossPort := by
  unfold Machine.crossIsolated treeMoves
  have notQuad : (crossPort = crossQuad) = False := eq_false (by decide)
  simp only [h.treeDriven, h.treeRun, h.isoOver, h.isoTail, crossEnabled, crossTree, crossBit, treeEnabled,
    columnFrame, h.cf, notQuad]
  rfl

theorem epShut (e : Ep) : epShut d' e = epShut d e := by
  unfold Machine.epShut regionShut regionSilent
  simp only [h.epAwake, h.crossIsolated, h.domainOn, h.cf]

theorem chunkKey (p : Nat) (tag : BitVec 12) : chunkKey d' p tag = chunkKey d p tag := by
  unfold Machine.chunkKey
  rw [h.transfers]

theorem windowsOf (e : Ep) (keys : List (Nat × Nat)) : windowsOf d' e keys = windowsOf d e keys := by
  unfold Machine.windowsOf entryEnd entryTime Device.sheet
  rw [h.mkr, h.now]

theorem hbmWaits (a n : Nat) : hbmWaits d' a n = hbmWaits d a n := by
  unfold Machine.hbmWaits hbmHeld busStopped
  simp only [h.part, h.buses]

end SameSetting

/-! ## What is captured and reported leaves what decides on grants -/

theorem getPool_modPress {g : Press → Press} (p : Nat) (d : Device) (e : Ep) (k : Nat)
    (h : ∀ x, (g x).pools = x.pools := by intro; rfl) : getPool (modPress p g d) e k = getPool d e k := by
  cases e with
  | galley q =>
    show vgetN {} (press _ q).pools k = vgetN {} (press d q).pools k
    rw [press_modPress]
    split
    · rw [h]
    · rfl
  | _ => rfl

theorem getPool_modForme {g : Forme → Forme} (f : Nat) (d : Device) (e : Ep) (k : Nat)
    (h : ∀ x, (g x).pools = x.pools := by intro; rfl) : getPool (modForme f g d) e k = getPool d e k := by
  cases e with
  | case q =>
    show vgetN {} (forme _ q).pools k = vgetN {} (forme d q).pools k
    rw [forme_modForme]
    split
    · rw [h]
    · rfl
  | _ => rfl

theorem transfers_modPress {g : Press → Press} (i p : Nat) (d : Device)
    (h : ∀ x, (g x).transfers = x.transfers := by intro; rfl) :
    (press (modPress i g d) p).transfers = (press d p).transfers := by
  rw [press_modPress]
  split
  · exact h _
  · rfl

theorem SameSetting.modPress {g : Press → Press} (p : Nat) (d : Device)
    (h : ∀ x, (g x).transfers = x.transfers := by intro; rfl) : SameSetting d (modPress p g d) :=
  { SameSetting.refl d with transfers := fun q => transfers_modPress p q d h }

theorem SameSetting.modForme (f : Nat) (g : Forme → Forme) (d : Device) : SameSetting d (modForme f g d) := by
  constructor <;> intros <;> rfl

theorem SameSetting.modChase (g : Chase → Chase) (d : Device) : SameSetting d (modChase g d) := by
  constructor <;> intros <;> rfl

theorem stack_modStack_keeps {α : Type} {g : Stack → Stack} (v : Stack → α) (i n : Nat) (d : Device)
    (h : ∀ x, v (g x) = v x := by intro; rfl) : v (stack (modStack i g d) n) = v (stack d n) := by
  rw [stack_modStack]
  split
  · exact h _
  · rfl

theorem SameGrants.modErrata (g : Errata → Errata) (d : Device) : SameGrants d (modErrata g d) :=
  ⟨by constructor <;> intros <;> rfl, rfl, fun _ _ => rfl⟩

theorem SameGrants.capture (r : Rec) (pc : Option (BitVec 15)) (st : Option (BitVec 12)) (d : Device) :
    SameGrants d (capture r pc st d) := by
  unfold Machine.capture
  extract_lets g
  split
  case h_1 p _ => exact ⟨.modPress p d, rfl, fun e k => getPool_modPress p d e k⟩
  case h_2 f _ => exact ⟨.modForme f _ d, rfl, fun e k => getPool_modForme f d e k⟩
  case h_3 n _ =>
    exact ⟨{ SameSetting.refl d with
      states := fun m => stack_modStack_keeps Stack.state n m d
      buses := fun m => stack_modStack_keeps Stack.buses n m d }, rfl, fun _ _ => rfl⟩
  case h_4 q _ => exact ⟨{ SameSetting.refl d with modes := fun p => mode_modQuad q p d }, rfl, fun _ _ => rfl⟩
  case h_5 _ => exact .modErrata _ d
  case h_6 _ => exact .refl d

theorem SameGrants.modForron (g : Forron → Forron) (d : Device) : SameGrants d (modForron g d) :=
  ⟨by constructor <;> intros <;> rfl, rfl, fun _ _ => rfl⟩

theorem SameGrants.noteEscalation (u : BitVec 32) (c : BitVec 16) (d : Device) :
    SameGrants d (noteEscalation u c d) := by
  unfold Machine.noteEscalation
  split
  · split
    · exact .refl d
    · split
      · exact .refl d
      · exact .modErrata _ d
  · exact .refl d

theorem SameGrants.logPlain (u : BitVec 32) (c : BitVec 16) (dt : BitVec 256) (d : Device) :
    SameGrants d (logPlain u c dt d) :=
  (SameGrants.capture ..).trans ((SameGrants.modErrata ..).trans (SameGrants.noteEscalation ..))

theorem SameGrants.logTurnedAway (st : BitVec 12) (a n : Nat) (d : Device) :
    SameGrants d (logTurnedAway st a n d) := by
  unfold Machine.logTurnedAway
  split
  · exact .logPlain ..
  · exact .refl d

theorem SameGrants.flAnswer (t st ca v : Nat) (x : FRx) (d : Device) : SameGrants d (flAnswer t st ca v x d) := by
  have modes q := mode_flAnswer t st ca v x q d
  obtain ⟨qs, o, h⟩ := flAnswer_frame t st ca v x d
  rw [h] at modes ⊢
  exact ⟨{ SameSetting.refl d with modes := modes }, rfl, fun _ _ => rfl⟩

/-! ## Sorting and picking windows -/

section
variable {α : Type} {le : α → α → Bool} (trans : ∀ a b c, le a b → le b c → le a c)
  (total : ∀ a b, le a b || le b a)
include trans total

/-- An element goes behind those that must come before it, and before all others. -/
theorem mergeSort_cons_eq (a : α) (l : List α) :
    (a :: l).mergeSort le = (l.mergeSort le).filter (!le a ·) ++ a :: (l.mergeSort le).filter (le a ·) := by
  obtain ⟨l1, l2, sorted, rest, before⟩ := List.mergeSort_cons trans total a l
  have ordered := List.pairwise_mergeSort trans total (a :: l)
  rw [sorted] at ordered ⊢
  have after : ∀ b ∈ l2, le a b = true := (List.pairwise_cons.mp (List.pairwise_append.mp ordered).2.1).1
  have first : l1.filter (!le a ·) = l1 := List.filter_eq_self.mpr before
  have notAfter : l1.filter (le a ·) = [] := List.filter_eq_nil_iff.mpr fun b hb => by simpa using before b hb
  have second : l2.filter (le a ·) = l2 := List.filter_eq_self.mpr after
  have notBefore : l2.filter (!le a ·) = [] := List.filter_eq_nil_iff.mpr fun b hb => by simp [after b hb]
  simp [rest, first, notAfter, second, notBefore]

omit trans total in
theorem filter_filter_swap (p q : α → Bool) (l : List α) : (l.filter p).filter q = (l.filter q).filter p := by
  simp only [List.filter_filter, Bool.and_comm]

/-- Sorting is stable: a filter takes away the same elements before and after. -/
theorem mergeSort_filter (p : α → Bool) (l : List α) : (l.filter p).mergeSort le = (l.mergeSort le).filter p := by
  induction l with
  | nil => simp
  | cons a l ih =>
    by_cases kept : p a
    · rw [mergeSort_cons_eq trans total, List.filter_cons_of_pos kept, mergeSort_cons_eq trans total, ih,
        List.filter_append, List.filter_cons_of_pos kept, filter_filter_swap, filter_filter_swap (le a)]
    · obtain ⟨l1, l2, sorted, rest, _⟩ := List.mergeSort_cons trans total a l
      rw [List.filter_cons_of_neg kept, ih, sorted, rest, List.filter_append, List.filter_append,
        List.filter_cons_of_neg kept]

end

/-- The window that the next service goes to, of those with chunks waiting: the first that claims it, else the first. -/
def pickWindow {α : Type} (due : α → Bool) (ws : List α) : Option α := (ws.find? due).orElse fun _ => ws.head?

theorem nextWindow_eq_pickWindow (d : Device) (dst k : Nat) :
    nextWindow d dst k = pickWindow (fun w => windowDue d k w.1 w.2) (windowsOf d (epOf dst) (waitingKeys d dst)) := rfl

/-- Fewer windows to pick from: the one picked stays picked while it is among them. -/
theorem pickWindow_filter {α : Type} {due p : α → Bool} {ws : List α} {w : α} (picked : pickWindow due ws = some w)
    (kept : p w = true) : pickWindow due (ws.filter p) = some w := by
  unfold pickWindow at picked ⊢
  cases claims : ws.find? due with
  | some v =>
    obtain rfl : v = w := by simpa [claims] using picked
    obtain ⟨claimed, before, after, rfl, unclaimed⟩ := List.find?_eq_some_iff_append.mp claims
    have still : ((before ++ v :: after).filter p).find? due = some v :=
      List.find?_eq_some_iff_append.mpr ⟨claimed, before.filter p, after.filter p,
        by rw [List.filter_append, List.filter_cons_of_pos kept], fun a ha => unclaimed a (List.mem_filter.mp ha).1⟩
    rw [still]
    rfl
  | none =>
    have none : (ws.filter p).find? due = none := by
      simp only [List.find?_eq_none, List.mem_filter] at claims ⊢
      exact fun x hx => claims x hx.1
    have first : ws.head? = some w := by simpa [claims] using picked
    obtain ⟨rest, rfl⟩ : ∃ rest, ws = w :: rest := by
      cases ws with
      | nil => cases first
      | cons v rest => exact ⟨rest, by rw [Option.some.inj first]⟩
    rw [none, List.filter_cons_of_pos kept]
    rfl

theorem pickWindow_eq_none {α : Type} {due : α → Bool} {ws : List α} (h : pickWindow due ws = none) : ws = [] := by
  cases ws with
  | nil => rfl
  | cons w ws =>
    unfold pickWindow at h
    cases claims : (w :: ws).find? due <;> simp [claims] at h

/-- The windows with one of fewer keys. -/
theorem windowsOf_fewer (d : Device) (e : Ep) {keys more : List (Nat × Nat)} (fewer : ∀ k ∈ keys, k ∈ more) :
    windowsOf d e keys = (windowsOf d e more).filter fun w => keys.contains w.1 := by
  unfold windowsOf
  extract_lets here l m
  rw [← mergeSort_filter]
  · congr 1
    unfold l m
    rw [List.filter_map, List.filter_filter]
    congr 1
    apply List.filter_congr
    intro ie _
    have : keys.contains (eSlot ie.2, eArg ie.2) = true → more.contains (eSlot ie.2, eArg ie.2) = true := by
      simpa using fewer _
    simp only [Function.comp]
    cases h : keys.contains (eSlot ie.2, eArg ie.2) <;> simp_all
  · intro a b c
    simpa using Nat.le_trans
  · intro a b
    simpa using Nat.le_total _ _

/-! ## The next grant of a receiver -/

/-- The next request at receiver `dst`, if any, waits because the receiver is shut or the chunk does not fit. -/
def grantSettled (d : Device) (dst : Nat) : Prop :=
  ∀ c, nextGrant d dst = some c → epShut d (epOf dst) = true ∨ rxFits d c = false

theorem mem_ungranted {d : Device} {dst : Nat} {c : RxChunk} :
    c ∈ ungranted d dst ↔ c ∈ d.chase.rx ∧ c.dst = dst ∧ c.granted = false := by
  simp [ungranted]

section Turns
variable {d : Device} {dst : Nat}

theorem nextGrant_unshared (alone : serviceIndex (epOf dst) = none) : nextGrant d dst = (ungranted d dst).head? := by
  rw [nextGrant, alone]

theorem nextGrant_window {k : Nat} {w : (Nat × Nat) × BitVec 128} (shared : serviceIndex (epOf dst) = some k)
    (picked : nextWindow d dst k = some w) :
    nextGrant d dst = (ungranted d dst).find? fun c => chunkKey d c.init c.tag = w.1 := by
  rw [nextGrant, shared]
  simp only [picked]

theorem nextGrant_no_window {k : Nat} (shared : serviceIndex (epOf dst) = some k)
    (nothing : nextWindow d dst k = none) :
    nextGrant d dst = (ungranted d dst).head? := by
  rw [nextGrant, shared]
  simp only [nothing]

/-- The request that goes next is one of those that wait. -/
theorem nextGrant_mem {c : RxChunk} (next : nextGrant d dst = some c) : c ∈ ungranted d dst := by
  cases shared : serviceIndex (epOf dst) with
  | none => exact List.mem_of_head? (nextGrant_unshared shared ▸ next)
  | some k =>
    cases picked : nextWindow d dst k with
    | none => exact List.mem_of_head? (nextGrant_no_window shared picked ▸ next)
    | some w => exact List.mem_of_find?_eq_some (nextGrant_window shared picked ▸ next)

end Turns

theorem nextGrant_of_ungranted_nil {d : Device} {dst : Nat} (h : ungranted d dst = []) : nextGrant d dst = none := by
  cases next : nextGrant d dst with
  | none => rfl
  | some c =>
    have := nextGrant_mem next
    simp [h] at this

theorem grantSettled_of_ungranted_nil {d : Device} {dst : Nat} (h : ungranted d dst = []) : grantSettled d dst := by
  intro c next
  rw [nextGrant_of_ungranted_nil h] at next
  cases next

section Same
variable {d d' : Device}

theorem SameSetting.readWaits (h : SameSetting d d') (pulls : d'.chase.hostPulls = d.chase.hostPulls)
    (dst : Nat) (m : ChaseMsg) :
    readWaits d' dst m = readWaits d dst m := by
  unfold Machine.readWaits hostReadable hostReads
  simp only [h.states, h.hbmWaits, h.host, pulls]

theorem SameGrants.nextGrant (h : SameGrants d d') (dst : Nat) : nextGrant d' dst = nextGrant d dst := by
  have waiting : ungranted d' dst = ungranted d dst := by
    unfold ungranted
    rw [h.chase]
  have keys : waitingKeys d' dst = waitingKeys d dst := by
    unfold waitingKeys
    have reads : readWaits d' dst = readWaits d dst := funext fun m => h.readWaits (by rw [h.chase]) dst m
    simp only [waiting, reads, h.chase, h.chunkKey]
  have window k : nextWindow d' dst k = nextWindow d dst k := by
    simp only [nextWindow_eq_pickWindow, keys, h.windowsOf, windowDue, h.chase]
  unfold Machine.nextGrant
  simp only [waiting, window, h.chunkKey]

theorem SameGrants.rxFits (h : SameGrants d d') (c : RxChunk) : rxFits d' c = rxFits d c := by
  unfold Machine.rxFits ingressUsed
  simp only [h.chase, h.pools]

theorem SameGrants.grantSettled (h : SameGrants d d') {dst : Nat} (settled : grantSettled d dst) :
    grantSettled d' dst := by
  intro c next
  rw [h.epShut, h.rxFits]
  exact settled c (h.nextGrant dst ▸ next)

end Same

/-! ## A grant at another receiver -/

/-- The number of an endpoint that has pools. -/
def epNumber : Ep → Nat
  | .case f => 0x80 + f
  | .galley p => p
  | _ => 0

theorem epNumber_epOf {n : Nat} (pools : 0 < epPools (epOf n)) : epNumber (epOf n) = n := by
  revert pools
  unfold epOf
  repeat' split
  · exact fun _ => rfl
  · exact fun _ => Nat.add_sub_of_le (by omega)
  all_goals exact fun pools => absurd pools (Nat.lt_irrefl 0)

/-- Endpoints with pools have one number each. -/
theorem epOf_inj_of_pools {a b : Nat} (h : epOf a = epOf b) (pools : 0 < epPools (epOf a)) : a = b := by
  rw [← epNumber_epOf pools, h, epNumber_epOf (h ▸ pools)]

/-- The number of the receiver that shares its services under an index. -/
theorem eq_of_serviceIndex {n k : Nat} (h : serviceIndex (epOf n) = some k) :
    n = if k < 8 then 0xA0 + k else 0xE0 := by
  revert h
  unfold epOf
  repeat' split
  all_goals simp only [serviceIndex, Option.some.injEq, reduceCtorEq, false_implies]
  all_goals omega

/-! ## A grant at another receiver -/

/-- A granted chunk's place in its pool is taken (R254). -/
def takePlace (c : RxChunk) (d : Device) : Device :=
  match c.pool with
  | none => d
  | some k => modPool (epOf c.dst) k (fun q => { q with tail := poolNext q q.tail c.len, free := q.free - c.len }) d

/-- A grant takes the chunk's place, is noted as a service, ends the chunk's wait and sends a message. -/
theorem grantChunk_eq (c : RxChunk) (d : Device) : ∃ m a ring, grantChunk c d =
    chaseSend m (modRx c (fun k => { k with granted := true, addr := a, ring := ring })
      (noteService (epOf c.dst) (chunkKey (takePlace c d) c.init c.tag) (takePlace c d))) := by
  unfold grantChunk
  extract_lets a d1 ring d2
  split
  · exact ⟨_, a, ring, rfl⟩
  · exact ⟨_, a, ring, rfl⟩

theorem modPool_setting (e : Ep) (k : Nat) (g : Pool → Pool) (d : Device) : SameSetting d (modPool e k g d) := by
  unfold modPool
  split
  · exact .modPress ..
  · exact .modForme ..
  · exact .refl d

theorem chase_modPool (e : Ep) (k : Nat) (g : Pool → Pool) (d : Device) : (modPool e k g d).chase = d.chase := by
  unfold modPool
  split <;> rfl

theorem getPool_modPool_ne {e e' : Ep} (ne : e ≠ e') (k j : Nat) (g : Pool → Pool) (d : Device) :
    getPool (modPool e k g d) e' j = getPool d e' j := by
  cases e with
  | galley p =>
    cases e' with
    | galley q =>
      have : p ≠ q := fun h => ne (by rw [h])
      show vgetN {} (press _ q).pools j = vgetN {} (press d q).pools j
      rw [modPool, press_modPress, if_neg (fun h => this h.1)]
    | _ => rfl
  | case f =>
    cases e' with
    | case q =>
      have : f ≠ q := fun h => ne (by rw [h])
      show vgetN {} (forme _ q).pools j = vgetN {} (forme d q).pools j
      rw [modPool, forme_modForme, if_neg (fun h => this h.1)]
    | _ => rfl
  | _ => rfl

theorem getPool_of_no_pools {e : Ep} (none : epPools e = 0) (d : Device) (k : Nat) : getPool d e k = {} := by
  cases e with
  | galley | case => cases none
  | _ => rfl

theorem takePlace_setting (c : RxChunk) (d : Device) : SameSetting d (takePlace c d) := by
  unfold takePlace
  split
  · exact .refl d
  · exact modPool_setting ..

theorem chase_takePlace (c : RxChunk) (d : Device) : (takePlace c d).chase = d.chase := by
  unfold takePlace
  split
  · rfl
  · exact chase_modPool ..

theorem getPool_takePlace {c : RxChunk} {dst : Nat} (other : c.dst ≠ dst) (d : Device) (k : Nat) :
    getPool (takePlace c d) (epOf dst) k = getPool d (epOf dst) k := by
  unfold takePlace
  split
  · rfl
  · by_cases pools : epPools (epOf dst) = 0
    · rw [getPool_of_no_pools pools, getPool_of_no_pools pools]
    · exact getPool_modPool_ne (fun h => other (epOf_inj_of_pools h.symm (Nat.pos_of_ne_zero pools)).symm) ..

theorem noteService_chase (e : Ep) (key : Nat × Nat) (d : Device) :
    ∃ l, noteService e key d = modChase (fun x => { x with served := l }) d ∧
      ∀ k, serviceIndex e ≠ some k → vgetN [] l k = vgetN [] d.chase.served k := by
  unfold noteService
  split
  · exact ⟨_, rfl, fun _ _ => rfl⟩
  · next i h =>
    refine ⟨_, rfl, fun k ne => ?_⟩
    rw [vgetN_vmodN, if_neg fun e => ne (by rw [h, e.1])]

/-- All that a grant changes: its chunk, the message that it sends, the services of its receiver and the chunk's pool. -/
structure Grants (c : RxChunk) (d d' : Device) : Prop extends SameSetting d d' where
  rx       : ∃ a ring, d'.chase.rx =
    modWhere (rxSame c) (fun k => { k with granted := true, addr := a, ring := ring }) d.chase.rx
  flight   : ∃ m, d'.chase.flight = d.chase.flight ++ [m]
  pulls    : d'.chase.hostPulls = d.chase.hostPulls
  services : ∀ k, serviceIndex (epOf c.dst) ≠ some k → vgetN [] d'.chase.served k = vgetN [] d.chase.served k
  pools    : ∀ dst k, c.dst ≠ dst → getPool d' (epOf dst) k = getPool d (epOf dst) k

theorem grantChunk_grants (c : RxChunk) (d : Device) : Grants c d (grantChunk c d) := by
  obtain ⟨m, a, ring, grant⟩ := grantChunk_eq c d
  obtain ⟨l, noted, others⟩ := noteService_chase (epOf c.dst) (chunkKey (takePlace c d) c.init c.tag) (takePlace c d)
  rw [noted] at grant
  rw [grant]
  refine ⟨(takePlace_setting c d).trans ?_, ⟨a, ring, ?_⟩, ?_, ?_, ?_, ?_⟩
  · exact (SameSetting.modChase ..).trans ((SameSetting.modChase ..).trans (.modChase ..))
  · show modWhere _ _ (takePlace c d).chase.rx = _
    rw [chase_takePlace]
  · have same : (takePlace c d).chase.flight = d.chase.flight := by rw [chase_takePlace]
    exact ⟨_, congrArg (· ++ [_]) same⟩
  · show (takePlace c d).chase.hostPulls = _
    rw [chase_takePlace]
  · intro k ne
    show vgetN [] l k = _
    rw [others k ne, chase_takePlace]
  · intro dst k other
    exact getPool_takePlace other d k

theorem dst_of_rxSame {c k : RxChunk} (same : rxSame c k = true) : k.dst = c.dst := by
  simp only [rxSame, rxIs, Bool.and_eq_true, decide_eq_true_eq] at same
  obtain ⟨⟨⟨dst, _⟩, _⟩, _⟩ := same
  exact dst

/-- Of the elements that a change takes out of a filter, none stays in it; the others stay as they are. -/
theorem filter_modWhere {α : Type} {p q : α → Bool} {g : α → α} (out : ∀ x, p x = true → q (g x) = false) (l : List α) :
    (modWhere p g l).filter q = (l.filter q).filter (!p ·) := by
  induction l with
  | nil => rfl
  | cons x l ih =>
    rw [modWhere, List.map_cons, ← modWhere, List.filter_cons, ih, List.filter_cons]
    by_cases changed : p x
    · simp only [changed, if_true, out x changed]
      cases q x <;> simp [changed]
    · simp only [changed]
      cases h : q x <;> simp [changed, h]

section Other
variable {c : RxChunk} {d d' : Device} (h : Grants c d d')
include h

/-- What still waits at a receiver after a grant. -/
theorem Grants.ungranted (dst : Nat) : ungranted d' dst = (ungranted d dst).filter fun k => !rxSame c k := by
  obtain ⟨a, ring, rx⟩ := h.rx
  unfold Machine.ungranted
  rw [rx]
  exact filter_modWhere (fun k _ => by simp) _

theorem Grants.ungranted_other {dst : Nat} (other : c.dst ≠ dst) :
    Machine.ungranted d' dst = Machine.ungranted d dst := by
  rw [h.ungranted, List.filter_eq_self]
  intro k hk
  obtain ⟨_, at_dst, _⟩ := mem_ungranted.mp hk
  simp [rxSame, rxIs, at_dst, other.symm]

theorem Grants.readWaits (dst : Nat) : readWaits d' dst = readWaits d dst :=
  funext fun m => h.toSameSetting.readWaits h.pulls dst m

/-- A grant elsewhere adds at most one window to those with chunks waiting, and that for the answer to a READ. -/
theorem Grants.waitingKeys_other {dst : Nat} (other : c.dst ≠ dst) :
    ∃ more, waitingKeys d' dst = waitingKeys d dst ++ more := by
  obtain ⟨m, flight⟩ := h.flight
  unfold waitingKeys
  rw [h.ungranted_other other, flight, h.readWaits, List.filter_append, List.map_append, ← List.append_assoc]
  simp only [h.chunkKey]
  exact ⟨_, rfl⟩

/-- A window picked after a grant elsewhere for which chunks waited before it was picked before it. -/
theorem Grants.nextWindow_other {dst k : Nat} (other : c.dst ≠ dst) (service : serviceIndex (epOf dst) = some k)
    {w : (Nat × Nat) × BitVec 128} (picked : nextWindow d' dst k = some w) (waited : w.1 ∈ waitingKeys d dst) :
    nextWindow d dst k = some w := by
  obtain ⟨more, keys⟩ := h.waitingKeys_other other
  have services : vgetN [] d'.chase.served k = vgetN [] d.chase.served k := h.services k fun e =>
    other ((eq_of_serviceIndex e).trans (eq_of_serviceIndex service).symm)
  rw [nextWindow_eq_pickWindow] at picked ⊢
  simp only [windowDue, services, h.windowsOf, keys] at picked
  rw [windowsOf_fewer d (epOf dst) (more := waitingKeys d dst ++ more) fun k hk => List.mem_append_left _ hk]
  exact pickWindow_filter picked (by simpa using waited)

theorem Grants.nextWindow_none {dst k : Nat} (other : c.dst ≠ dst) (nothing : nextWindow d' dst k = none) :
    nextWindow d dst k = none := by
  obtain ⟨more, keys⟩ := h.waitingKeys_other other
  rw [nextWindow_eq_pickWindow] at nothing ⊢
  have empty := pickWindow_eq_none nothing
  rw [h.windowsOf, keys] at empty
  rw [windowsOf_fewer d (epOf dst) (more := waitingKeys d dst ++ more) fun k hk => List.mem_append_left _ hk, empty]
  rfl

/-- After a grant elsewhere a receiver's next request is the one before it, or none (its next service goes to a READ). -/
theorem Grants.nextGrant_other {dst : Nat} (other : c.dst ≠ dst) {k : RxChunk} (next : nextGrant d' dst = some k) :
    nextGrant d dst = some k := by
  have waits := nextGrant_mem next
  rw [h.ungranted_other other] at waits
  cases shared : serviceIndex (epOf dst) with
  | none => rwa [nextGrant_unshared shared, h.ungranted_other other, ← nextGrant_unshared shared] at next
  | some i =>
    cases picked : nextWindow d' dst i with
    | none =>
      rwa [nextGrant_no_window shared picked, h.ungranted_other other,
        ← nextGrant_no_window shared (h.nextWindow_none other picked)] at next
    | some w =>
      rw [nextGrant_window shared picked, h.ungranted_other other] at next
      simp only [h.chunkKey] at next
      have key : chunkKey d k.init k.tag = w.1 := by simpa using List.find?_some next
      have waited : w.1 ∈ waitingKeys d dst := List.mem_append_left _ (List.mem_map.mpr ⟨k, waits, key⟩)
      rwa [nextGrant_window shared (h.nextWindow_other other shared picked waited)]

theorem Grants.rxFits_other {dst : Nat} (other : c.dst ≠ dst) {k : RxChunk} (at_dst : k.dst = dst) :
    rxFits d' k = rxFits d k := by
  obtain ⟨a, ring, rx⟩ := h.rx
  subst at_dst
  have used : ingressUsed d' k.dst = ingressUsed d k.dst := by
    have elsewhere x (same : rxSame c x = true) : x.dst ≠ k.dst := by
      rwa [dst_of_rxSame same]
    unfold ingressUsed
    rw [rx, filter_modWhere (fun x same => by simp [elsewhere x same]), List.filter_eq_self.mpr]
    intro x hx
    cases same : rxSame c x with
    | false => rfl
    | true =>
      have here := (List.mem_filter.mp hx).2
      simp [elsewhere x same] at here
  unfold rxFits
  simp only [used, h.pools _ _ other]

/-- A grant elsewhere lets nothing follow at a receiver. -/
theorem Grants.grantSettled_other {dst : Nat} (other : c.dst ≠ dst) (settled : grantSettled d dst) :
    grantSettled d' dst := by
  intro k next
  obtain ⟨_, at_dst, _⟩ := mem_ungranted.mp (nextGrant_mem next)
  rw [h.epShut, h.rxFits_other other at_dst]
  exact settled k (h.nextGrant_other other next)

end Other

/-! ## Granting at one receiver, and at all -/

theorem rxSame_self (c : RxChunk) : rxSame c c = true := by
  simp [rxSame, rxIs]

theorem length_ungranted_le {c : RxChunk} {d d' : Device} (h : Grants c d d') (dst : Nat) :
    (ungranted d' dst).length ≤ (ungranted d dst).length := by
  rw [h.ungranted]
  exact List.length_filter_le ..

theorem length_ungranted_lt {c : RxChunk} {d d' : Device} (h : Grants c d d') {dst : Nat}
    (waits : c ∈ ungranted d dst) :
    (ungranted d' dst).length < (ungranted d dst).length := by
  rw [h.ungranted]
  exact List.length_filter_lt_length_iff_exists.mpr ⟨c, waits, by simp [rxSame_self]⟩

/-- What holds of a device and is kept by a grant at receiver `dst` is kept by granting there. -/
theorem grantAt_induction {P : Device → Prop} {dst : Nat}
    (keeps : ∀ d c, P d → c ∈ ungranted d dst → P (grantChunk c d)) (n : Nat) {d : Device} (h : P d) :
    P (grantAt dst n d) := by
  induction n generalizing d with
  | zero => exact h
  | succ n ih =>
    unfold grantAt
    split
    · exact h
    · next c next =>
      split
      · exact ih (keeps d c h (nextGrant_mem next))
      · exact h

/-- Granting goes on until the next request must wait. -/
theorem grantAt_settles {dst n : Nat} {d : Device} (fuel : (ungranted d dst).length ≤ n) :
    grantSettled (grantAt dst n d) dst := by
  induction n generalizing d with
  | zero => exact grantSettled_of_ungranted_nil (List.eq_nil_of_length_eq_zero (Nat.le_zero.mp fuel))
  | succ n ih =>
    unfold grantAt
    split
    · next nothing =>
      intro c next
      rw [nothing] at next
      cases next
    · next c next =>
      split
      · have := length_ungranted_lt (grantChunk_grants c d) (nextGrant_mem next)
        exact ih (by omega)
      · next waits =>
        intro k again
        obtain rfl : c = k := Option.some.inj (next.symm.trans again)
        cases shut : epShut d (epOf dst) with
        | true => exact .inl rfl
        | false => exact .inr (by simpa [shut] using waits)

theorem grantAt_settled_other {dst dst' : Nat} (other : dst ≠ dst') (n : Nat) {d : Device}
    (settled : grantSettled d dst') :
    grantSettled (grantAt dst n d) dst' :=
  grantAt_induction (P := (grantSettled · dst'))
    (fun d c settled waits =>
      (grantChunk_grants c d).grantSettled_other ((mem_ungranted.mp waits).2.1 ▸ other) settled) n settled

theorem length_ungranted_grantAt (dst dst' n : Nat) (d : Device) :
    (ungranted (grantAt dst n d) dst').length ≤ (ungranted d dst').length :=
  grantAt_induction (P := fun e => (ungranted e dst').length ≤ (ungranted d dst').length)
    (fun _ c le _ => Nat.le_trans (length_ungranted_le (grantChunk_grants c _) dst') le) n (Nat.le_refl _)

/-- Granting at one receiver after another settles them all. -/
theorem foldl_grantAt_settles {n : Nat} (l : List Nat) {d : Device} (fuel : ∀ dst, (ungranted d dst).length ≤ n)
    (dst : Nat) (h : dst ∈ l ∨ grantSettled d dst) : grantSettled (l.foldl (fun d dst => grantAt dst n d) d) dst := by
  induction l generalizing d with
  | nil => simpa using h
  | cons x l ih =>
    rw [List.foldl_cons]
    refine ih (fun y => Nat.le_trans (length_ungranted_grantAt x y n d) (fuel y)) ?_
    by_cases here : x = dst
    · subst here
      exact .inr (grantAt_settles (fuel x))
    · rcases h with mem | settled
      · exact .inl ((List.mem_cons.mp mem).resolve_left (Ne.symm here))
      · exact .inr (grantAt_settled_other here n settled)

/-- After `settleGrants` no receiver has a request to grant that it could grant. -/
theorem settleGrants_settles (d : Device) (dst : Nat) : grantSettled (settleGrants d) dst := by
  unfold settleGrants
  extract_lets l
  have sub (x : Nat) : ungranted d x = (d.chase.rx.filter (!·.granted)).filter fun c => c.dst = x := by
    simp [ungranted, List.filter_filter]
  apply foldl_grantAt_settles
  · intro x
    rw [sub]
    exact Nat.le_trans (List.length_filter_le ..) (by simp [l])
  · by_cases waiting : dst ∈ l
    · exact .inl (List.mem_eraseDups.mpr waiting)
    · refine .inr (grantSettled_of_ungranted_nil ?_)
      rw [sub, List.filter_eq_nil_iff]
      intro c hc at_dst
      exact waiting (List.mem_map.mpr ⟨c, hc, by simpa using at_dst⟩)

/-! ## Answers of the engines -/

/-- The chunk waits for its engine at most with the engine's collective unknown, or in agreement with it (R364). -/
def engineAgrees (engines : Vector (Option Collective) 2) (x : FRx) : Bool :=
  x.granted || match frxDie x with
    | none => true
    | some die => match vgetN none engines die with
      | none => true
      | some c => colAgrees c x

theorem enginesSettled_iff (d : Device) :
    enginesSettled d = true ↔ ∀ x ∈ d.forron.rx, engineAgrees d.forron.engines x = true := by
  rw [enginesSettled, List.all_eq_true]
  rfl

theorem forron_flAnswer (t st ca v : Nat) (x : FRx) (d : Device) : (flAnswer t st ca v x d).forron = d.forron := by
  obtain ⟨qs, o, h⟩ := flAnswer_frame t st ca v x d
  rw [h]

theorem forron_logPlain (u : BitVec 32) (c : BitVec 16) (dt : BitVec 256) (d : Device) :
    (logPlain u c dt d).forron = d.forron := by
  obtain ⟨p, f, s, q, e, h⟩ := logPlain_frame u c dt d
  rw [h]

theorem forron_logTurnedAway (st : BitVec 12) (a n : Nat) (d : Device) :
    (logTurnedAway st a n d).forron = d.forron := by
  unfold logTurnedAway
  split
  · exact forron_logPlain ..
  · rfl

theorem frxSame_self (x : FRx) : frxSame x x = true := by
  simp [frxSame, frxIs]

/-- All that the answer to one RESERVE can do: nothing, where the chunk is in order; the chunk is dropped; or it is
granted. -/
theorem settleEngine_cases (d : Device) (x : FRx) :
    (settleEngine d x = d ∧ engineAgrees d.forron.engines x = true) ∨
    (∃ ca e, settleEngine d x = flAnswer 2 1 ca 0 x (dropFrx x e) ∧
      (e = d ∨ ∃ a n, e = logTurnedAway x.stream a n d)) ∨
    ∃ due, settleEngine d x = flAnswer 2 0 0 x.addr x
      (modFrx x (fun x => { x with granted := true, holdBy := due }) d) := by
  unfold settleEngine engineAgrees
  cases die : frxDie x with
  | none => exact .inl ⟨rfl, by simp⟩
  | some k =>
    simp only []
    cases engine : vgetN none d.forron.engines k with
    | none => exact .inl ⟨rfl, by simp⟩
    | some c =>
      simp only []
      split
      · next granted => exact .inl ⟨rfl, by simp [granted]⟩
      · split
        · exact .inr (.inl ⟨5, d, rfl, .inl rfl⟩)
        · next agrees =>
          split
          · refine .inr (.inl ⟨4, _, rfl, ?_⟩)
            split
            · exact .inr ⟨_, _, rfl⟩
            · exact .inl rfl
          · split
            · exact .inr (.inr ⟨_, rfl⟩)
            · exact .inl ⟨rfl, by simp at agrees; simp [agrees]⟩

theorem settleEngine_sameGrants (d : Device) (x : FRx) : SameGrants d (settleEngine d x) := by
  obtain ⟨same, _⟩ | ⟨ca, e, same, rfl | ⟨a, n, rfl⟩⟩ | ⟨due, same⟩ := settleEngine_cases d x
  · rw [same]
    exact .refl d
  · rw [same]
    exact (SameGrants.modForron ..).trans (.flAnswer ..)
  · rw [same]
    exact (SameGrants.logTurnedAway ..).trans ((SameGrants.modForron ..).trans (.flAnswer ..))
  · rw [same]
    exact (SameGrants.modForron ..).trans (.flAnswer ..)

/-- What the answer to one RESERVE does to the Forron link's chunks: nothing, where the chunk is in order; it drops the
chunk; or it grants it. -/
theorem forron_settleEngine (d : Device) (x : FRx) :
    ((settleEngine d x).forron = d.forron ∧ engineAgrees d.forron.engines x = true) ∨
    (settleEngine d x).forron = (dropFrx x d).forron ∨
    ∃ due, (settleEngine d x).forron = (modFrx x (fun x => { x with granted := true, holdBy := due }) d).forron := by
  obtain ⟨same, agrees⟩ | ⟨ca, e, same, rfl | ⟨a, n, rfl⟩⟩ | ⟨due, same⟩ := settleEngine_cases d x
  · exact .inl ⟨by rw [same], agrees⟩
  · exact .inr (.inl (by rw [same, forron_flAnswer]))
  · refine .inr (.inl ?_)
    rw [same, forron_flAnswer]
    simp only [dropFrx, modForron_forron, forron_logTurnedAway]
  · exact .inr (.inr ⟨due, by rw [same, forron_flAnswer]⟩)

theorem engines_settleEngine (d : Device) (x : FRx) : (settleEngine d x).forron.engines = d.forron.engines := by
  obtain ⟨same, _⟩ | same | ⟨due, same⟩ := forron_settleEngine d x
  · rw [same]
  · exact (congrArg Forron.engines same).trans rfl
  · exact (congrArg Forron.engines same).trans rfl

/-- A chunk left after the answer to `x` is in order, or it was there before and is another. -/
theorem rx_settleEngine {d : Device} {x y : FRx} (left : y ∈ (settleEngine d x).forron.rx) :
    engineAgrees d.forron.engines y = true ∨ (y ∈ d.forron.rx ∧ y ≠ x) := by
  obtain ⟨same, agrees⟩ | same | ⟨due, same⟩ := forron_settleEngine d x
  · rw [same] at left
    by_cases self : y = x
    · exact .inl (self ▸ agrees)
    · exact .inr ⟨left, self⟩
  · rw [same] at left
    obtain ⟨mem, other⟩ := List.mem_filter.mp left
    refine .inr ⟨mem, fun self => ?_⟩
    rw [self, frxSame_self] at other
    cases other
  · rw [same] at left
    obtain ⟨k, mem, rfl⟩ := List.mem_map.mp left
    split
    · exact .inl rfl
    · next other => exact .inr ⟨mem, fun self => other (self ▸ frxSame_self x)⟩

theorem foldl_settleEngine (l : List FRx) (d : Device) :
    (l.foldl settleEngine d).forron.engines = d.forron.engines ∧
    ∀ y ∈ (l.foldl settleEngine d).forron.rx, engineAgrees d.forron.engines y = true ∨ (y ∈ d.forron.rx ∧ y ∉ l) := by
  induction l generalizing d with
  | nil => exact ⟨rfl, fun y hy => .inr ⟨hy, List.not_mem_nil⟩⟩
  | cons x l ih =>
    obtain ⟨engines, chunks⟩ := ih (settleEngine d x)
    rw [engines_settleEngine] at engines chunks
    refine ⟨engines, fun y hy => ?_⟩
    rcases chunks y hy with agrees | ⟨mem, more⟩
    · exact .inl agrees
    · rcases rx_settleEngine mem with agrees | ⟨before, other⟩
      · exact .inl agrees
      · exact .inr ⟨before, by simp [other, more]⟩

/-- After `settleEngines` no chunk disagrees with its engine's collective. -/
theorem settleEngines_settles (d : Device) : enginesSettled (settleEngines d) = true := by
  obtain ⟨engines, chunks⟩ := foldl_settleEngine d.forron.rx d
  rw [enginesSettled_iff]
  intro y hy
  rw [settleEngines, engines]
  exact (chunks y hy).resolve_right fun h => h.2 h.1

theorem settleEngines_sameGrants (d : Device) : SameGrants d (settleEngines d) :=
  List.foldlRecOn (motive := SameGrants d) d.forron.rx settleEngine (.refl d) fun _ before x _ =>
    before.trans (settleEngine_sameGrants _ x)

/-! ## Feed maps -/

theorem feedHeld_settleFeed (d : Device) (k j : Nat) : feedHeld (settleFeed d k) j = feedHeld d j := by
  obtain ⟨m, n, h⟩ := settleFeed_frame d k
  rw [h]
  rfl

/-- Feed map `k` has no change left that it could make (R412). -/
def feedSettled (d : Device) (k : Nat) : Bool := (vgetN none d.fount.feedNext k).isNone || feedHeld d k

/-- A change waits on only where a FEED holds the feed; no other feed's change is touched. -/
theorem feedSettled_settleFeed {d : Device} {k j : Nat} (h : k = j ∨ feedSettled d j = true) :
    feedSettled (settleFeed d k) j = true := by
  rw [feedSettled, feedHeld_settleFeed, Bool.or_eq_true, Option.isNone_iff_eq_none]
  cases held : feedHeld d j with
  | true => exact .inr rfl
  | false =>
    left
    have settled : k = j ∨ vgetN none d.fount.feedNext j = none := by simpa [feedSettled, held] using h
    unfold settleFeed
    split
    · next nothing => exact settled.elim (fun e => e ▸ nothing) id
    · split
      · next busy => exact settled.resolve_left fun e => by simp [e, held] at busy
      · rw [modFount_fount, vgetN_vmodN]
        split
        · rfl
        · next outside =>
          exact settled.elim (fun e => dif_neg fun inside => outside ⟨e, inside⟩) id

theorem foldl_settleFeed_settles (l : List Nat) {d : Device} {j : Nat} (h : j ∈ l ∨ feedSettled d j = true) :
    feedSettled (l.foldl settleFeed d) j = true := by
  induction l generalizing d with
  | nil => simpa using h
  | cons k l ih =>
    refine ih (h.elim (fun mem => ?_) fun settled => .inr (feedSettled_settleFeed (.inr settled)))
    exact (List.mem_cons.mp mem).elim (fun e => .inr (feedSettled_settleFeed (.inl e.symm))) .inl

theorem settleFeeds_settles (d : Device) : feedsSettled (settleFeeds d) = true := by
  rw [feedsSettled, settleFeeds_eq, List.all_eq_true]
  exact fun k hk => foldl_settleFeed_settles _ (.inl hk)

theorem settleFeeds_sameGrants (d : Device) : SameGrants d (settleFeeds d) := by
  obtain ⟨m, n, h⟩ := settleFeeds_frame d
  rw [h]
  exact ⟨by constructor <;> intros <;> rfl, rfl, fun _ _ => rfl⟩

theorem forron_settleFeeds (d : Device) : (settleFeeds d).forron = d.forron := by
  obtain ⟨m, n, h⟩ := settleFeeds_frame d
  rw [h]

/-! ## The invariant -/

/-- Whatever a command has done, what follows at once leaves nothing that could follow. -/
theorem followed_settled (d : Device) : Followed (settled d) where
  feeds := settleFeeds_settles _
  engines := by
    rw [settled, enginesSettled, forron_settleFeeds]
    exact settleEngines_settles _
  grants := fun dst c _ => ((settleEngines_sameGrants _).trans (settleFeeds_sameGrants _)).grantSettled
    (settleGrants_settles _ dst) c

theorem followed_onAlways {g : Device → Device} {s s' : State} (h : onAlways g s = .next s') : Followed s'.dev := by
  have answer : { s with dev := settled (g s.dev) } = s' := Host.Outcome.next.inj h
  subst answer
  dsimp only
  exact followed_settled _

/-- Settles O58: every command's answer is `settled`, and so is a point of Press Time, unless the part is asleep, when
nothing changes. -/
theorem stepKeepsFollowed : Obligations.StepKeepsFollowed := by
  unfold Obligations.StepKeepsFollowed
  intro s s' followed stepped
  cases pending : s.pending with
  | nil =>
    have answer : step s = .next { s with dev := idle s.dev } := by rw [step, pending]
    obtain rfl : _ = s' := Host.Outcome.next.inj (answer.symm.trans stepped)
    show Followed (idle s.dev)
    unfold idle
    split
    · exact followed
    · exact followed_settled _
  | cons c rest =>
    rw [step_cons pending] at stepped
    rcases exec_eq_onAlways_or_onDev c with ⟨_, g, command⟩ | ⟨g, command⟩
    · exact followed_onAlways (command ▸ stepped)
    · exact followed_onAlways ((congrFun command _).symm.trans stepped)

/-- Settles O59: at reset no feed map has a change, and no chunk waits at an engine or for receive space. -/
theorem resetFollowed : Obligations.ResetFollowed := by
  unfold Obligations.ResetFollowed
  refine ⟨?_, rfl, fun dst c _ next => ?_⟩
  · rw [feedsSettled, List.all_eq_true]
    intro k _
    have unchanged : vgetN none State.reset.dev.fount.feedNext k = none := vgetN_replicate 32 none k
    rw [unchanged]
    rfl
  · have waits := nextGrant_mem next
    cases waits

/-! ## What follows at once leaves alone -/

/-- The parts of the device that nothing which follows at once touches, while no error is reported. -/
structure SameCore (d d' : Device) : Prop where
  part      : d'.part = d.part
  time      : d'.time = d.time
  mkr       : d'.mkr = d.mkr
  host      : d'.host = d.host
  errata    : d'.errata = d.errata
  hbmStacks : d'.hbmStacks = d.hbmStacks
  hbm       : d'.hbm = d.hbm
  cf        : d'.cf = d.cf
  power     : d'.power = d.power
  trust     : d'.trust = d.trust
  free      : d'.free = d.free

theorem SameCore.refl (d : Device) : SameCore d d := by
  constructor <;> rfl

theorem SameCore.trans {a b c : Device} (h : SameCore a b) (k : SameCore b c) : SameCore a c where
  part := k.part.trans h.part
  time := k.time.trans h.time
  mkr := k.mkr.trans h.mkr
  host := k.host.trans h.host
  errata := k.errata.trans h.errata
  hbmStacks := k.hbmStacks.trans h.hbmStacks
  hbm := k.hbm.trans h.hbm
  cf := k.cf.trans h.cf
  power := k.power.trans h.power
  trust := k.trust.trans h.trust
  free := k.free.trans h.free

/-- Grants change neither the core nor the Forron link. -/
theorem grantChunk_core (c : RxChunk) (d : Device) :
    SameCore d (grantChunk c d) ∧ (grantChunk c d).forron = d.forron := by
  obtain ⟨ps, fs, ch, h⟩ := grantChunk_frame c d
  rw [h]
  exact ⟨by constructor <;> rfl, rfl⟩

theorem settleGrants_core (d : Device) : SameCore d (settleGrants d) ∧ (settleGrants d).forron = d.forron := by
  unfold settleGrants
  extract_lets l
  refine List.foldlRecOn (motive := fun e => SameCore d e ∧ e.forron = d.forron) l.eraseDups _ ⟨.refl d, rfl⟩ ?_
  intro e he dst _
  refine grantAt_induction (P := fun e => SameCore d e ∧ e.forron = d.forron) ?_ l.length he
  intro e c ⟨core, forron⟩ _
  obtain ⟨core', forron'⟩ := grantChunk_core c e
  exact ⟨core.trans core', forron'.trans forron⟩

theorem settleFeeds_core (d : Device) : SameCore d (settleFeeds d) := by
  obtain ⟨m, n, h⟩ := settleFeeds_frame d
  rw [h]
  constructor <;> rfl

theorem modForron_core (g : Forron → Forron) (d : Device) : SameCore d (modForron g d) := by
  constructor <;> rfl

theorem flAnswer_core (t st ca v : Nat) (x : FRx) (d : Device) : SameCore d (flAnswer t st ca v x d) := by
  obtain ⟨qs, o, h⟩ := flAnswer_frame t st ca v x d
  rw [h]
  constructor <;> rfl

theorem hbmRetired_core {d d' : Device} (h : SameCore d d') (a n : Nat) : hbmRetired d' a n = hbmRetired d a n := by
  rw [hbmRetired, h.hbm, hbmRetired]

theorem logTurnedAway_of_not_retired {d : Device} (sound : ∀ a n, hbmRetired d a n = false)
    (st : BitVec 12) (a n : Nat) :
    logTurnedAway st a n d = d := by
  rw [logTurnedAway, if_neg (by simp [sound])]

/-- With no granule retired no answer to a RESERVE is reported (R353). -/
theorem settleEngine_core {d : Device} (sound : ∀ a n, hbmRetired d a n = false) (x : FRx) :
    SameCore d (settleEngine d x) := by
  obtain ⟨same, _⟩ | ⟨ca, e, same, source⟩ | ⟨due, same⟩ := settleEngine_cases d x
  · rw [same]
    exact .refl d
  · obtain rfl : e = d := source.elim id fun ⟨a, n, h⟩ => h.trans (logTurnedAway_of_not_retired sound ..)
    rw [same]
    exact (modForron_core ..).trans (flAnswer_core ..)
  · rw [same]
    exact (modForron_core ..).trans (flAnswer_core ..)

theorem settleEngines_core {d : Device} (sound : ∀ a n, hbmRetired d a n = false) : SameCore d (settleEngines d) :=
  List.foldlRecOn (motive := SameCore d) d.forron.rx settleEngine (.refl d) fun _ before x _ =>
    before.trans (settleEngine_core (fun a n => (hbmRetired_core before a n).trans (sound a n)) x)

/-- Settles O4: grants, answers of engines and feed maps each leave the core, and a calm part stays as it is. -/
theorem settledFrame : Obligations.SettledFrame := by
  unfold Obligations.SettledFrame
  refine fun d => ⟨settled_of_calm, fun aborts failed escalate quiet => ?_⟩
  have early : settleErrors (settleFails 4096 (settleAborts d)) = d := by
    rw [settleAborts_of_abortsBegun aborts, settleFails_of_no_failed _ failed, settleErrors_of_no_escalate escalate]
  obtain ⟨grants, forron⟩ := settleGrants_core d
  have engines : SameCore (settleGrants d) (settleEngines (settleGrants d)) := by
    rcases quiet with granted | sound
    · rw [settleEngines_of_granted (forron ▸ granted)]
      exact .refl _
    · exact settleEngines_core fun a n => (hbmRetired_core grants a n).trans (sound a n)
  have core : SameCore d (settled d) := by
    rw [settled, early]
    exact grants.trans (engines.trans (settleFeeds_core _))
  exact ⟨core.part, core.time, core.mkr, core.host, core.errata, core.hbmStacks, core.hbm, core.cf, core.power,
    core.trust, core.free⟩

/-! ## The sides of a galley (R261, R262, R304) -/

section Sides
variable {d : Device} {p : Nat}

theorem doGalleySide_toPress (side : (press d p).chaseSide = true) (waits : (press d p).pressWait = true) :
    doGalleySide p d =
      let d' := modPress p (fun x => { x with chaseSide := false, pressWait := false, sideAt := some d.now }) d
      if pressAborting d' p then settlePress p d' else d' := by
  simp only [doGalleySide, side, waits, if_true]

theorem doGalleySide_toChase (side : (press d p).chaseSide = false) (work : chaseWork d p = true)
    (idle : pressAccess d p = false) : doGalleySide p d =
      sendReady p (modPress p (fun x => { x with chaseSide := true, sideAt := some d.now }) (flushGalley p d)) := by
  simp [doGalleySide, side, work, idle]

end Sides

/-! ## Deadlines (R274, R276, R277) -/

section Deadlines
variable {d : Device} {p i : Nat} {t : Transfer} (named : transferAt d p i = some t)

/-- The receivers of a multicast that have not granted a chunk (R274). -/
def missingGrants (t : Transfer) (c : TxChunk) : List Nat := t.rcvrs.filter fun r => !c.grants.contains r

section
include named

theorem doMcastDeadline_faults {c : TxChunk} (mcast : t.mcast = true)
    (late : t.chunks.find? (fun c => chunkWaits d p t c && decide (c.grantBy ≤ d.now)) = some c) :
    doMcastDeadline p i d = faultStream p 2 t.entry t.stream 0x0610 (unitPress p)
      { peer := nth 0 (missingGrants t c) 0, state := 1, chunk := c.num,
        missing := missingBits (missingGrants t c) } d := by
  simp only [doMcastDeadline, named, mcast, late]
  rfl

theorem doStreamDeadline_before (early : d.now < t.deadline) : doStreamDeadline p i d = d := by
  simp only [doStreamDeadline, named, early, if_true]

theorem doStreamDeadline_faults (due : t.deadline ≤ d.now) : doStreamDeadline p i d =
    faultStream p 2 t.entry t.stream 0x0601 (unitPress p)
      { holder := (holderOf d t (waitState d p t).1).1, holderI := (holderOf d t (waitState d p t).1).2,
        peer := waitPeer t (waitState d p t).1, pool := t.pool.getD 0xFF, state := (waitState d p t).1,
        chunk := (waitState d p t).2 } d := by
  simp only [doStreamDeadline, named, Nat.not_lt.mpr due, if_false]

end

/-- A multicast that waits for grants names the first receiver whose grant its oldest chunk lacks, or its first
receiver. -/
theorem waitPeer_mcast {c : TxChunk} {l : List TxChunk} (mcast : t.mcast = true) (oldest : t.chunks = c :: l) :
    waitPeer t 1 = match missingGrants t c with | r :: _ => r | [] => nth 0 t.rcvrs 0 := by
  have peer : waitPeer t 1 = nth 0 (missingGrants t c ++ t.rcvrs) 0 := by
    rw [waitPeer, mcast, oldest]
    rfl
  rw [peer]
  cases missingGrants t c <;> rfl

end Deadlines

/-- Settles O35: a galley goes by the side it is on, a deadline by whether it has come. -/
theorem sidesAndDeadlines : Obligations.SidesAndDeadlines := by
  unfold Obligations.SidesAndDeadlines
  intro s p awake d
  refine ⟨fun side waits => ?_, fun side work idle => ?_, fun i t named => ⟨fun c mcast late => ?_, fun early => ?_,
    fun due => ?_, fun c l mcast oldest => ?_⟩⟩
  · rw [exec_galleySideChange, onDev_nextWith awake, doGalleySide_toPress side waits]
  · rw [exec_galleySideChange, onDev_nextWith awake, doGalleySide_toChase side work idle]
  · rw [exec_multicastGrantDeadline, onDev_nextWith awake, doMcastDeadline_faults named mcast late]
    rfl
  · rw [exec_streamDeadline, onDev_nextWith awake, doStreamDeadline_before named early]
  · rw [exec_streamDeadline, onDev_nextWith awake, doStreamDeadline_faults named due]
  · rw [waitPeer_mcast mcast oldest]
    rfl

/-! ## Taking messages (R268, R269, R509) -/

section Messages
variable {d : Device} {n ty : Nat} {m : ChaseMsg} {act : ChaseMsg → Device → Device} (taken : msgAt d n ty = some m)
include taken

theorem onMsg_ok : onMsg ty n .ok act d = act m (takeFlight n d) := by
  rw [onMsg, taken]

theorem onMsg_parity : onMsg ty n .parity act d = logChase (epUnitAddr (epOf m.dst)) 0x0612 m (takeFlight n d) := by
  rw [onMsg, taken]

theorem onMsg_misrouted (r : Fin 1024) : onMsg ty n (.misrouted r) act d
    = logChase (epUnitAddr (epOf r.1)) 0x0613 m (takeFlight n d) := by
  rw [onMsg, taken]

end Messages

section Frisket
variable {d : Device} {m : ChaseMsg} {act : Device → Device}

theorem pastFrisket_open (free : ∀ p, epOf m.dst = .galley p → fenced d p = false) : pastFrisket m act d = act d := by
  unfold pastFrisket
  split
  · next p galley => rw [free p galley, if_neg (by decide)]
  · rfl

theorem pastFrisket_closed {p : Nat} (galley : epOf m.dst = .galley p) (closed : fenced d p = true) :
    pastFrisket m act d = fencedRequest p m d := by
  rw [pastFrisket, galley]
  exact if_pos closed

end Frisket

/-! ## GRANT at the sender (R255, R256, R274) -/

section Grant
variable {d : Device} {m : ChaseMsg} {i : Nat} {t : Transfer} {c : TxChunk}

/-- A sender of this part notes the grant of a receiver that it had not, and sends the chunk where it can. -/
theorem grantAtSender_notes (press : m.dst < 0xB0) (named : findTx d m.dst m.tag = some (i, t, c))
    (receiver : m.src ∈ chunkRcvrs d t c) (new : m.src ∉ c.grants) :
    grantAtSender m d = sendChunk m.dst i
      (modChunk m.dst i c.tag (fun c => { c with grants := c.grants ++ [m.src] }) d)
      { c with grants := c.grants ++ [m.src] } := by
  have takes : ((chunkRcvrs d t c).contains m.src && !c.grants.contains m.src) = true := by simp [receiver, new]
  rw [grantAtSender, if_neg (by omega), named]
  exact if_pos takes

end Grant

section Send
variable {d d' : Device} {p i : Nat} {t : Transfer} {c : TxChunk} {v : List Byte} (named : transferAt d p i = some t)
include named

theorem sendChunk_waits (waits : chunkWaits d p t c = true) : sendChunk p i d c = d := by
  simp [sendChunk, named, waits]

theorem sendChunk_sends (push : t.push = true) (unsent : c.sent = false) (granted : chunkWaits d p t c = false)
    (source : sourceReady d t.src (t.saddr + c.off) c.len = true)
    (read : readForSend 2 p t.entry t.stream t.src (t.saddr + c.off) c.len d = (d', some v)) :
    sendChunk p i d c =
      let d3 := modChunk p i c.tag (fun c => { c with sent := true, tally := tally v }) d'
      sendFlits p (chunkRcvrs d3 t c) c.tag t.stream t.entry.slot p v d3 := by
  simp [sendChunk, named, push, unsent, granted, source, read]

end Send

/-! ## READ at its source (R255, R256, R410, R464) -/

section Read
variable {d d' : Device} {n : Nat} {m : ChaseMsg}

theorem doRead_takes (taken : msgAt d n 2 = some m) (ready : readReady d m.dst m.addr m.len = true)
    (turn : readTurn d m = true) (free : ∀ p, epOf m.dst = .galley p → fenced d p = false) :
    doRead n .ok d = readAtSource m (takeFlight n d) := by
  simp only [doRead, taken, ready, turn, Bool.and_self, if_true, onMsg_ok taken]
  exact pastFrisket_open free

theorem doRead_waits (taken : msgAt d n 2 = some m)
    (waits : readReady d m.dst m.addr m.len = false ∨ readTurn d m = false) (cond : HopCondition) :
    doRead n cond d = d := by
  have held : (readReady d m.dst m.addr m.len && readTurn d m) = false := by rwa [Bool.and_eq_false_iff]
  rw [doRead, taken]
  simp [held]

theorem serveRead_sends {v : List Byte} {x : Nat × Transfer × TxChunk} (named : findTx d m.init m.tag = some x)
    (read : readForSend 2 m.init x.2.1.entry m.stream m.dst m.addr m.len
      (noteService (epOf m.dst) (chunkKey d m.init m.tag) d) = (d', some v)) :
    serveRead m d = sendFlits m.dst [m.rcv] m.tag m.stream m.slot m.init v d' := by
  obtain ⟨j, t, c⟩ := x
  simp only [serveRead, named, read]

theorem hostPull_reads {j : Nat} {t : Transfer} {c : TxChunk} (named : findTx d m.init m.tag = some (j, t, c)) :
    hostPull m d = (hostRequests (t.host + c.off) m.len).foldl (fun d r => emit (.hostRead r.1 r.2) d)
      (modChase (fun x => { x with hostPulls := x.hostPulls ++ [m] })
        (noteService .host (chunkKey d m.init m.tag) d)) := by
  simp only [hostPull, named]

end Read

/-- The endpoints whose memory the chase reads and writes itself. -/
def memoryEp : Ep → Bool
  | .galley _ | .case _ | .comp _ | .hbm _ => true
  | _ => false

theorem readAtSource_memory {m : ChaseMsg} (memory : memoryEp (epOf m.dst) = true) (d : Device) :
    readAtSource m d = serveRead m d := by
  unfold readAtSource
  split
  · next h => rw [h] at memory; cases memory
  · next h => rw [h] at memory; cases memory
  · next h => rw [h] at memory; cases memory
  · rfl

/-! ## DATA and END at the receiver -/

section Receiver
variable {d : Device} {m : ChaseMsg} {c : RxChunk} (known : rxOf d m = some c) (granted : c.granted = true)
  (uncommitted : c.committed = false)
include known granted uncommitted

theorem dataAtReceiver_keeps :
    dataAtReceiver m d = modRx c (fun c => { c with flits := smapPut c.flits m.flit m.data }) d := by
  simp [dataAtReceiver, known, granted, uncommitted]

theorem endAtReceiver_keeps : endAtReceiver m d = modRx c (fun c => { c with tally := some m.tally }) d := by
  simp [endAtReceiver, known, granted, uncommitted]

end Receiver

/-- Settles O33: a message that is taken goes to what its type does at its receiver, or to its record. -/
theorem messagesArrive : Obligations.MessagesArrive := by
  unfold Obligations.MessagesArrive
  intro s n m awake d
  refine ⟨fun taken => ⟨fun free => ?_, fun p galley closed => ?_, ?_, fun r => ?_⟩,
    fun taken press i t c named receiver new => ?_,
    fun taken ready turn => ⟨fun j t c d' v memory named read => ?_, fun r ch port => ?_, fun host j t c named => ?_⟩,
    fun taken waits => ?_, fun c known granted uncommitted => ⟨fun taken => ?_, fun taken => ?_⟩⟩
  · rw [exec_chaseReserve, onDev_nextWith awake, doReserve, onMsg_ok taken, pastFrisket_open (d := d) free]
    rfl
  · rw [exec_chaseReserve, onDev_nextWith awake, doReserve, onMsg_ok taken, pastFrisket_closed (d := d) galley closed]
  · rw [exec_chaseReserve, onDev_nextWith awake, doReserve, onMsg_parity taken]
  · rw [exec_chaseReserve, onDev_nextWith awake, doReserve, onMsg_misrouted taken]
  · intro c' d' t' named'
    rw [exec_chaseGrant, onDev_nextWith awake, doGrant, onMsg_ok taken, grantAtSender_notes press named receiver new]
    exact ⟨fun waits => congrArg (nextWith s) (sendChunk_waits named' waits),
      fun d2 v push unsent granted source read =>
        congrArg (nextWith s) (sendChunk_sends named' push unsent granted source read)⟩
  · have free p (galley : epOf m.dst = .galley p) : fenced s.dev p = false := by
      obtain ⟨f, h | h | h | ⟨h, opened⟩⟩ := memory
      · rw [h] at galley; cases galley
      · rw [h] at galley; cases galley
      · rw [h] at galley; cases galley
      · obtain rfl : f = p := by rw [h] at galley; injection galley
        exact opened
    have store : memoryEp (epOf m.dst) = true := by
      obtain ⟨f, h | h | h | ⟨h, _⟩⟩ := memory
      all_goals rw [h]; rfl
    rw [exec_chaseRead, onDev_nextWith awake, doRead_takes taken ready turn free, readAtSource_memory store,
      serveRead_sends named read]
  · have free p (galley : epOf m.dst = .galley p) : fenced s.dev p = false := by
      obtain ⟨h, _⟩ | ⟨h, _⟩ := port
      · rw [h] at galley; cases galley
      · rw [h] at galley; cases galley
    rw [exec_chaseRead, onDev_nextWith awake, doRead_takes taken ready turn free, readAtSource]
    obtain ⟨h, rfl⟩ | ⟨h, rfl⟩ := port
    · rw [h]
      rfl
    · rw [h]
      rfl
  · have free p (galley : epOf m.dst = .galley p) : fenced s.dev p = false := by
      rw [host] at galley
      cases galley
    rw [exec_chaseRead, onDev_nextWith awake, doRead_takes taken ready turn free, readAtSource, host]
    exact congrArg (nextWith s) (hostPull_reads named)
  · rw [exec_chaseRead, onDev_nextWith awake, doRead_waits taken waits]
  · rw [exec_chaseData, onDev_nextWith awake, doData, onMsg_ok taken, dataAtReceiver_keeps known granted uncommitted]
  · rw [exec_chaseEnd, onDev_nextWith awake, doEnd, onMsg_ok taken, endAtReceiver_keeps known granted uncommitted]

/-! ## ACK at the sender (R256, R272) -/

section Ack
variable {d : Device} {m : ChaseMsg} {i : Nat} {t : Transfer} {c : TxChunk} (press : m.dst < 0xB0)
  (named : findTx d m.dst m.tag = some (i, t, c)) (receiver : m.src ∈ chunkRcvrs d t c) (new : m.src ∉ c.acks)
  (sent : c.sent = true)
include press named receiver new sent

/-- A sender of this part takes the ACK of a receiver of a chunk that it has sent. -/
theorem ackAtSender_takes : ackAtSender m d =
    if !m.good then faultTally m.dst t c m.src d
    else
      let acks := c.acks ++ [m.src]
      let d' := modChunk m.dst i c.tag (fun c => { c with acks := acks }) d
      if (chunkRcvrs d' t c).all acks.contains then chunkDone m.dst i c c.tally d' else d' := by
  have takes : (!(chunkRcvrs d t c).contains m.src || c.acks.contains m.src || !c.sent) = false := by
    simp [receiver, new, sent]
  rw [ackAtSender, if_neg (by omega), named]
  simp only [takes]
  rfl

theorem ackAtSender_bad (bad : m.good = false) : ackAtSender m d = faultTally m.dst t c m.src d := by
  rw [ackAtSender_takes press named receiver new sent, bad]
  rfl

theorem ackAtSender_good (good : m.good = true) : ackAtSender m d =
    let acks := c.acks ++ [m.src]
    let d' := modChunk m.dst i c.tag (fun c => { c with acks := acks }) d
    if (chunkRcvrs d' t c).all acks.contains then chunkDone m.dst i c c.tally d' else d' := by
  rw [ackAtSender_takes press named receiver new sent, good]
  rfl

end Ack

/-! ## CHUNK_COMMIT (R271, R272, R311, R410, R474) -/

/-- A chunk's endpoint has a memory that takes the chunk now. -/
def takesCommit (d : Device) (c : RxChunk) : Prop :=
  ∃ f, epOf c.dst = .case f ∨ epOf c.dst = .comp f ∨ epOf c.dst = .galley f ∧ (press d f).chaseSide = true
    ∨ epOf c.dst = .hbm f ∧ (stack d f).state = .ready ∧ hbmWaits d c.addr c.len = false

section Commit
variable {d : Device} {n : Nat} {c : RxChunk} {v : List Byte}

section Ready
variable (named : d.chase.rx[n]? = some c) (ready : commitReady c = true) (bytes : rxBytes c = some v)
include named ready bytes

theorem doChunkCommit_memory (takes : takesCommit d c) : doChunkCommit n d = commitMem c v d := by
  obtain ⟨f, h | h | ⟨h, side⟩ | ⟨h, stackReady, free⟩⟩ := takes
  · simp [doChunkCommit, named, ready, bytes, h]
  · simp [doChunkCommit, named, ready, bytes, h]
  · simp [doChunkCommit, named, ready, bytes, h, side]
  · simp [doChunkCommit, named, ready, bytes, h, stackReady, free]

theorem doChunkCommit_port {r ch : Nat} (port : epOf c.dst = .region r ∧ ch = 0 ∨ epOf c.dst = .quad r ∧ ch = 1) :
    doChunkCommit n d = commitPort r ch c v d := by
  obtain ⟨h, rfl⟩ | ⟨h, rfl⟩ := port
  · simp [doChunkCommit, named, ready, bytes, h]
  · simp [doChunkCommit, named, ready, bytes, h]

theorem doChunkCommit_host (host : epOf c.dst = .host) (linked : d.host.linkUp = true)
    (master : d.host.busMaster = true) :
    doChunkCommit n d = commitHost c v d := by
  simp [doChunkCommit, named, ready, bytes, host, linked, master]

end Ready

/-- The memory and the address of a piece whose bank is blocked (R311). -/
def blockedPiece (d : Device) (c : RxChunk) (av : Nat × List Byte) : Option (MemId × Nat) :=
  match epMem d (epOf c.dst) av.1 with
  | some (id, a) => if memBlocked d id a av.2.length then some (id, a) else none
  | none => none

/-- Pieces with a memory whose bank is not blocked. -/
theorem blockedPiece_eq_none {ps : List (Nat × List Byte)}
    (free : ∀ av ∈ ps, ∃ ia, epMem d (epOf c.dst) av.1 = some ia ∧ memBlocked d ia.1 ia.2 av.2.length = false) :
    ∀ av ∈ ps, blockedPiece d c av = none := by
  intro av mem
  obtain ⟨ia, memory, unblocked⟩ := free av mem
  rw [blockedPiece, memory]
  exact if_neg (by simp [unblocked])

/-- The pieces of a chunk are written into its endpoint's memory in order. -/
def writePieces (c : RxChunk) (ps : List (Nat × List Byte)) (d : Device) : Device :=
  ps.foldl (fun d av =>
    match epMem d (epOf c.dst) av.1 with
    | some (id, a) => writeMem id a av.2 (if c.forron then 3 else 2) (some c.stream)
        (some (writerOf d c.slot (if c.forron then 3 else 2) (some c.stream) (rxCtx d c))) d
    | none => d) d

/-- A commit to a memory turns on the first piece with a blocked bank. -/
theorem commitMem_eq (c : RxChunk) (v : List Byte) (d : Device) : commitMem c v d =
    match (commitPieces c v).findSome? (blockedPiece d c) with
    | some (id, a) => faultBlocked c.slot id a (if c.forron then 3 else 2) (some c.stream) (rxCtx d c) (freeRx c d)
    | none => committed c (tally v) (writePieces c (commitPieces c v) d) := rfl

theorem commitMem_writes (free : ∀ av ∈ commitPieces c v, blockedPiece d c av = none) :
    commitMem c v d = committed c (tally v) (writePieces c (commitPieces c v) d) := by
  rw [commitMem_eq, List.findSome?_eq_none_iff.mpr free]

theorem commitMem_blocked {before after : List (Nat × List Byte)} {av : Nat × List Byte} {ia : MemId × Nat}
    (pieces : commitPieces c v = before ++ av :: after) (free : ∀ x ∈ before, blockedPiece d c x = none)
    (blocked : blockedPiece d c av = some ia) :
    commitMem c v d =
      faultBlocked c.slot ia.1 ia.2 (if c.forron then 3 else 2) (some c.stream) (rxCtx d c) (freeRx c d) := by
  have first : (commitPieces c v).findSome? (blockedPiece d c) = some ia := by
    rw [pieces, List.findSome?_append, List.findSome?_eq_none_iff.mpr free, List.findSome?_cons, blocked]
    rfl
  rw [commitMem_eq, first]

theorem commitHost_writes {j : Nat} {t : Transfer} {x : TxChunk} (named : findTx d c.init c.tag = some (j, t, x)) :
    commitHost c v d = committed c (tally v) ((hostRequests (t.host + x.off) v.length).foldl (fun d r =>
      emit (.hostWrite r.1 ((v.drop (r.1 - (t.host + x.off))).take r.2)) d) d) := by
  simp only [commitHost, named]

end Commit

/-- Settles O34: an ACK by whether it is good, a commit by what its endpoint is and whether a piece of it is blocked. -/
theorem chunksComplete : Obligations.ChunksComplete := by
  unfold Obligations.ChunksComplete
  intro s n awake
  refine ⟨fun m => ?_, fun c v named ready bytes => ?_⟩
  · intro d
    refine ⟨fun taken press i t c named receiver new sent => ?_, fun taken => ?_⟩
    · rw [exec_chaseAck, onDev_nextWith awake, doAck, onMsg_ok taken]
      exact ⟨fun bad => congrArg (nextWith s) (ackAtSender_bad press named receiver new sent bad),
        fun good => congrArg (nextWith s) (ackAtSender_good press named receiver new sent good)⟩
    · rw [exec_chaseCancel, onDev_nextWith awake, doCancel, onMsg_ok taken]
      rfl
  · rw [exec_chunkCommit, onDev_nextWith awake]
    intro d
    refine ⟨fun takes free => ?_, fun takes before av after ia pieces free memory blocked => ?_, fun r ch port => ?_,
      fun host linked master j t x known => ?_⟩
    · rw [doChunkCommit_memory named ready bytes takes, commitMem_writes (blockedPiece_eq_none free)]
      rfl
    · have piece : blockedPiece d c av = some ia := by
        rw [blockedPiece, memory]
        exact if_pos blocked
      rw [doChunkCommit_memory named ready bytes takes, commitMem_blocked pieces (blockedPiece_eq_none free) piece]
    · rw [doChunkCommit_port named ready bytes port, commitPort]
    · rw [doChunkCommit_host named ready bytes host linked master, commitHost_writes known]

/-! ## The HBM window (R308, R310, R314, R471, R472) -/

theorem onLink_busy {d : Device} (busy : linkBusy d = true) (r : LinkReq) (g : Device → Device) :
    onLink r g d = holdLink r d :=
  if_pos busy

theorem onLink_free {d : Device} (free : linkBusy d = false) (r : LinkReq) (g : Device → Device) :
    onLink r g d = g d := by
  rw [onLink, free]
  rfl

theorem fnServes_eq_true {d : Device} {fn : FnId} (linked : d.host.linkUp = true)
    (inService : bit d.host.flr (fnIndex fn) = false) : fnServes d fn = true := by
  rw [fnServes, linked, inService]
  rfl

theorem hostWrite_poisoned {d : Device} {fn : FnId} (serves : fnServes d fn = true) (g : Device → Device) :
    hostWrite fn true g d = logHost 0x0707 (notePoison fn d) := by
  rw [hostWrite, serves]
  rfl

section Window
variable {d : Device} {o : BitVec 36}

theorem doWindowRead_reads (linked : d.host.linkUp = true) (inService : bit d.host.flr 1 = false) (n : Nat) :
    doWindowRead o none n d = windowReadAt o (windowAddr d o) n d := by
  rw [doWindowRead, linked, inService]
  rfl

theorem doWindowWrite_writes (serves : fnServes d .pf1 = true) (v : List Byte) :
    doWindowWrite o none v false d = windowWriteAt o (windowAddr d o) v d := by
  rw [doWindowWrite, hostWrite_clean, serves]
  rfl

section Answer
variable {a n : Nat} {d' : Device} {v : List Byte}

theorem windowAnswer_retired (retired : hbmRetired d a n = true) :
    windowAnswer a n d = completePoisoned .pf1 n (logRetired (retiredAt d a n) 5 d) :=
  if_pos retired

variable (sound : hbmRetired d a n = false)
include sound

theorem windowAnswer_data (read : readHbm a n 5 none (noteRead a n 5 none d) = (d', v, none)) :
    windowAnswer a n d = complete .pf1 (.data v) d' := by
  simp [windowAnswer, sound, read]

theorem windowAnswer_bad {id : MemId} {e : MemEv}
    (read : readHbm a n 5 none (noteRead a n 5 none d) = (d', v, some (id, e))) :
    windowAnswer a n d = completePoisoned .pf1 n (logStored id 5 none e d') := by
  simp [windowAnswer, sound, read]

end Answer

section State
variable {a : Nat}

theorem windowReadAt_waits {n : Nat} (waits : windowState d a n = .waits) :
    windowReadAt o a n d = holdLink (.windowRead o (some a) n) d := by
  rw [windowReadAt, waits]

theorem windowReadAt_beyond {n : Nat} (beyond : windowState d a n = .beyond) :
    windowReadAt o a n d = complete .pf1 .abort (logHost 0x0708 d) := by
  rw [windowReadAt, beyond]

theorem windowReadAt_filling {n : Nat} (filling : windowState d a n = .filling) :
    windowReadAt o a n d = complete .pf1 .abort (logNotReady a d) := by
  rw [windowReadAt, filling]

theorem windowReadAt_ready {n : Nat} (ready : windowState d a n = .ready) :
    windowReadAt o a n d = windowAnswer a n (windowServices a n d) := by
  rw [windowReadAt, ready]

theorem windowWriteAt_waits {v : List Byte} (waits : windowState d a v.length = .waits) :
    windowWriteAt o a v d = holdLink (.windowWrite o (some a) v false) d := by
  rw [windowWriteAt, waits]

theorem windowWriteAt_ready {v : List Byte} (ready : windowState d a v.length = .ready) :
    windowWriteAt o a v d = windowPieces a v (windowServices a v.length d) := by
  rw [windowWriteAt, ready]

end State

end Window

section Requests
variable {s : State} (awake : asleep s.dev = false)
include awake

theorem exec_hbmWindowRead_busy (busy : linkBusy s.dev = true) (o : BitVec 36) (n : BitVec 13) :
    exec (.hbmWindowRead o n) s = nextWith s (holdLink (.windowRead o none n.toNat) s.dev) := by
  rw [exec_hbmWindowRead, onDev_nextWith awake, onLink_busy busy]

theorem exec_hbmWindowWrite_busy (busy : linkBusy s.dev = true) (o : BitVec 36) (v : List Byte) (b : Bool) :
    exec (.hbmWindowWrite o v b) s = nextWith s (holdLink (.windowWrite o none v b) s.dev) := by
  rw [exec_hbmWindowWrite, onDev_nextWith awake, onLink_busy busy]

variable (free : linkBusy s.dev = false)
include free

theorem exec_hbmWindowRead_free (linked : s.dev.host.linkUp = true) (inService : bit s.dev.host.flr 1 = false)
    (o : BitVec 36) (n : BitVec 13) :
    exec (.hbmWindowRead o n) s = nextWith s (windowReadAt o (windowAddr s.dev o) n.toNat s.dev) := by
  rw [exec_hbmWindowRead, onDev_nextWith awake, onLink_free free, doWindowRead_reads linked inService]

theorem exec_hbmWindowWrite_free (serves : fnServes s.dev .pf1 = true) (o : BitVec 36) (v : List Byte) :
    exec (.hbmWindowWrite o v false) s = nextWith s (windowWriteAt o (windowAddr s.dev o) v s.dev) := by
  rw [exec_hbmWindowWrite, onDev_nextWith awake, onLink_free free, doWindowWrite_writes serves]

theorem exec_hbmWindowWrite_poisoned (serves : fnServes s.dev .pf1 = true) (o : BitVec 36) (v : List Byte) :
    exec (.hbmWindowWrite o v true) s = nextWith s (logHost 0x0707 (notePoison .pf1 s.dev)) := by
  rw [exec_hbmWindowWrite, onDev_nextWith awake, onLink_free free, doWindowWrite, hostWrite_poisoned serves]

end Requests

/-! ## The user window (R473) -/

section User
variable {d : Device} {o : BitVec 28}

section Read
variable (linked : d.host.linkUp = true) (inService : bit d.host.flr 2 = false)
include linked inService

theorem doUserRead_asks {len : Nat} (configured : userOk d (userRegion o) = true) (fits : len ≤ 512) :
    doUserRead o len d = modPort (userRegion o) (fun x => { x with reads := x.reads ++
      [{ origin := .user d.host.userNext, chan := 0, stream := 0xFFF, addr := userOffset o / 64 * 64,
         units := max 1 ((userOffset o % 64 + len + 63) / 64) }] })
      (addUser ⟨d.host.userNext, userRegion o, userOffset o, len, false, [], d.now⟩ d) := by
  simp [doUserRead, linked, inService, configured, Nat.not_lt.mpr fits]

theorem doUserRead_aborts (absent : userOk d (userRegion o) = false) (len : Nat) :
    doUserRead o len d = complete .pf2 .abort (logHost 0x070A d) := by
  simp [doUserRead, linked, inService, absent]

end Read

section Write
variable (serves : fnServes d .pf2 = true) (v : List Byte)
include serves

theorem doUserWrite_passes (configured : userOk d (userRegion o) = true) (aligned : userOffset o % 64 = 0)
    (whole : v.length % 64 = 0) (nonempty : v ≠ []) :
    doUserWrite o v false d = modPort (userRegion o) (fun x => { x with pushes := x.pushes ++
      [{ origin := .user d.host.userNext, chan := 0, stream := 0xFFF, addr := userOffset o, data := v }] })
      (addUser ⟨d.host.userNext, userRegion o, userOffset o, v.length, true, v, d.now⟩ d) := by
  simp [doUserWrite, serves, configured, aligned, whole, nonempty]

theorem doUserWrite_poisoned : doUserWrite o v true d = logHost 0x0707 (notePoison .pf2 d) := by
  simp [doUserWrite, serves, poisonedWrite]

theorem doUserWrite_refuses (absent : userOk d (userRegion o) = false) :
    doUserWrite o v false d = logHost 0x070A d := by
  simp [doUserWrite, serves, absent]

end Write

section Timeout
variable {i : Nat} {q : UserReq} (named : d.host.user[i]? = some q)
include named

theorem doUserTimeout_before (early : d.now < q.arrived + 4096) : doUserTimeout i d = d := by
  simp only [doUserTimeout, named, Nat.not_le.mpr early, if_false]

theorem doUserTimeout_withdraws (due : q.arrived + 4096 ≤ d.now) : doUserTimeout i d =
    let d' := logHost 0x0709 (withdrawUser q (dropUser q.serial d))
    if q.write then d' else complete .pf2 .abort d' := by
  simp only [doUserTimeout, named, due, if_true]

end Timeout

end User

/-! ## Completions of pulls (R474 to R476, R595) -/

section Pull
variable {d : Device} {i : Nat} {m : ChaseMsg} (named : d.chase.hostPulls[i]? = some m)
include named

/-- The pull that a completion answers is outstanding no more. -/
theorem doHostCompletion_failed : doHostCompletion i .failed d
    = pullFails m (modChase (fun c => { c with hostPulls := removeAt c.hostPulls i }) d) := by
  simp only [doHostCompletion, named]

theorem doHostCompletion_poisoned : doHostCompletion i .poisoned d
    = pullFails m (notePoison .pf1 (modChase (fun c => { c with hostPulls := removeAt c.hostPulls i }) d)) := by
  simp only [doHostCompletion, named]

theorem doHostCompletion_data {v : List Byte} {x : Nat × Transfer × TxChunk} (whole : v.length = m.len)
    (known : findTx (modChase (fun c => { c with hostPulls := removeAt c.hostPulls i }) d) m.init m.tag = some x) :
    doHostCompletion i (.data v) d = sendFlits m.dst [m.rcv] m.tag m.stream m.slot m.init v
      (modChase (fun c => { c with hostPulls := removeAt c.hostPulls i }) d) := by
  simp [doHostCompletion, named, whole, known]

end Pull

/-- Settles O48: a window request by the link and by what its window's state answers, a completion by its result. -/
theorem windowsAndPulls : Obligations.WindowsAndPulls := by
  unfold Obligations.WindowsAndPulls
  intro s awake d
  refine ⟨fun busy => ⟨?_, ?_, ?_, ?_⟩, fun linked free => ⟨fun inService => ⟨fun o n => ?_, fun o v => ⟨?_, ?_⟩⟩,
    fun inService o => ?_⟩, fun i q named => ⟨fun early => ?_, fun due => ?_⟩, fun i m named => ?_⟩
  · exact exec_hbmWindowRead_busy awake busy
  · exact exec_hbmWindowWrite_busy awake busy
  · exact fun o l => onHost_busy awake busy (.userWindowRead o l) _
  · exact fun o v b => onHost_busy awake busy (.userWindowWrite o v b) _
  · intro a
    rw [exec_hbmWindowRead_free awake free linked inService]
    refine ⟨fun waits => ?_, fun beyond => ?_, fun filling => ?_, fun ready => ?_⟩
    · rw [windowReadAt_waits waits]
    · rw [windowReadAt_beyond beyond]
    · rw [windowReadAt_filling filling]
    · rw [windowReadAt_ready ready]
      exact ⟨fun retired => congrArg (nextWith s) (windowAnswer_retired retired),
        fun sound d' v => ⟨fun read => congrArg (nextWith s) (windowAnswer_data sound read),
          fun id e read => congrArg (nextWith s) (windowAnswer_bad sound read)⟩⟩
  · exact exec_hbmWindowWrite_poisoned awake free (fnServes_eq_true linked inService) o v
  · intro a
    rw [exec_hbmWindowWrite_free awake free (fnServes_eq_true linked inService)]
    exact ⟨fun waits => congrArg (nextWith s) (windowWriteAt_waits waits),
      fun ready => congrArg (nextWith s) (windowWriteAt_ready ready)⟩
  · intro r f n
    have serves : fnServes d .pf2 = true := fnServes_eq_true linked inService
    refine ⟨fun l configured fits => ?_, fun l absent => ?_, fun v configured aligned whole nonempty => ?_, fun v => ?_,
      fun v absent => ?_⟩
    · rw [exec_userWindowRead, onHost_free awake free, doUserRead_asks linked inService configured fits]
    · rw [exec_userWindowRead, onHost_free awake free, doUserRead_aborts linked inService absent]
    · rw [exec_userWindowWrite, onHost_free awake free, doUserWrite_passes serves v configured aligned whole nonempty]
    · rw [exec_userWindowWrite, onHost_free awake free, doUserWrite_poisoned serves]
    · rw [exec_userWindowWrite, onHost_free awake free, doUserWrite_refuses serves v absent]
  · rw [exec_userWindowTimeout, onDev_nextWith awake, doUserTimeout_before named early]
  · rw [exec_userWindowTimeout, onDev_nextWith awake, doUserTimeout_withdraws named due]
  · intro d'
    refine ⟨?_, ?_, fun v x whole known => ?_⟩
    · rw [exec_hostReadCompletion, onDev_nextWith awake, doHostCompletion_failed named]
    · rw [exec_hostReadCompletion, onDev_nextWith awake, doHostCompletion_poisoned named]
    · rw [exec_hostReadCompletion, onDev_nextWith awake, doHostCompletion_data named whole known]

end Sys2Proof.Machine
end

section
/-!
PROOFS of the family 08_memory_and_stored_data: whole blocks of a protected memory and their reads, requests to the HBM stacks,
coalescing, command parity and fills, and the dispatch of LINKs with the next chunk of a Forron sender. The lemmas that say
what each operation does stand before the obligation that is assembled from them.
-/
namespace Sys2Proof.Machine

/-! ## Bytes and the number they spell -/

theorem leNat_lt_pow_length (l : List Byte) : leNat l < 256 ^ l.length := by
  induction l with
  | nil => exact Nat.one_pos
  | cons b r ih =>
    have byte := b.isLt
    simp only [leNat, List.length_cons, Nat.pow_succ]
    omega

theorem leBytes_length_leNat (l : List Byte) : leBytes l.length (leNat l) = l := by
  induction l with
  | nil => rfl
  | cons b r ih =>
    have byte := b.isLt
    have low : BitVec.ofNat 8 (b.toNat + 256 * leNat r) = b :=
      BitVec.eq_of_toNat_eq (by rw [BitVec.toNat_ofNat]; omega)
    have high : (b.toNat + 256 * leNat r) / 256 = leNat r := by omega
    rw [leNat, List.length_cons, leBytes, low, high, ih]

/-- The 32 bytes of a block are those of the number that they spell. -/
theorem leBytes_blockNumber {v : List Byte} (block : v.length = 32) :
    leBytes 32 (BitVec.ofNat 256 (leNat v)).toNat = v := by
  have fits : leNat v < 2 ^ 256 := by
    have := leNat_lt_pow_length v
    rwa [block] at this
  rw [BitVec.toNat_ofNat, Nat.mod_eq_of_lt fits, ← block, leBytes_length_leNat]

theorem memBytes_length (m : Mem) (a n : Nat) : (memBytes m a n).length = n := by
  simp [memBytes, rangeFrom]

theorem memBytes_getElem {m : Mem} {a n i : Nat} (h : i < (memBytes m a n).length) :
    (memBytes m a n)[i] = memByte m (a + i) := by
  simp [memBytes, rangeFrom, Nat.add_comm]

theorem memBytes_add (m : Mem) (a n k : Nat) : memBytes m a (n + k) = memBytes m a n ++ memBytes m (a + n) k := by
  simp [memBytes, rangeFrom, List.range_add, Nat.add_comm, Nat.add_left_comm]

/-! ## Writing whole blocks (R302, R303) -/

/-- The memory after a whole block has been written: a new check word, and no narrow write of the block left. -/
def writeBlock (m : Mem) (b : Nat) (v : List Byte) : Mem :=
  putBlock { m with merge := m.merge.filter (fun e => decide (e.block ≠ b)) } b (BitVec.ofNat 256 (leNat v))

theorem writeOne_whole (m : Mem) (b off : Nat) {v : List Byte} (block : v.length = 32) :
    writeOne m b off v = (writeBlock m b v, []) :=
  if_pos block

theorem writeBlock_wf {m : Mem} (b : Nat) (v : List Byte) (h : m.wf = true) : (writeBlock m b v).wf = true :=
  putBlock_wf _ _ (wf_merge h (Nat.le_trans (List.length_filter_le _ _) ((Mem.wf_iff m).1 h).2.2))

section Block
variable {m : Mem} (canonical : m.wf = true)
include canonical

theorem writeBlock_byte {v : List Byte} (block : v.length = 32) (b a : Nat) : memByte (writeBlock m b v) a =
    if 32 * b ≤ a ∧ a < 32 * b + 32 then v.getD (a - 32 * b) 0 else memByte m a := by
  have bytes : smapWf 0 m.bytes = true := ((Mem.wf_iff m).1 canonical).1
  rw [memByte, writeBlock, putBlock, leBytes_blockNumber block, rawPut_get _ _ _ bytes, block]
  rfl

theorem writeBlock_syn (b : Nat) (v : List Byte) (j : Nat) :
    smapGet 0 (writeBlock m b v).syn j = if j = b then 0 else smapGet 0 m.syn j :=
  smapGet_set b j 0 ((Mem.wf_iff m).1 canonical).2.1

end Block

/-- The memory after `k` whole blocks from block `b` have been written. -/
def writeBlocks : Nat → Mem → Nat → List Byte → Mem
  | 0, m, _, _ => m
  | k + 1, m, b, v => writeBlocks k (writeBlock m b (v.take 32)) (b + 1) (v.drop 32)

/-- A write of whole blocks writes one after the other, and meets no error. -/
theorem writeFrom_blocks {fuel k : Nat} (enough : k ≤ fuel) (m : Mem) (b : Nat) {v : List Byte}
    (whole : v.length = 32 * k) : writeFrom fuel m (32 * b) v = (writeBlocks k m b v, []) := by
  induction k generalizing fuel m b v with
  | zero =>
    rw [List.eq_nil_of_length_eq_zero whole]
    cases fuel <;> rfl
  | succ k ih =>
    obtain ⟨fuel, rfl⟩ := Nat.exists_eq_add_of_le' (Nat.le_trans (Nat.le_add_left 1 k) enough)
    obtain ⟨x, r, rfl⟩ := List.exists_cons_of_length_pos (l := v) (by omega)
    have first : ((x :: r).take 32).length = 32 := by rw [List.length_take, whole]; omega
    have rest : ((x :: r).drop 32).length = 32 * k := by rw [List.length_drop, whole]; omega
    have start : 32 * b % 32 = 0 := Nat.mul_mod_right 32 b
    have index : 32 * b / 32 = b := Nat.mul_div_cancel_left b (by decide)
    simp only [writeFrom, start, index, Nat.sub_zero, writeOne_whole m b 0 first]
    rw [← Nat.mul_succ, ih (Nat.le_of_succ_le_succ enough) _ _ rest]
    rfl

theorem memWrite_blocks (m : Mem) (b : Nat) {k : Nat} {v : List Byte} (whole : v.length = 32 * k) :
    memWrite m (32 * b) v = (writeBlocks k m b v, []) :=
  writeFrom_blocks (by omega) m b whole

theorem writeBlocks_merge (k : Nat) (m : Mem) (b : Nat) (v : List Byte) : (writeBlocks k m b v).merge =
    m.merge.filter (fun e => !(decide (b ≤ e.block) && decide (e.block < b + k))) := by
  induction k generalizing m b v with
  | zero =>
    rw [writeBlocks, List.filter_eq_self.mpr]
    intro e _
    simpa using Nat.lt_or_ge e.block b
  | succ k ih =>
    rw [writeBlocks, ih]
    simp only [writeBlock, putBlock, List.filter_filter]
    refine List.filter_congr fun e _ => Bool.eq_iff_iff.mpr ?_
    simp only [Bool.and_eq_true, Bool.not_eq_true', Bool.and_eq_false_iff, decide_eq_true_eq, decide_eq_false_iff_not]
    omega

theorem writeBlocks_syn (k : Nat) {m : Mem} (canonical : m.wf = true) (b : Nat) (v : List Byte) (j : Nat) :
    smapGet 0 (writeBlocks k m b v).syn j = if b ≤ j ∧ j < b + k then 0 else smapGet 0 m.syn j := by
  induction k generalizing m b v with
  | zero => exact (if_neg (by omega)).symm
  | succ k ih =>
    rw [writeBlocks, ih (writeBlock_wf b _ canonical), writeBlock_syn canonical]
    by_cases h : j = b
    · rw [if_pos h, ite_self, if_pos (by omega)]
    · rw [if_neg h]
      exact ite_congr (propext (by omega)) (fun _ => rfl) fun _ => rfl

theorem writeBlocks_byte {k : Nat} {m : Mem} (canonical : m.wf = true) (b : Nat) {v : List Byte}
    (whole : v.length = 32 * k) (a : Nat) : memByte (writeBlocks k m b v) a =
      if 32 * b ≤ a ∧ a < 32 * (b + k) then v.getD (a - 32 * b) 0 else memByte m a := by
  induction k generalizing m b v with
  | zero => exact (if_neg (by omega)).symm
  | succ k ih =>
    have first : (v.take 32).length = 32 := by rw [List.length_take, whole]; omega
    have rest : (v.drop 32).length = 32 * k := by rw [List.length_drop, whole]; omega
    rw [writeBlocks, ih (writeBlock_wf b _ canonical) (b + 1) rest, writeBlock_byte canonical first]
    by_cases later : 32 * (b + 1) ≤ a ∧ a < 32 * (b + 1 + k)
    · have offset : 32 + (a - 32 * (b + 1)) = a - 32 * b := by omega
      rw [if_pos later, if_pos (by omega), List.getD_eq_getElem?_getD, List.getElem?_drop, offset,
        List.getD_eq_getElem?_getD]
    · rw [if_neg later]
      by_cases here : 32 * b ≤ a ∧ a < 32 * b + 32
      · rw [if_pos here, if_pos (by omega), List.getD_eq_getElem?_getD, List.getElem?_take_of_lt (by omega),
          List.getD_eq_getElem?_getD]
      · rw [if_neg here, if_neg (by omega)]

theorem writeBlocks_bytes {k : Nat} {m : Mem} (canonical : m.wf = true) (b : Nat) {v : List Byte}
    (whole : v.length = 32 * k) : memBytes (writeBlocks k m b v) (32 * b) (32 * k) = v := by
  refine List.ext_getElem (by rw [memBytes_length, whole]) fun i inside bound => ?_
  rw [memBytes_getElem, writeBlocks_byte canonical b whole, if_pos (by omega), Nat.add_sub_cancel_left,
    List.getD_eq_getElem?_getD, List.getElem?_eq_getElem bound, Option.getD_some]

/-! ## Reading whole blocks that hold no error (R300) -/

theorem flushWhere_none {p : MergeEntry → Bool} {m : Mem} (unpicked : ∀ e ∈ m.merge, p e = false) :
    flushWhere p m = (m, []) := by
  have go : m.merge.filter p = [] := List.filter_eq_nil_iff.mpr fun e he => by simp [unpicked e he]
  have kept : m.merge.filter (fun e => !p e) = m.merge := List.filter_eq_self.mpr fun e he => by simp [unpicked e he]
  rw [flushWhere, go, kept]
  rfl

theorem judgeSyndrome_zero : judgeSyndrome 0 = .good := by decide

theorem readBlock_good {m : Mem} {b : Nat} (good : smapGet 0 m.syn b = 0) (flush : Bool) :
    readBlock m b flush = (memBlock m b, []) := by
  simp only [readBlock, good, judgeSyndrome_zero]

/-- A fold whose every step adds one item at the front of its list. -/
theorem foldl_collects {α β γ : Type} {f : List β × List γ → α → List β × List γ} {g : α → β} {l : List α}
    (step : ∀ a ∈ l, ∀ r, f (r, []) a = (g a :: r, [])) (r : List β) :
    l.foldl f (r, []) = ((l.map g).reverse ++ r, []) := by
  induction l generalizing r with
  | nil => rfl
  | cons a l ih =>
    rw [List.foldl_cons, step a List.mem_cons_self, ih fun x hx => step x (List.mem_cons_of_mem a hx)]
    simp

theorem flatten_memBytes_blocks (m : Mem) (b k : Nat) :
    ((rangeFrom b k).map fun j => memBytes m (32 * j) 32).flatten = memBytes m (32 * b) (32 * k) := by
  induction k with
  | zero => rfl
  | succ k ih =>
    rw [Nat.mul_succ, memBytes_add, ← ih, ← Nat.mul_add]
    simp [rangeFrom, List.range_succ, Nat.add_comm]

/-- A read of whole blocks with right check words, for which no narrow write waits, delivers what they hold. -/
theorem memRead_blocks {m : Mem} {b k : Nat} (nonempty : 0 < k)
    (settled : ∀ e ∈ m.merge, (decide (b ≤ e.block) && decide (e.block < b + k)) = false)
    (good : ∀ j, b ≤ j → j < b + k → smapGet 0 m.syn j = 0) :
    memRead m (32 * b) (32 * k) = (m, memBytes m (32 * b) (32 * k), []) := by
  have first : 32 * b / 32 = b := Nat.mul_div_cancel_left b (by decide)
  have last : (32 * b + 32 * k - 1) / 32 = b + k - 1 := by omega
  have count : b + k - 1 + 1 - b = k := by omega
  have flushed : flushWhere (fun e => decide (b ≤ e.block) && decide (e.block ≤ b + k - 1)) m = (m, []) :=
    flushWhere_none fun e he => by
      rw [← settled e he]
      exact congrArg _ (decide_eq_decide.mpr (by omega))
  rw [memRead, if_neg (by omega)]
  simp only [first, last, flushed, count]
  split
  · rfl
  · rw [foldl_collects (g := fun j => memBytes m (32 * j) 32)]
    · simp [flatten_memBytes_blocks, List.take_of_length_le (Nat.le_of_eq (memBytes_length m _ _))]
    · intro j hj r
      obtain ⟨i, hi, rfl⟩ := List.mem_map.mp hj
      have inside := List.mem_range.mp hi
      simp only [readBlock_good (good (i + b) (by omega) (by omega)), memBlock,
        leBytes_blockNumber (memBytes_length m _ _)]
      rfl

/-- Settles O60: a write of whole blocks puts one block after the other, each with a right check word, and a read of blocks
with right check words delivers what they hold. -/
theorem memoryReadsBack : Obligations.MemoryReadsBack := by
  unfold Obligations.MemoryReadsBack
  intro m b k v canonical nonempty whole m'
  have wrote : m' = writeBlocks k m b v := congrArg Prod.fst (memWrite_blocks m b whole)
  refine ⟨memWrite_wf _ _ canonical, congrArg Prod.snd (memWrite_blocks m b whole), ?_, fun a outside => ?_, ?_⟩
  · rw [wrote, memRead_blocks nonempty, writeBlocks_bytes canonical b whole]
    · intro e he
      rw [writeBlocks_merge] at he
      exact Bool.not_eq_true' _ ▸ (List.mem_filter.mp he).2
    · intro j above below
      rw [writeBlocks_syn k canonical, if_pos ⟨above, below⟩]
  · rw [wrote, writeBlocks_byte canonical b whole, if_neg (by omega)]
  · rw [wrote, writeBlocks_merge]

/-! ## Requests to a stack (R287 to R289, R299, R300, R310) -/

section Request
variable {d : Device} {n : Nat} {r : HbmReq}

/-- The device as a request meets it: the bits of its unit that the array has inverted are inverted. -/
def flippedFor (n : Nat) (r : HbmReq) (d : Device) : Device :=
  modStack n (fun s => { s with mem := flipUnit s.mem r.unit.toNat r.flips }) d

/-- A request for a full queue is not accepted (R287). -/
theorem doHbmRequest_full (full : queueFull d n r.unit.toNat r.write.isSome = true) : doHbmRequest n r d = d := by
  simp [doHbmRequest, full]

section Accepted
variable (ready : (stack d n).state = .ready) (on : domainOn d (144 + n) = true)
  (room : queueFull d n r.unit.toNat r.write.isSome = false)
include ready on room

theorem doHbmRequest_retired (retired : unitRetired (flippedFor n r d) n r.unit.toNat = true) :
    doHbmRequest n r d = logPlain (unitStack n) 0x0512
      (sdDetail (flippedFor n r d) (.hbm n) (64 * r.unit.toNat) 0 0xFF 0 0 1 none) (flippedFor n r d) := by
  rw [flippedFor] at retired
  simp [doHbmRequest, ready, on, room, retired, flippedFor]

theorem doHbmRequest_served (sound : unitRetired (flippedFor n r d) n r.unit.toNat = false) :
    doHbmRequest n r d = serveHbm n r.unit.toNat r (flippedFor n r d) := by
  rw [flippedFor] at sound
  simp [doHbmRequest, ready, on, room, sound, flippedFor]

end Accepted

theorem serveHbm_write {v : BitVec 512} (write : r.write = some v) (u : Nat) :
    serveHbm n u r d = writeMem (.hbm n) (64 * u) (leBytes 64 v.toNat) 0xFF none none d := by
  rw [serveHbm, write]

section Read
variable {u : Nat} {d' : Device} {v : List Byte} (read : r.write = none)
include read

theorem serveHbm_read
    (answer : readMem (.hbm n) (64 * u) 64 0xFF none (noteHbm (.hbm n) (64 * u) 64 false 0xFF none d) = (d', v, none)) :
    serveHbm n u r d = d' := by
  simp only [serveHbm, read, answer]

/-- What the mending stage cannot mend is logged (R300). -/
theorem serveHbm_read_bad {e : MemEv}
    (answer : readMem (.hbm n) (64 * u) 64 0xFF none (noteHbm (.hbm n) (64 * u) 64 false 0xFF none d)
      = (d', v, some e)) : serveHbm n u r d = logStored (.hbm n) 0xFF none e d' := by
  simp only [serveHbm, read, answer]

end Read

end Request

/-! ## Coalescing tables and the bucket (R305, R307) -/

section Coalescing
variable {d : Device} {u : CoalesceUnit} {i : Nat} {e : CoalEntry} (named : (coalGet d (coalUnit u))[i]? = some e)
include named

/-- An entry 100 sheets old leaves its table, with its record unless the bucket is on. -/
theorem doCoalesceExpire_old (old : e.opened + 409600 ≤ d.now) : doCoalesceExpire u i d =
    let d' := coalSet (coalUnit u) (removeAt (coalGet d (coalUnit u)) i) d
    if d'.hbm.bucketOn then d' else coalExpire (coalUnit u) e d' := by
  have aged : coalOld d e = true := decide_eq_true old
  simp only [doCoalesceExpire, named, aged, if_true]

theorem doCoalesceExpire_young (young : ¬ e.opened + 409600 ≤ d.now) : doCoalesceExpire u i d = d := by
  have fresh : coalOld d e = false := decide_eq_false young
  simp [doCoalesceExpire, named, fresh]

end Coalescing

theorem doBucketLeak_due {d : Device} (on : d.hbm.bucketOn = true)
    (due : d.hbm.leaked + max 1 d.hbm.leakSheets.toNat ≤ d.sheet) : doBucketLeak d = modHbm (fun h =>
      { h with level := if h.level = 0 then 0 else h.level - 1, leaked := h.leaked + max 1 h.leakSheets.toNat }) d := by
  have leaks : leakDue d = true := by simp [leakDue, on, due]
  rw [doBucketLeak, if_pos leaks]

/-- HB_BUCKET_CTRL holds `v`, and the bucket the given level, which last leaked at the sheet `leaked`. -/
def bucketSet (v : Word) (level : BitVec 16) (leaked : Nat) (d : Device) : Device :=
  modHbm (fun h => { h with bucketOn := bit v 31, leakSheets := field v 27 16, threshold := field v 15 0,
                            leaked := leaked, level := level }) d

theorem doBucketCtrl_on {v : Word} (on : bit v 31 = true) (d : Device) : doBucketCtrl v d =
    bucketSet v d.hbm.level (if d.hbm.bucketOn then d.hbm.leaked else d.sheet) d := by
  simp only [doBucketCtrl, bucketSet, on]
  cases d.hbm.bucketOn <;> rfl

theorem doBucketCtrl_off {v : Word} (off : bit v 31 = false) (d : Device) : doBucketCtrl v d =
    if d.hbm.bucketOn then emptyTables (bucketSet v 0 d.hbm.leaked d) else bucketSet v d.hbm.level d.hbm.leaked d := by
  simp only [doBucketCtrl, bucketSet, off]
  cases d.hbm.bucketOn <;> rfl

/-! ## Temperature (R291) -/

theorem doHbmHot_notes {d : Device} {n : Nat} (present : stackPresent d.part n = true)
    (on : domainOn d (144 + n) = true) (hot : Bool) :
    doHbmHot n hot d = modStack n (fun s => { s with hot := hot }) d := by
  simp [doHbmHot, present, on]

/-- Settles O36: a request by its queue, its unit and its kind, and the other commands by their own conditions. -/
theorem stacksServe : Obligations.StacksServe := by
  unfold Obligations.StacksServe
  intro s n awake d
  refine ⟨fun r ready on => ?_, fun r full => ?_, fun u i e named => ?_, fun on due => ?_, fun free v => ?_,
    fun hot present on => ?_, fun free => ?_⟩
  · intro u room d'
    rw [exec_hbmRequest, onDev_nextWith awake]
    refine ⟨fun retired => ?_, fun sound => ?_⟩
    · exact congrArg (nextWith s) (doHbmRequest_retired ready on room retired)
    · rw [doHbmRequest_served ready on room sound]
      refine ⟨fun v write => congrArg (nextWith s) (serveHbm_write write u), fun read d2 v e answer => ?_⟩
      cases e with
      | none => exact congrArg (nextWith s) (serveHbm_read read answer)
      | some e => exact congrArg (nextWith s) (serveHbm_read_bad read answer)
  · rw [exec_hbmRequest, onDev_nextWith awake, doHbmRequest_full full]
  · rw [exec_coalesceExpire, onDev_nextWith awake]
    split
    next old => rw [doCoalesceExpire_old named old]
    next young => rw [doCoalesceExpire_young named young]
  · rw [exec_bucketLeak, onDev_nextWith awake, doBucketLeak_due on due]
  · intro w
    rw [exec_hbBucketCtrlWrite, onHost_free awake free]
    exact ⟨fun on => congrArg (nextWith s) (doBucketCtrl_on on d),
      fun off => congrArg (nextWith s) (doBucketCtrl_off off d)⟩
  · rw [exec_hbmHot, onDev_nextWith awake, doHbmHot_notes present on]
  · rw [exec_hbClearCounts, onHost_free awake free, doHbClearCounts]

/-! ## Command parity and replay (R296 to R298) -/

/-- An alert is an attempt of the replay before it: during it, or within 48 points of its end (R297). -/
theorem sameReplay_iff (now : Nat) (x : HbmBus) :
    sameReplay now x = true ↔ x.active = true ∨ ∃ t, x.lastEnd = some t ∧ now ≤ t + 48 := by
  rw [sameReplay, Bool.or_eq_true]
  cases x.lastEnd <;> simp

/-- An alert on a bus that is not training goes by the attempts that the replay it belongs to has made. -/
theorem doParityAlert_attempts {d : Device} {n b : Nat} (present : stackPresent d.part n = true)
    (on : domainOn d (144 + n) = true) (trained : (vgetN {} (stack d n).buses b).training = false) :
    doParityAlert n b d =
    let x := vgetN {} (stack d n).buses b
    let k := if x.active = true ∨ (∃ t, x.lastEnd = some t ∧ d.now ≤ t + 48) then x.attempts else 0
    if 3 ≤ k then escalateBus n b d else startReplay n b (k + 1) d := by
  simp only [doParityAlert, present, on, trained, ← sameReplay_iff]
  rfl

theorem doReplayDone_trained {d : Device} {n b : Nat} (training : (vgetN {} (stack d n).buses b).training = true) :
    doReplayDone n b d = resumeBus n b (modBus n b (fun x => { x with training := false }) d) := by
  rw [doReplayDone, if_pos training]

theorem doReplayDone_replayed {d : Device} {n b : Nat} (trained : (vgetN {} (stack d n).buses b).training = false)
    (active : (vgetN {} (stack d n).buses b).active = true) : doReplayDone n b d =
      resumeBus n b (modBus n b (fun x => { x with active := false, lastEnd := some d.now }) d) := by
  simp [doReplayDone, trained, active]

/-! ## Fills (R295, R313 to R315) -/

section Fills
variable {d : Device}

theorem wakingFill_modStack (n k : Nat) (g : Stack → Stack) : wakingFill (modStack n g d) k = wakingFill d k := rfl

theorem wakingFill_modForme (f k : Nat) (g : Forme → Forme) : wakingFill (modForme f g d) k = wakingFill d k := rfl

theorem stackFilled_completes {n : Nat} (due : (stack d n).state = .filling ∨ wakingFill d (144 + n) = true) :
    stackFilled n d =
      let d' := modStack n (fun s => { s with state := .ready }) d
      releaseFormes (if wakingFill d (144 + n) then domainUp (144 + n) d' else d') := by
  simp only [stackFilled, wakingFill_modStack]
  exact if_pos (by simpa using due)

theorem formeFilled_completes {f : Nat} (filling : (forme d f).filling = true)
    (powered : domainOn d (128 + f) = true ∨ wakingFill d (128 + f) = true) : formeFilled f d =
      let d' := modForme f (fun x => { x with filling := false, case := {}, imem := {}, xmem := {}, ymem := {} }) d
      releaseFormes (if wakingFill d (128 + f) then domainUp (128 + f) d' else d') := by
  simp only [formeFilled, wakingFill_modForme]
  exact if_pos (by simpa [filling] using powered)

theorem galleyFilled_completes {p : Nat} (waking : wakingFill d p = true) :
    galleyFilled p d = domainUp p (modPress p (fun x => { x with galley := {} }) d) :=
  if_pos waking

end Fills

/-- Settles O37: an alert by the attempts it counts, the end of a training or replay by the bus's state, and each kind of fill
by what waits for it. -/
theorem replaysAndFills : Obligations.ReplaysAndFills := by
  unfold Obligations.ReplaysAndFills
  intro s awake d
  refine ⟨fun n b present on => ?_, fun n due => ?_, fun f filling powered => ?_, fun p waking => ?_⟩
  · intro x k
    rw [exec_cmdParityAlert, exec_replayDone, onDev_nextWith awake, onDev_nextWith awake]
    refine ⟨fun trained few => ?_, fun trained many => ?_, fun training => ?_, fun trained active => ?_⟩
    · rw [doParityAlert_attempts present on trained]
      exact congrArg (nextWith s) (if_neg (Nat.not_le.mpr few))
    · rw [doParityAlert_attempts present on trained]
      exact congrArg (nextWith s) (if_pos many)
    · rw [doReplayDone_trained training]
    · rw [doReplayDone_replayed trained active]
  · rw [exec_fillDone, onDev_nextWith awake, doFillDone, stackFilled_completes due]
  · rw [exec_fillDone, onDev_nextWith awake, doFillDone, formeFilled_completes filling powered]
  · rw [exec_fillDone, onDev_nextWith awake, doFillDone, galleyFilled_completes waking]

/-! ## LINKs at the head of a queue (R237, R351, R352, R362, R364, R365) -/

section Link
variable {d : Device} {p : Nat} {e : QEntry}

/-- A LINK dispatches while fewer than 8 transfers are in progress, and a marker once every earlier LINK is done. -/
theorem linkWaits_eq_false {b : BitVec 256} (room : (press d p).transfers.length + (press d p).ftransfers.length < 8)
    (marker : faMarker b = true → linksDone d p = true) : linkWaits d p b = false := by
  have notFull : decide (8 ≤ controllerLoad (press d p)) = false := decide_eq_false (Nat.not_le.mpr room)
  rw [linkWaits, notFull, Bool.false_or]
  cases marks : faMarker b with
  | false => rfl
  | true => simp [marker marks]

/-- The source of the LINK `e` of press `p`. -/
def entrySource (p : Nat) (e : QEntry) : Nat := ownGalley e.pm p (fieldN (nth 0 e.desc 0) 247 238)

section Transfer
variable (kind : dKind (nth 0 e.desc 0) = 10) (wellFormed : linkWf (nth 0 e.desc 0) = true)
  (free : linkWaits d p (nth 0 e.desc 0) = false)
include kind wellFormed free

/-- A well-formed LINK that need not wait goes by its checks. -/
theorem linkAtHead_checks : linkAtHead p e d =
    match linkChecks d p (entrySource p e) (nth 0 e.desc 0) with
    | some code => faultCheck p (entrySource p e) e (nth 0 e.desc 0) code d
    | none => popHead p (modPress p (fun x => { x with
        ftransfers := x.ftransfers ++ [makeFTransfer d p (entrySource p e) e (nth 0 e.desc 0)] }) d) := by
  simp only [linkAtHead, kind, wellFormed, free]
  rfl

theorem linkAtHead_starts (pass : linkChecks d p (entrySource p e) (nth 0 e.desc 0) = none) :
    linkAtHead p e d = popHead p (modPress p (fun x => { x with
      ftransfers := x.ftransfers ++ [makeFTransfer d p (entrySource p e) e (nth 0 e.desc 0)] }) d) := by
  rw [linkAtHead_checks kind wellFormed free, pass]

theorem linkAtHead_faults {code : BitVec 16} (fails : linkChecks d p (entrySource p e) (nth 0 e.desc 0) = some code) :
    linkAtHead p e d = faultCheck p (entrySource p e) e (nth 0 e.desc 0) code d := by
  rw [linkAtHead_checks kind wellFormed free, fails]

end Transfer

/-- The ring entry that the collective descriptor of `e` names on the die of press `p`. -/
def entryRing (d : Device) (p : Nat) (e : QEntry) : RingEntry :=
  vgetN {} (vgetN (Vector.replicate 16 {}) d.forron.rings (p / 64)) (fieldN (nth 0 e.desc 0) 249 246)

section Collective
variable (kind : dKind (nth 0 e.desc 0) = 11) (zero : reservedZero (nth 0 e.desc 0) kindBFields = true)
  (op : fieldN (nth 0 e.desc 0) 251 250 ≠ 3) (num : fieldN (nth 0 e.desc 0) 245 242 ≠ 0)
  (idle : (vgetN none d.forron.engines (p / 64)).isSome = false)
include kind zero op num idle

/-- A well-formed descriptor of a die whose engine is idle goes by its checks. -/
theorem collectiveAtHead_checks : collectiveAtHead p e d =
    match collectiveChecks d p (nth 0 e.desc 0) (entryRing d p e) with
    | some code => faultCollective p e (nth 0 e.desc 0) code d
    | none => popHead p (setEngine (p / 64) (makeCollective d p e (nth 0 e.desc 0) (entryRing d p e)) d) := by
  have formed : (!reservedZero (nth 0 e.desc 0) kindBFields || decide (fieldN (nth 0 e.desc 0) 251 250 = 3)
      || decide (fieldN (nth 0 e.desc 0) 245 242 = 0)) = false := by
    rw [zero, decide_eq_false op, decide_eq_false num]
    rfl
  simp only [collectiveAtHead, kind, formed, idle]
  rfl

theorem collectiveAtHead_starts (pass : collectiveChecks d p (nth 0 e.desc 0) (entryRing d p e) = none) :
    collectiveAtHead p e d =
      popHead p (setEngine (p / 64) (makeCollective d p e (nth 0 e.desc 0) (entryRing d p e)) d) := by
  rw [collectiveAtHead_checks kind zero op num idle, pass]

theorem collectiveAtHead_faults {code : BitVec 16}
    (fails : collectiveChecks d p (nth 0 e.desc 0) (entryRing d p e) = some code) :
    collectiveAtHead p e d = faultCollective p e (nth 0 e.desc 0) code d := by
  rw [collectiveAtHead_checks kind zero op num idle, fails]

end Collective

end Link

/-! ## The next chunk of a Forron sender (R310, R352, R357, R363, R364) -/

section Sender
variable {d : Device} {p i : Nat} {t : FTransfer} (named : ftransferAt d p i = some t) (more : t.asked < faBytes t.desc)
include named more

theorem requestForron_full (full : 4 ≤ t.chunks.length) : requestForron p i d = countLinkWait p d := by
  simp only [requestForron, named, if_neg (Nat.not_le.mpr more), if_pos full]

/-- A transfer with room for a chunk sends its RESERVE where the window of the port of its route is open. -/
theorem requestForron_attempts {port : Nat} (room : t.chunks.length < 4)
    (sound : t.src = 0xA8 → hbmRetired d (faSaddr t.desc + t.asked) (faChunkLen t.desc t.asked) = false)
    (routed : originPort d (p / 64) (flDest t.desc) t.nextNum = some port) : requestForron p i d =
      if portWindow d t.entry.slot (faWindow t.desc) port then reserveNext p i t port d else countLinkWait p d := by
  have unretired : (decide (t.src = 0xA8)
      && hbmRetired d (faSaddr t.desc + t.asked) (faChunkLen t.desc t.asked)) = false := by
    simpa using sound
  simp only [requestForron, named, if_neg (Nat.not_le.mpr more), if_neg (Nat.not_le.mpr room), unretired, routed]
  rfl

end Sender

section Engine
variable {d : Device} {die : Nat} {c : Collective} (running : vgetN none d.forron.engines die = some c)
  (more : c.step < colSteps c)
include running more

theorem requestEngine_waits (waits : 4 ≤ c.sent.length ∨ colMaySend c c.step c.chunk = false ∨ colOpen d die c = false) :
    requestEngine die d = countLinkWait c.press d := by
  have held : (decide (4 ≤ c.sent.length) || !colMaySend c c.step c.chunk || !colOpen d die c) = true := by
    simpa [or_assoc] using waits
  simp only [requestEngine, running, if_neg (Nat.not_le.mpr more), held, if_true]

theorem requestEngine_reserves {off n port : Nat} (room : c.sent.length < 4)
    (committed : colMaySend c c.step c.chunk = true) (opened : colOpen d die c = true)
    (chunk : (colChunks c (colSends c c.step))[c.chunk]? = some (off, n))
    (sound : colEp c = 0xA8 → hbmRetired d (colBase c + off) n = false)
    (routed : originPort d die c.succ c.chunk = some port) :
    requestEngine die d = engineReserve die c off n port d := by
  have unretired : (decide (colEp c = 0xA8) && hbmRetired d (colBase c + off) n) = false := by simpa using sound
  simp [requestEngine, running, Nat.not_le.mpr more, Nat.not_le.mpr room, committed, opened, chunk, unretired, routed]

end Engine

/-- Settles O40: a LINK at the head of its queue by its kind and its checks, a chunk request by what its sender has
outstanding and by its window. -/
theorem linksDispatch : Obligations.LinksDispatch := by
  unfold Obligations.LinksDispatch
  intro s p awake d
  refine ⟨fun e head => ?_, fun i t named more => ⟨fun full => ?_, fun room sound port routed => ?_⟩,
    fun die c running more waits => ?_, fun die c off n port running more room committed opened chunk sound routed => ?_⟩
  · intro b
    rw [exec_linkDispatch, exec_collectiveDispatch, onDev_nextWith awake, onDev_nextWith awake, doLinkDispatch,
      doCollectiveDispatch, atHead_some head, atHead_some head]
    refine ⟨fun kind wellFormed room marker => ?_, fun kind zero op num idle => ?_⟩
    · have free := linkWaits_eq_false room marker
      exact ⟨fun pass => congrArg (nextWith s) (linkAtHead_starts kind wellFormed free pass),
        fun code fails => congrArg (nextWith s) (linkAtHead_faults kind wellFormed free fails)⟩
    · exact ⟨fun pass => congrArg (nextWith s) (collectiveAtHead_starts kind zero op num idle pass),
        fun code fails => congrArg (nextWith s) (collectiveAtHead_faults kind zero op num idle fails)⟩
  · rw [exec_forronChunkRequest, onDev_nextWith awake, doForronChunkRequest, requestForron_full named more full]
  · rw [exec_forronChunkRequest, onDev_nextWith awake, doForronChunkRequest,
      requestForron_attempts named more room sound routed]
  · rw [exec_forronChunkRequest, onDev_nextWith awake, doForronChunkRequest, requestEngine_waits running more waits]
  · rw [exec_forronChunkRequest, onDev_nextWith awake, doForronChunkRequest,
      requestEngine_reserves running more room committed opened chunk sound routed]

end Sys2Proof.Machine
end

section
/-!
PROOFS of the family 09_forron_link: the states of a Forron port, its flits and route tables, the transport's messages at
the receiver and at the sender of a chunk with their deadlines, and the firmware commands with the ends of store writes and
mailbox commands. The lemmas that say what each operation does stand before the obligation that is assembled from them.
-/
namespace Sys2Proof.Machine

/-! ## A port's settings (R323, R324, R332, R333) -/

/-- Quad `q` takes the mode `m`: its lanes are emptied, its hold ends, and its power domain follows (R323). -/
def takeMode (q : Nat) (m : BitVec 2) (d : Device) : Device :=
  settleDomain (emptyLanes q (modQuad q (fun x => { x with mode := m, held := false }) d)) (152 + q)

/-- A new mode that is legal and enabled resets the pair where the quad bonds before or after, else its own port. -/
theorem doQuadMode_changes {d : Device} {q : Nat} {m : BitVec 2} (legal : m ≠ 3) (new : m ≠ (quad d q).mode)
    (present : quadPresent d.part q = true) (forron : m = 1 → bit d.trust.store.enForron q = true)
    (fount : m = 2 → bit d.trust.store.enFount q = true) : doQuadMode q m d =
      if isBonded d (q / 2 * 2) = true ∨ isBonded (modQuad q (fun x => { x with mode := m }) d) (q / 2 * 2) = true then
        resetPair q (takeMode q m) d
      else beginTraining q (takeMode q m (takeDown q d)) := by
  have enabled : ((decide (m = 1) && !bit d.trust.store.enForron q) || (decide (m = 2) && !bit d.trust.store.enFount q))
      = false := by
    simpa using ⟨forron, fount⟩
  have takes : (decide (m = 3) || decide (m = (quad d q).mode) || false || !quadPresent d.part q) = false := by
    rw [decide_eq_false legal, decide_eq_false new, present]
    rfl
  simp only [doQuadMode, enabled, takes, Bool.or_eq_true]
  rfl

section Settings
variable {d : Device} {q : Nat}

/-- A new PRBS selection of a port's lower quad takes the port Down and lets it begin anew. -/
theorem prbsWrite_selects {v : BitVec 2} (legal : v ≠ 3) (new : v ≠ (quad d q).prbs) (lower : isUpper d q = false)
    (present : quadPresent d.part q = true) : prbsWrite q v d =
      beginTraining q (setPortState q .down (modQuad q (fun x => { x with prbs := v }) d)) := by
  have takes : (decide (v = 3) || decide (v = (quad d q).prbs) || isUpper d q || !quadPresent d.part q) = false := by
    rw [decide_eq_false legal, decide_eq_false new, lower, present]
    rfl
  simp only [prbsWrite, takes]
  rfl

theorem doRetrain_lower (lower : isUpper d q = false) : doRetrain q d =
    if mayTrain (modQuad q (fun x => { x with held := false }) d) q then
      enterSignal q (modQuad q (fun x => { x with held := false }) d)
    else modQuad q (fun x => { x with held := false }) d := by
  simp [doRetrain, lower]

section Down
variable (down : (quad d q).state = .down) (lower : isUpper d q = false)
include down lower

theorem beginTraining_prbs (selected : (quad d q).prbs ≠ 0) : beginTraining q d =
    if (portQuads d q).all fun k => domainOn d (152 + k) then enterPrbs q d else d := by
  rw [beginTraining, if_neg (by simp [down, lower]), if_pos selected]

theorem beginTraining_trains (unselected : (quad d q).prbs = 0) : beginTraining q d =
    if mayTrain d q then enterSignal q d else d := by
  rw [beginTraining, if_neg (by simp [down, lower]), if_neg (not_not_intro unselected)]

end Down

end Settings

/-! ## Locking and losing lanes (R329 to R333, R421) -/

section Clock
variable {d : Device} {q : Nat}

theorem doClockLock_fount (fount : (quad d q).mode = 2) (lanes : BitVec 4) : doClockLock q lanes d =
    modFount (fun f => { f with cdrLock := vmodN f.cdrLock q fun _ => lanes }) d :=
  if_pos fount

theorem doClockLock_some (forron : (quad d q).mode ≠ 2) {lanes : BitVec 4} (few : lanes ≠ 15) :
    doClockLock q lanes d = d := by
  have part : (decide ((quad d (portOf d q)).state = .signal) && decide (lanes = 15)) = false := by
    rw [decide_eq_false few, Bool.and_false]
  simp only [doClockLock, if_neg forron, part]
  rfl

theorem doClockLock_all (forron : (quad d q).mode ≠ 2) (signal : (quad d (portOf d q)).state = .signal) :
    doClockLock q 15 d = sendMarks (portOf d q) 0
      (modQuad (portOf d q) (fun x => { x with frames := 0, stream := [] }) (setPortState (portOf d q) .hunt d)) := by
  simp only [doClockLock, if_neg forron, signal]
  rfl

end Clock

/-- Lane `lane` of quad `q` is locked, where the candidate `h` has it (R329, R331). -/
def lockLane (q lane : Nat) (h : LaneHunt) (d : Device) : Device :=
  modQuad q (fun x => { x with
    laneLock := x.laneLock ||| BitVec.ofNat 4 (2 ^ lane)
    markAt := vmodN x.markAt lane fun _ => laneOrigin h.time (fieldN (blockPayload h.mark) 111 96) }) d

section Lanes
variable {d : Device} {q lane : Nat}

theorem doLaneLock_fails {h : LaneHunt} (fails : huntPasses h = false) : doLaneLock q lane h d = d := by
  simp [doLaneLock, fails]

/-- The last lane of a port to lock takes it to Exchange, or back to Signal where the lanes lie too far apart. -/
theorem doLaneLock_locks {h : LaneHunt} (hunting : (quad d (portOf d q)).state = .hunt) (passes : huntPasses h = true) :
    doLaneLock q lane h d =
      if allLocked (lockLane q lane h d) (portOf d q) then
        if laneSkew (setPortState (portOf d q) .exchange (lockLane q lane h d)) (portOf d q) ≤ 2048 then
          sendTrain (portOf d q) (setPortState (portOf d q) .exchange (lockLane q lane h d))
        else enterSignal (portOf d q) (setPortState (portOf d q) .exchange (lockLane q lane h d))
      else lockLane q lane h d := by
  have takes : (decide ((quad d (portOf d q)).state ≠ .hunt) || !huntPasses h) = false := by simp [hunting, passes]
  simp only [doLaneLock, takes]
  rfl

theorem doLaneLockLost_few {headers : BitVec 128} (few : badHeaders headers < 16) :
    doLaneLockLost q lane headers d = d := by
  simp [doLaneLockLost, few]

section Lost
variable {headers : BitVec 128} (locked : (quad d q).laneLock.getLsbD lane = true) (many : 16 ≤ badHeaders headers)
include locked many

theorem doLaneLockLost_trained
    (state : (quad d (portOf d q)).state = .exchange ∨ (quad d (portOf d q)).state = .up) :
    doLaneLockLost q lane headers d = enterSignal (portOf d q) d := by
  simp [doLaneLockLost, locked, Nat.not_lt.mpr many, state]

theorem doLaneLockLost_hunt (state : (quad d (portOf d q)).state = .hunt) : doLaneLockLost q lane headers d =
    modQuad q (fun x => { x with laneLock := x.laneLock &&& ~~~(BitVec.ofNat 4 (2 ^ lane)) }) d := by
  simp [doLaneLockLost, locked, Nat.not_lt.mpr many, state]

end Lost

end Lanes

section Timeout
variable {d : Device} {q b : Nat} (bound : stateBound (quad d (portOf d q)).state = some b)
include bound

theorem doTrainingTimeout_before (early : d.now < (quad d (portOf d q)).stateAt + 4096 * b) :
    doTrainingTimeout q d = d := by
  simp [doTrainingTimeout, trainingLate, bound, early]

theorem doTrainingTimeout_due (due : (quad d (portOf d q)).stateAt + 4096 * b ≤ d.now) : doTrainingTimeout q d =
    if (quad d (portOf d q)).state = .signal then beginTraining (portOf d q) (setPortState (portOf d q) .down d)
    else enterSignal (portOf d q) d := by
  simp [doTrainingTimeout, trainingLate, bound, due]

end Timeout

/-! ## TRAIN blocks (R327, R330, R334) -/

theorem blockHeader_controlBlock (v : BitVec 128) : blockHeader (controlBlock v) = 2 := by
  rw [blockHeader, controlBlock, fieldN, BitVec.toNat_append, Nat.pow_zero, Nat.div_one]
  show (v.toNat <<< 2 ||| 2) % 2 ^ 2 = 2
  rw [Nat.or_mod_two_pow, Nat.shiftLeft_eq, Nat.mul_mod_left]
  rfl

theorem blockPayload_controlBlock (v : BitVec 128) : blockPayload (controlBlock v) = v := by
  show ((v ++ 2#2).extractLsb' 2 128) = v
  exact BitVec.extractLsb'_append_eq_left

/-- The device once port `p` has counted the codewords `l`, where its lanes decode blocks. -/
def afterCodewords (p : Nat) (l : List Codeword) (d : Device) : Device :=
  if portHears d p then hearCodewords p l d else d

section Blocks
variable {d : Device} {q : Nat} {l : List Codeword}

theorem doTrainBlock_bad (bad : flitBad l = true) (b : BitVec 130) : doTrainBlock q b l d =
    modQuad (portOf d q) (fun x => { x with lastTrain := none, trainRun := 0 }) (afterCodewords (portOf d q) l d) := by
  simp only [doTrainBlock, bad]
  rfl

section Good
variable (good : flitBad l = false)
include good

theorem doTrainBlock_noControl {b : BitVec 130} (data : blockHeader b ≠ 2) :
    doTrainBlock q b l d = afterCodewords (portOf d q) l d := by
  simp [doTrainBlock, good, data, afterCodewords]

/-- A control block that is no LANE_MARK is a TRAIN block, or it counts where the port decodes blocks. -/
theorem doTrainBlock_control {v : BitVec 128} (unmarked : controlType v ≠ 1) : doTrainBlock q (controlBlock v) l d =
    if controlType v = 3 then takeTrain (portOf d q) v (afterCodewords (portOf d q) l d)
    else if portHears (afterCodewords (portOf d q) l d) (portOf d q) then
      modQuad (portOf d q) (fun x => { x with crcErr := satAdd x.crcErr 1 }) (afterCodewords (portOf d q) l d)
    else afterCodewords (portOf d q) l d := by
  simp only [doTrainBlock, good, blockHeader_controlBlock, blockPayload_controlBlock, unmarked]
  rfl

end Good

end Blocks

/-- The length of the run of TRAIN blocks that are equal to `v`, with `v` itself (R334). -/
def runWith (x : Quad) (v : BitVec 128) : Nat := if x.lastTrain = some v then min 8 (x.trainRun + 1) else 1

/-- Port `p` notes the TRAIN block `v`. -/
def noteTrain (p : Nat) (v : BitVec 128) (d : Device) : Device :=
  modQuad p (fun x => { x with lastTrain := some v, trainRun := runWith (quad d p) v }) d

section Train
variable {d : Device} {p : Nat} {v : BitVec 128} (exchange : (quad d p).state = .exchange)
include exchange

theorem takeTrain_before (short : runWith (quad d p) v < 8) : takeTrain p v d = noteTrain p v d := by
  rw [takeTrain, if_neg (by simp [exchange])]
  exact if_pos short

/-- The eighth equal TRAIN block says seen; where it shows that the partner has seen too, training ends. -/
theorem takeTrain_eighth (whole : 8 ≤ runWith (quad d p) v) : takeTrain p v d =
    let d' := if (quad d p).seen then noteTrain p v d
      else sendTrain p (modQuad p (fun x => { x with seen := true }) (noteTrain p v d))
    if bit v 119 then trained p v d' else d' := by
  rw [takeTrain, if_neg (by simp [exchange])]
  exact if_neg (Nat.not_lt.mpr whole)

end Train

/-- Settles O38: each command of a port by the port's state and by what its lanes hear. -/
theorem portsTrain : Obligations.PortsTrain := by
  unfold Obligations.PortsTrain
  intro s q awake d p
  refine ⟨fun free m legal new present forron fount => ?_,
    fun free lower => ⟨fun v heard legal new lower' present => ?_, ?_⟩,
    fun e down lower => ⟨fun selected => ?_, fun unselected => ?_⟩, fun free => ?_,
    fun forron signal => ⟨?_, fun lanes few => ?_⟩, fun fount lanes => ?_,
    fun hunting l k => ⟨fun fails => ?_, fun passes => ?_⟩, fun l v locked => ⟨fun few => ?_, fun many => ?_⟩,
    fun b bound => ⟨fun early => ?_, fun due => ?_⟩, fun l => ?_⟩
  · intro g bonds
    rw [exec_quadModeWrite, onHost_free awake free, doQuadMode_changes legal new present forron fount]
    exact ⟨fun bonded => congrArg (nextWith s) (if_pos bonded), fun single => congrArg (nextWith s) (if_neg single)⟩
  · rw [exec_prbsSelect, onHost_free awake free, doPrbsSelect, prbsWrite_selects legal new lower' present]
  · rw [exec_retrain, onHost_free awake free, doRetrain_lower lower]
  · rw [beginTraining_prbs down lower selected]
    rfl
  · exact beginTraining_trains down lower unselected
  · rw [exec_flClearCounts, onHost_free awake free, doFlClearCounts]
  · rw [exec_clockRecoveryLock, onDev_nextWith awake, doClockLock_all forron signal]
  · rw [exec_clockRecoveryLock, onDev_nextWith awake, doClockLock_some forron few]
  · rw [exec_clockRecoveryLock, onDev_nextWith awake, doClockLock_fount fount]
  · rw [exec_laneLock, onDev_nextWith awake, doLaneLock_fails fails]
  · rw [exec_laneLock, onDev_nextWith awake, doLaneLock_locks hunting passes]
    exact ⟨fun rest => congrArg (nextWith s) (if_neg (Bool.eq_false_iff.mp rest)),
      fun all => congrArg (nextWith s) (if_pos all)⟩
  · rw [exec_laneLockLost, onDev_nextWith awake, doLaneLockLost_few few]
  · rw [exec_laneLockLost, onDev_nextWith awake]
    exact ⟨fun state => congrArg (nextWith s) (doLaneLockLost_trained locked many state),
      fun state => congrArg (nextWith s) (doLaneLockLost_hunt locked many state)⟩
  · rw [exec_trainingTimeout, onDev_nextWith awake, doTrainingTimeout_before bound early]
  · rw [exec_trainingTimeout, onDev_nextWith awake, doTrainingTimeout_due bound due]
    exact ⟨fun other => congrArg (nextWith s) (if_neg other), fun signal => congrArg (nextWith s) (if_pos signal)⟩
  · intro d0
    refine ⟨fun bad b => ?_,
      fun good => ⟨fun b data => ?_, fun v unmarked other hears => ?_, fun exchange v train => ?_⟩⟩
    · rw [exec_trainBlock, onDev_nextWith awake, doTrainBlock_bad bad]
      rfl
    · rw [exec_trainBlock, onDev_nextWith awake, doTrainBlock_noControl good data]
      rfl
    · rw [exec_trainBlock, onDev_nextWith awake, doTrainBlock_control good unmarked, if_neg other]
      exact congrArg (nextWith s) (if_pos hears)
    · intro run d'
      have taken : exec (.trainBlock q (controlBlock v) l) s = nextWith s (takeTrain p v d0) := by
        rw [exec_trainBlock, onDev_nextWith awake, doTrainBlock_control good (by omega), if_pos train]
        rfl
      rw [taken]
      exact ⟨fun short => congrArg (nextWith s) (takeTrain_before exchange short),
        fun whole => congrArg (nextWith s) (takeTrain_eighth exchange whole)⟩

/-! ## Flits (R330, R339 to R343) -/

/-- A port answers with a NULL flit where it is Up and has sent no flit (R339). -/
theorem answerFlit_eq (p : Nat) (d0 d : Device) : answerFlit p d0 d =
    if portUp d p = true ∧ sentFlit p (d.out.take (d.out.length - d0.out.length)) = false then sendNull p d else d := by
  simp [answerFlit]

/-- A port that is Up counts the codewords, takes the flit, sends what it can and answers. -/
theorem doFlit_up {d : Device} {q : Nat} (up : portUp d (portOf d q) = true) (v : BitVec 2048) (l : List Codeword) :
    doFlit q v l d = payDebts (answerFlit (portOf d q) (hearCodewords (portOf d q) l d) (pumpPort 1024 (portOf d q)
      (takeFlit (portOf d q) (leBytes 256 v.toNat) (flitBad l) (hearCodewords (portOf d q) l d)))) := by
  simp only [doFlit, up]
  rfl

/-! ## The retry timer (R343, R344) -/

section Retry
variable {d : Device} {q : Nat}

theorem doRetryTimeout_before (early : d.now < (quad d (portOf d q)).ackBy) : doRetryTimeout q d = d := by
  simp [doRetryTimeout, Nat.not_le.mpr early]

theorem doRetryTimeout_due (up : portUp d (portOf d q) = true) (due : (quad d (portOf d q)).ackBy ≤ d.now) :
    doRetryTimeout q d = resendOrRetrain (portOf d q) d := by
  simp [doRetryTimeout, up, due]

end Retry

/-! ## Route entries (R356, R359, R360, R552) -/

/-- A logged action changes the trust unit only. -/
theorem logAct_frame (action role outcome : Nat) (code : BitVec 16) (source target : Nat) (detail : BitVec 256)
    (d : Device) : ∃ g, logAct action role outcome code source target detail d = modTrust g d := by
  unfold logAct logAppend
  exact ⟨_, rfl⟩

/-- What a guarded write does, it does to the device with the log's entry of it. -/
theorem withRight_congr {act act' : Device → Device} {d : Device} (right : Bool) (r : Requester) (addr : Nat) (v : Word)
    (same : ∀ g, act (modTrust g d) = act' (modTrust g d)) :
    withRight right r addr v act d = withRight right r addr v act' d := by
  obtain ⟨g, logged⟩ := logAct_frame 1 (reqRole d r) 0 0 (reqSource r) addr (BitVec.ofNat 256 v.toNat) d
  simp only [withRight, logged, same]

section Routes
variable {d : Device} {v : Word} (ok : routeOk d v = true)
include ok

theorem doRouteWrite_stores {q : Nat} (present : quadPresent d.part q = true)
    (inside : (quad d q).routeIndex.toNat < 768) (r : Requester) : doRouteWrite r q v d =
      withRight (lockable d r 5) r (0x0600084 + 0x10000 * q) v
        (modQuad q (fun x => { x with routes := smapSet 0 x.routes (quad d q).routeIndex.toNat (routeWord v) })) d := by
  have stored : (decide ((quad d q).routeIndex.toNat < 768) && routeOk d v) = true := by simp [inside, ok]
  rw [doRouteWrite, if_neg (by simp [present])]
  exact withRight_congr _ _ _ _ fun g => if_pos stored

theorem doOrouteWrite_stores (inside : d.forron.orouteSel.toNat % 1024 < 768) (r : Requester) : doOrouteWrite r v d =
    withRight (lockable d r 5) r 0x0600128 v (modForron (fun f =>
      { f with oroutes := vmodN f.oroutes (f.orouteSel.toNat / 1024) fun t =>
                 smapSet 0 t (d.forron.orouteSel.toNat % 1024) (routeWord v) })) d := by
  have stored : (decide (d.forron.orouteSel.toNat % 1024 < 768) && routeOk d v) = true := by simp [inside, ok]
  exact withRight_congr _ _ _ _ fun g => if_pos stored

end Routes

/-- A write by Foreman, or over a link that is free, has its effect. -/
theorem onSource_of_free {s : State} (awake : asleep s.dev = false) {r : Requester}
    (free : r = .foreman ∨ linkBusy s.dev = false) (c : Instr) (g : Device → Device) :
    onSource r c g s = nextWith s (g s.dev) := by
  obtain rfl | free := free
  · exact onDev_nextWith awake g
  · exact onSource_free awake free r c g

/-- Settles O39: a flit as its port hears, takes (`takeFlit`, which the statement writes out) and answers it, the timer by
whether it has run out, a route entry by its form and its index. -/
theorem flitsAndRoutes : Obligations.FlitsAndRoutes := by
  unfold Obligations.FlitsAndRoutes
  intro s q awake d p
  refine ⟨fun up => ⟨fun v l => ?_, fun early => ?_, fun due => ?_⟩,
    fun r v free ok => ⟨fun present inside => ?_, fun inside => ?_⟩⟩
  · rw [exec_flit, onDev_nextWith awake, doFlit_up up, answerFlit_eq]
    rfl
  · rw [exec_retryTimeout, onDev_nextWith awake, doRetryTimeout_before early]
  · rw [exec_retryTimeout, onDev_nextWith awake, doRetryTimeout_due up due, resendOrRetrain]
  · rw [exec_flRouteDataWrite, onSource_of_free awake free, doRouteWrite_stores ok present inside]
  · rw [exec_flOrouteDataWrite, onSource_of_free awake free, doOrouteWrite_stores ok inside]

/-! ## Taking a message (R342, R349) -/

/-- Nothing stands before the first message that waits. -/
theorem inboxAt_first {d : Device} {q : Nat} {m : FMsg} {l : List (Nat × FMsg)} (first : d.forron.inbox = (q, m) :: l) :
    inboxAt d 0 m.mtype = some (q, m) := by
  simp [inboxAt, first]

theorem onInbox_takes {d : Device} {n ty q : Nat} {m : FMsg} (taken : inboxAt d n ty = some (q, m))
    (act : Nat → FMsg → Device → Device) : onInbox ty n act d = payDebts (act q m (takeInbox n q m d)) := by
  rw [onInbox, taken]

/-! ## RESERVE (R353, R355, R364, R564) -/

section Reserve
variable {d : Device} {q : Nat} {m : FMsg}

theorem takeReserve_held (held : d.forron.rx.any (frxIs m.src m.tag) = true) :
    takeReserve q m d = logMsg q 0x0412 m d :=
  if_pos held

section New
variable (new : d.forron.rx.any (frxIs m.src m.tag) = false)
include new

section Endpoint
variable (endpoint : frxDie (frxOf d q m) = none)
include endpoint

theorem takeReserve_refused {cause : Nat} (refused : reserveCause d (frxOf d q m) = some cause) : takeReserve q m d =
    flAnswer 2 1 cause 0 (frxOf d q m)
      (if cause = 4 ∧ addrEp (frxOf d q m).dst = 0xA8 then
        logTurnedAway (frxOf d q m).stream (frxOf d q m).addr (frxOf d q m).len d
      else d) := by
  simp [takeReserve, new, endpoint, refused]

theorem takeReserve_pushed (accepted : reserveCause d (frxOf d q m) = none) :
    takeReserve q m d = pushReserve (frxOf d q m) d := by
  simp [takeReserve, new, endpoint, accepted]

end Endpoint

section Engine
variable {die : Nat} (engine : frxDie (frxOf d q m) = some die)
include engine

theorem takeReserve_enabled (enabled : bit d.trust.store.enEngine die = true) :
    takeReserve q m d = modForron (fun f => { f with rx := f.rx ++ [frxOf d q m] }) d := by
  simp [takeReserve, new, engine, enabled]

theorem takeReserve_disabled (disabled : bit d.trust.store.enEngine die = false) :
    takeReserve q m d = flAnswer 2 1 5 0 (frxOf d q m) d := by
  simp [takeReserve, new, engine, disabled]

end Engine

end New

end Reserve

/-! ## DATA (R353, R355, R363) -/

theorem doForronData_takes {d : Device} {n q : Nat} {m : FMsg} (taken : inboxAt d n 3 = some (q, m))
    (ready : dataReady d m = true) : doForronData n d = payDebts (takeData q m (takeInbox n q m d)) := by
  simp only [doForronData, taken, ready, if_true, onInbox_takes taken]

/-- The chunk `x` with the bytes `v` of its next DATA message. -/
def withData (d : Device) (x : FRx) (v : List Byte) : FRx :=
  { x with data := x.data ++ v, index := x.index + 1, holdBy := holdDue d }

section Data
variable {d : Device} {q : Nat} {m : FMsg}

/-- No chunk of the source and tag of `m` has been granted here. -/
theorem takeData_unknown
    (unknown : ∀ x, d.forron.rx.find? (frxIs m.src m.tag) = some x → x.granted = false) :
    takeData q m d = logMsg q 0x0411 m d := by
  unfold takeData
  split
  · rfl
  · next x found =>
      rw [unknown x found]
      rfl

section Granted
variable {x : FRx} (found : d.forron.rx.find? (frxIs m.src m.tag) = some x) (granted : x.granted = true)
include found granted

theorem takeData_oversize (beyond : dataFits x m = none) :
    takeData q m d = logOversize q m x (flAnswer 4 2 0 0 x (cancelPush x (dropFrx x d))) := by
  simp [takeData, found, granted, beyond]

variable {v : List Byte} (fits : dataFits x m = some v)
include fits

theorem takeData_outOfOrder (disorder : m.index ≠ x.index) : takeData q m d = logMsg q 0x0412 m d := by
  simp [takeData, found, granted, fits, disorder]

/-- The next DATA message of a chunk for an engine is added to it, and a whole chunk is committed; of another chunk it is
passed on at once. -/
theorem takeData_adds (order : m.index = x.index) : takeData q m d =
    match frxDie x with
    | some die =>
      if (withData d x v).data.length = x.len then
        engineCommit die (withData d x v) (modFrx (withData d x v) (fun _ => withData d x v) d)
      else modFrx (withData d x v) (fun _ => withData d x v) d
    | none => passFlits (withData d x v) (x.data.length / 64) (modFrx (withData d x v) (fun _ => withData d x v) d) := by
  have open_ : ¬ (!x.granted) = true := by simp [granted]
  simp only [takeData, found, if_neg open_, fits, if_neg (not_not_intro order)]
  rfl

end Granted

end Data

/-! ## CANCEL and grant_hold (R354) -/

section Cancel
variable {d : Device} {q : Nat} {m : FMsg}

theorem takeCancel_unknown
    (unknown : ∀ x, d.forron.rx.find? (frxIs m.src m.tag) = some x → x.granted = false) :
    takeCancel q m d = logMsg q 0x0411 m d := by
  unfold takeCancel
  split
  · next x found => rw [unknown x found, if_neg Bool.false_ne_true]
  · rfl

theorem takeCancel_granted {x : FRx} (found : d.forron.rx.find? (frxIs m.src m.tag) = some x)
    (granted : x.granted = true) : takeCancel q m d = cancelPush x (dropFrx x d) := by
  simp [takeCancel, found, granted]

end Cancel

section Hold
variable {d : Device} {n : Nat} {x : FRx} (named : d.forron.rx[n]? = some x)
include named

theorem doGrantHold_before (early : d.now < x.holdBy) : doGrantHold n d = d := by
  simp [doGrantHold, named, holdPassed, Nat.not_le.mpr early]

section Passed
variable (due : x.holdBy ≤ d.now) (unpassed : x.passed = false)
include due unpassed

theorem doGrantHold_granted (granted : x.granted = true) : doGrantHold n d =
    logPlain (unitQuad x.port) 0x0413 (flDetail (frxDetail d x.port x)) (cancelPush x (dropFrx x d)) := by
  simp [doGrantHold, named, holdPassed, due, unpassed, granted]

theorem doGrantHold_noCollective (waits : x.granted = false) {die : Nat} (engine : frxDie x = some die)
    (idle : vgetN none d.forron.engines die = none) :
    doGrantHold n d = flAnswer 2 1 1 0 x (dropFrx x d) := by
  simp [doGrantHold, named, holdPassed, due, unpassed, waits, engine, idle]

end Passed

end Hold

/-- Settles O41: a message that is taken by the chunk of its source and tag at this receiver, grant_hold by whether it has
passed. -/
theorem forronReceives : Obligations.ForronReceives := by
  unfold Obligations.ForronReceives
  intro s awake
  refine ⟨fun q m l first => inboxAt_first first, fun n q m => ?_,
    fun n x named => ⟨fun early => ?_, fun due unpassed => ⟨fun granted => ?_, fun waits die engine idle => ?_⟩⟩⟩
  · intro d ans
    refine ⟨fun taken => ?_, fun taken ready => ?_, fun taken => ?_⟩
    · rw [exec_forronReserve, onDev_nextWith awake, doForronReserve, onInbox_takes taken]
      exact ⟨fun held => congrArg ans (takeReserve_held held), fun new =>
        ⟨fun endpoint => ⟨fun cause refused => congrArg ans (takeReserve_refused new endpoint refused),
            fun accepted => congrArg ans (takeReserve_pushed new endpoint accepted)⟩,
          fun die engine => ⟨fun enabled => congrArg ans (takeReserve_enabled new engine enabled),
            fun disabled => congrArg ans (takeReserve_disabled new engine disabled)⟩⟩⟩
    · rw [exec_forronData, onDev_nextWith awake, doForronData_takes taken ready]
      refine ⟨fun unknown => congrArg ans (takeData_unknown unknown), fun x found granted =>
        ⟨fun beyond => congrArg ans (takeData_oversize found granted beyond), fun v fits =>
          ⟨fun disorder => congrArg ans (takeData_outOfOrder found granted fits disorder), fun order => ?_⟩⟩⟩
      have added := takeData_adds (q := q) found granted fits order
      refine ⟨fun endpoint => ?_, fun die engine => ?_⟩
      · rw [endpoint] at added
        exact congrArg ans added
      · rw [engine] at added
        exact ⟨fun whole => congrArg ans (added.trans (if_pos whole)),
          fun more => congrArg ans (added.trans (if_neg more))⟩
    · rw [exec_forronCancel, onDev_nextWith awake, doForronCancel, onInbox_takes taken]
      exact ⟨fun unknown => congrArg ans (takeCancel_unknown unknown),
        fun x found granted => congrArg ans (takeCancel_granted found granted)⟩
  · rw [exec_grantHoldExpired, onDev_nextWith awake, doGrantHold_before named early]
  · rw [exec_grantHoldExpired, onDev_nextWith awake, doGrantHold_granted named due unpassed granted]
  · rw [exec_grantHoldExpired, onDev_nextWith awake, doGrantHold_noCollective named due unpassed waits engine idle]

/-! ## GRANT (R269, R347, R352, R355) -/

theorem doForronGrant_takes {d : Device} {n q : Nat} {m : FMsg} (taken : inboxAt d n 2 = some (q, m))
    (ready : grantReady d m = true) (cond : HopCondition) (flit : BitVec 6) :
    doForronGrant n cond flit d = payDebts (spoiltGrant q cond flit m (takeInbox n q m d)) := by
  simp only [doForronGrant, taken, ready, if_true, onInbox_takes taken]

/-- Where every flit of the chunk reaches the controller, nothing comes to a GRANT. -/
theorem spoiltGrant_ok (q : Nat) (flit : BitVec 6) (m : FMsg) (d : Device) :
    spoiltGrant q .ok flit m d = takeGrant q m .ok flit d := by
  simp only [spoiltGrant]
  split
  · rfl
  · exact ite_self _

/-- A GRANT that names no chunk of this part has none to spoil. -/
theorem spoiltGrant_unknown {m : FMsg} {d : Device} (unknown : grantChunkOf d m = none) (q : Nat) (cond : HopCondition)
    (flit : BitVec 6) : spoiltGrant q cond flit m d = takeGrant q m cond flit d := by
  simp only [spoiltGrant, unknown]
  split
  · rfl
  · rfl

/-- The chunk of tag `tag` has been granted by a receiver of incarnation `pinc`, and `v` is sent. -/
def chunkSent (p i : Nat) (tag : BitVec 12) (pinc : BitVec 16) (v : List Byte) (d : Device) : Device :=
  modFchunk p i tag (fun c => { c with grants := [0], pinc := pinc, sent := true, tally := tally v }) d

theorem forronSource_sends {d d' : Device} {p i : Nat} {t : FTransfer} {c : TxChunk} {v : List Byte}
    (read : readForSend 3 p t.entry (faStream t.desc) (epUnit d t.src (faSaddr t.desc + c.off)) (faSaddr t.desc + c.off)
      c.len d = (d', some v)) (pinc : BitVec 16) (cond : HopCondition) (flit : BitVec 6) :
    forronSource p t c pinc i cond flit d =
      let d2 := chunkSent p i c.tag pinc v d'
      sendData c.port (unspoilt c.len cond flit
        (dataMsgs d2 (ownAddr d2 p) (flDest t.desc) pinc (faMarker t.desc) c.tag v)) d2 := by
  simp only [forronSource, read]
  rfl

/-! The chunk of a transfer that an answer names. -/

section Transfer
variable {d : Device} {q i : Nat} {m : FMsg} {t : FTransfer} {c : TxChunk}
  (named : findFtx d (addrEp m.src) m.tag = some (i, t, c))
include named

section Grant
variable (new : c.grants = [])
include new

theorem takeGrant_refused (refused : leAt m.payload 0 1 ≠ 0) (cond : HopCondition) (flit : BitVec 6) :
    takeGrant q m cond flit d = faultLink (addrEp m.src) 2 t.entry (faStream t.desc) 0x0404
      { (sentDetail d t.links0 m.dst c 2 m.lseq) with cause := leAt m.payload 1 1 } d := by
  simp [takeGrant, named, new, refused]

theorem takeGrant_granted (granted : leAt m.payload 0 1 = 0) (cond : HopCondition) (flit : BitVec 6) :
    takeGrant q m cond flit d = forronSource (addrEp m.src) t c m.sinc i cond flit d := by
  simp [takeGrant, named, new, granted]

/-- A chase flit that cannot be corrected on its way to the controller faults the task (R269). -/
theorem spoiltGrant_uncorrectable {sw : SwitchId} {flit : BitVec 6} {j : Nat} {t' : FTransfer} {c' : TxChunk}
    (after : findFtx (takeGrant q m (.uncorrectable sw) flit d) (addrEp m.src) m.tag = some (j, t', c'))
    (sent : c'.sent = true) : spoiltGrant q (.uncorrectable sw) flit m d =
      faultStream (addrEp m.src) 2 t'.entry (faStream t'.desc) 0x0611 (unitSwitch sw)
        { init := addrEp m.src, peer := 0xB0 + q, chunk := c'.num } (takeGrant q m (.uncorrectable sw) flit d) := by
  simp only [spoiltGrant, grantChunkOf, named, new, after, sent]
  rfl

end Grant

/-- A RECEIPT of a chunk that is sent goes by its status and its tally. -/
theorem takeReceipt_sent (sent : c.sent = true) : takeReceipt q m d =
    match receiptCode (leAt m.payload 0 1) (BitVec.ofNat 64 (leAt m.payload 4 8)) c.tally with
    | some code =>
      faultLink (addrEp m.src) 2 t.entry (faStream t.desc) code (sentDetail d t.links0 m.dst c 4 m.lseq) d
    | none => forronDone (addrEp m.src) i c m.lseq d := by
  simp only [takeReceipt, named, sent]
  rfl

end Transfer

/-! ## Answers to an engine's chunk, and to no chunk (R363, R365) -/

section Other
variable {d : Device} {q : Nat} {m : FMsg} (other : findFtx d (addrEp m.src) m.tag = none)
include other

section Engine
variable {die k : Nat} {c : Collective} {x : TxChunk} (engine : findEtx d (addrEp m.src) m.tag = some (die, c, k, x))
include engine

theorem takeGrant_engine (new : x.grants = []) (granted : leAt m.payload 0 1 = 0) (cond : HopCondition)
    (flit : BitVec 6) : takeGrant q m cond flit d = engineSource die c x m.sinc cond flit d := by
  simp [takeGrant, other, engine, new, granted]

theorem takeReceipt_engine (sent : x.sent = true)
    (good : receiptCode (leAt m.payload 0 1) (BitVec.ofNat 64 (leAt m.payload 4 8)) x.tally = none) :
    takeReceipt q m d =
      engineCheck die (setEngine die { c with sent := c.sent.filter fun s => s.2.2.tag ≠ m.tag } d) := by
  simp only [takeReceipt, other, engine, sent, good]
  rfl

end Engine

section Unknown
variable (unknown : findEtx d (addrEp m.src) m.tag = none)
include unknown

theorem takeGrant_unknown (cond : HopCondition) (flit : BitVec 6) :
    takeGrant q m cond flit d = logMsg q 0x0411 m d := by
  simp only [takeGrant, other, unknown]

theorem grantChunkOf_unknown : grantChunkOf d m = none := by
  simp only [grantChunkOf, other, unknown, Option.map_none]

theorem takeReceipt_unknown : takeReceipt q m d = logMsg q 0x0411 m d := by
  simp only [takeReceipt, other, unknown]

end Unknown

end Other

/-! The code of a bad RECEIPT. -/

section Code
variable {status : Nat} {sum own : BitVec 64}

theorem receiptCode_good (whole : status ≠ 2) (clean : status ≠ 1) (same : sum = own) :
    receiptCode status sum own = none := by
  simp [receiptCode, whole, clean, same]

theorem receiptCode_overrun (overrun : status = 2) : receiptCode status sum own = some 0x0403 :=
  if_pos overrun

theorem receiptCode_tally (bad : status = 1 ∨ status ≠ 2 ∧ sum ≠ own) : receiptCode status sum own = some 0x0402 := by
  have whole : status ≠ 2 := by omega
  have tally : status = 1 ∨ sum ≠ own := bad.imp_right And.right
  rw [receiptCode, if_neg whole, if_pos (by simpa using tally)]

end Code

/-! ## Deadlines (R352, R365 to R367) -/

theorem doForronDeadline_transfer {d : Device} {p : PressId} {i : Nat} {t : FTransfer}
    (named : ftransferAt d p.1 i = some t) : doForronDeadline (.transfer p i) d =
    if d.now < t.deadline then d
    else faultLink p.1 2 t.entry (faStream t.desc) 0x0401 (transferLost d p.1 t) d := by
  simp only [doForronDeadline, named]

theorem transferLost_partner (d : Device) (p : Nat) (t : FTransfer) :
    (transferLost d p t).partner = (flDest t.desc).toNat := by
  unfold transferLost
  cases t.chunks with
  | cons c l => rfl
  | nil => cases h : originPort d (p / 64) (flDest t.desc) t.nextNum <;> simp only [h]

section Lost
variable {d : Device} {p : Nat} {t : FTransfer}

/-- The record names the oldest chunk that is asked for, and its port. -/
theorem transferLost_oldest {c : TxChunk} {l : List TxChunk} (oldest : t.chunks = c :: l) :
    (transferLost d p t).port = c.port ∧ (transferLost d p t).chunk = c.num := by
  simp only [transferLost, oldest]
  exact ⟨rfl, rfl⟩

/-- Where none is asked for, the record names the next chunk. -/
theorem transferLost_next (unasked : t.chunks = []) : (transferLost d p t).chunk = t.nextNum := by
  simp only [transferLost, unasked]
  cases originPort d (p / 64) (flDest t.desc) t.nextNum <;> rfl

theorem transferLost_nextPort {k : Nat} (unasked : t.chunks = [])
    (routed : originPort d (p / 64) (flDest t.desc) t.nextNum = some k) : (transferLost d p t).port = k := by
  simp only [transferLost, unasked, routed]
  rfl

end Lost

theorem doForronDeadline_engine {d : Device} {die : Fin 2} {c : Collective}
    (running : vgetN none d.forron.engines die.1 = some c) : doForronDeadline (.engine die) d =
      if d.now < c.deadline then d
      else faultLink c.press 2 c.entry (colStream c) 0x0401 (collectiveLost d die.1 c) d := by
  simp only [doForronDeadline, running]

/-- A collective that waits for its predecessor has nothing under way to its successor. -/
theorem sent_of_waitsPred {c : Collective} (waits : waitsPred c = true) : c.sent = [] := by
  simp only [waitsPred, Bool.and_eq_true, decide_eq_true_eq] at waits
  exact waits.1

theorem collectiveLost_partner (d : Device) (die : Nat) (c : Collective) :
    (collectiveLost d die c).partner = (if waitsPred c then c.pred else c.succ).toNat := by
  unfold collectiveLost
  cases sent : c.sent with
  | nil => rfl
  | cons s l =>
    have sends : waitsPred c = false := Bool.eq_false_iff.mpr fun waits => by simp [sent_of_waitsPred waits] at sent
    rw [sends]
    rfl

/-- Settles O42: an answer by the chunk that it names, its status and its tally, a deadline by whether it has come. -/
theorem forronAnswers : Obligations.ForronAnswers := by
  unfold Obligations.ForronAnswers
  intro s n q m awake d ans ep
  refine ⟨fun taken ready => ?_, fun taken => ?_, fun p i t named => ?_, fun die c running => ?_⟩
  · have grant cond flit : exec (.forronGrant n cond flit) s = ans (spoiltGrant q cond flit m d) := by
      rw [exec_forronGrant, onDev_nextWith awake, doForronGrant_takes taken ready]
    refine ⟨fun i t c named new => ⟨fun granted d' v read => ?_, fun refused flit => ?_⟩,
      fun other => ⟨fun die c k x engine new granted => ?_, fun unknown cond flit => ?_⟩⟩
    · intro d2 l
      have source cond flit : takeGrant q m cond flit d = sendData c.port (unspoilt c.len cond flit l) d2 :=
        (takeGrant_granted named new granted cond flit).trans (forronSource_sends read m.sinc cond flit)
      refine ⟨?_, fun sw flit => ?_⟩
      · rw [grant, spoiltGrant_ok, source]
        rfl
      · intro d3 j t' c' after sent
        have taken3 : takeGrant q m (.uncorrectable sw) flit d = d3 := source _ _
        rw [grant, spoiltGrant_uncorrectable named new (taken3 ▸ after) sent, taken3]
    · rw [grant, spoiltGrant_ok, takeGrant_refused named new refused]
    · rw [grant, spoiltGrant_ok, takeGrant_engine other engine new granted]
    · rw [grant, spoiltGrant_unknown (grantChunkOf_unknown other unknown), takeGrant_unknown other unknown]
  · intro status sum
    have receipt : exec (.receipt n) s = ans (takeReceipt q m d) := by
      rw [exec_receipt, onDev_nextWith awake, doReceipt, onInbox_takes taken]
    rw [receipt]
    refine ⟨fun i t c named sent => ?_,
      fun other => ⟨fun die c k x engine sent clean whole same => ?_, fun unknown => ?_⟩⟩
    · rw [takeReceipt_sent named sent]
      refine ⟨fun clean whole same => ?_, fun bad => ?_, fun overrun => ?_⟩
      · rw [receiptCode_good whole clean same]
      · rw [receiptCode_tally bad]
      · rw [receiptCode_overrun overrun]
    · rw [takeReceipt_engine other engine sent (receiptCode_good whole clean same)]
    · rw [takeReceipt_unknown other unknown]
  · rw [exec_forronDeadline, onDev_nextWith awake, doForronDeadline_transfer named]
    refine ⟨fun early => congrArg (nextWith s) (if_pos early), fun due => ?_⟩
    exact ⟨congrArg (nextWith s) (if_neg (Nat.not_lt.mpr due)), transferLost_partner .., fun c l => transferLost_oldest,
      fun unasked => ⟨transferLost_next unasked, fun k => transferLost_nextPort unasked⟩⟩
  · rw [exec_forronDeadline, onDev_nextWith awake, doForronDeadline_engine running]
    refine ⟨fun early => congrArg (nextWith s) (if_pos early), fun due => ?_⟩
    have partner := collectiveLost_partner s.dev die.1 c
    exact ⟨congrArg (nextWith s) (if_neg (Nat.not_lt.mpr due)), rfl, fun waits => by rw [partner, if_pos waits],
      fun sends => by rw [partner, if_neg (Bool.eq_false_iff.mp sends)]⟩

/-! ## Mailbox commands (R554) -/

/-- A command of an idle mailbox that passes its checks runs. -/
theorem mailbox_runs {op : Nat} {act : Option Act} {checks : List (Bool × Nat × BitVec 16)} {d : Device}
    (idle : d.trust.cmd = none) (pass : checks.find? (·.1) = none) (run : Device → Device) :
    mailbox op act checks run d = run d := by
  simp only [mailbox, idle, pass]
  rfl

/-! The conditions of the checks. -/

section Checks
variable {d : Device}

@[simp] theorem needFirmware_fst : (needFirmware d).1 = d.trust.running.isNone := rfl
@[simp] theorem needInstaller_fst : (needInstaller d).1 = !d.trust.session := rfl
@[simp] theorem needForm_fst (ok : Bool) : (needForm ok).1 = !ok := rfl
@[simp] theorem needStore_fst : (needStore d).1 = storeBusy d := rfl
@[simp] theorem needLog_fst : (needLog d).1 = d.trust.logFails := rfl

end Checks

/-! ## Firmware (R565 to R568) -/

/-- The inactive slot's bytes once FW_LOAD has put `data` at `off`: the first load erases the slot (R565). -/
def loadedBytes (d : Device) (off : Nat) (data : List Byte) : List (Nat × Byte) :=
  let old : List (Nat × Byte) := match vgetN FwSlot.erased d.trust.slots (1 - activeSlot d) with
    | .written m => if d.trust.loading then m else []
    | _ => []
  (data.foldl (fun (a : List (Nat × Byte) × Nat) b => (smapSet 0xFF a.1 a.2 b, a.2 + 1)) (old, off)).1

/-- The action that FW_ACTIVATE logs (R570). -/
def activation (d : Device) : Act :=
  let head := slotHead (vgetN .erased d.trust.slots (1 - activeSlot d))
  ⟨5, 1 - activeSlot d, fwDetail head.1 head.2 d.trust.store.rollback.toNat⟩

/-- The device with its inactive slot made active. -/
def slotActivated (d : Device) : Device :=
  modTrust (fun t => { t with activeB := decide (1 - activeSlot d = 1), loading := false })
    (logFlushed (actDone (activation d) d))

section Firmware
variable {d : Device} {n : BitVec 14} (idle : d.trust.cmd = none) (session : d.trust.session = true)
include idle session

theorem doFwLoad_loads (aligned : leNat (mboxRead d 0 4) % 64 = 0) (nonempty : 1 ≤ leNat (mboxRead d 4 4))
    (short : leNat (mboxRead d 4 4) ≤ 8128) (whole : n.toNat = 8 + leNat (mboxRead d 4 4))
    (inside : leNat (mboxRead d 0 4) + leNat (mboxRead d 4 4) ≤ 1048576) : doFwLoad n d =
      startCmd 0x16 0 [] false (modTrust (fun t => { t with
        loading := true
        slots := vmodN t.slots (1 - activeSlot d) fun _ =>
          .written (loadedBytes d (leNat (mboxRead d 0 4)) (mboxRead d 8 (leNat (mboxRead d 4 4)))) }) d) := by
  rw [doFwLoad]
  refine (mailbox_runs idle ?_ _).trans rfl
  simp [session, aligned, nonempty, short, whole, inside]

theorem doFwActivate_activates {i : FwImage} (empty : n = 0) (good : checkSlot d (1 - activeSlot d) = .ok i)
    (durable : d.trust.logFails = false) : doFwActivate n d =
      startCmd 0x17 0 [] false (if (slotActivated d).trust.running.isNone then
        modTrust (fun t => { t with booting := some i }) (logStart i (slotActivated d)) else slotActivated d) := by
  simp only [doFwActivate, good]
  refine (mailbox_runs idle ?_ _).trans rfl
  simp [session, empty, durable]

theorem doRollback_advances {i : FwImage} (empty : n = 0) (running : d.trust.running = some i)
    (free : storeBusy d = false) (durable : d.trust.logFails = false) :
    let v := BitVec.ofNat 32 (max d.trust.store.rollback.toNat i.svn.toNat)
    doRollback n d = beginJob 0x18 ⟨5, 6, fwDetail i.version.toNat i.svn.toNat v.toNat⟩ (.rollback v) d := by
  simp only [doRollback, running]
  refine (mailbox_runs idle ?_ _).trans rfl
  simp [session, empty, running, free, durable]

end Firmware

/-! ## Sessions, store writes and the ends of commands (R336, R554, R557, R559, R560, R571) -/

section Ends
variable {d : Device}

theorem doStoreDone_count (pending : d.forron.countPending = true) (failed : d.forron.countFailed = false) (ok : Bool) :
    doStoreDone ok d =
      let d' := modTrust (writeItems [7] (fun s => { s with powerOns := nextCount s.powerOns }) ok) d
      if ok then trainAll (modForron (fun f => { f with countPending := false }) d')
      else logPlain unitTrust 0x0908 0 (modForron (fun f => { f with countFailed := true }) d') := by
  simp only [doStoreDone, pending, failed]
  rfl

theorem doStoreDone_job (counted : d.forron.countPending = false ∨ d.forron.countFailed = true) {j : StoreJob}
    (job : d.trust.job = some j) (ok : Bool) : doStoreDone ok d = endJob j ok d := by
  have later : (d.forron.countPending && !d.forron.countFailed) = false := by
    obtain uncounted | failed := counted
    · simp [uncounted]
    · simp [failed]
  simp only [doStoreDone, later, job]
  rfl

theorem doMailboxDone_waits {c : MboxCmd} (runs : d.trust.cmd = some c) (store : c.store = true) :
    doMailboxDone d = d := by
  simp only [doMailboxDone, runs, store, if_true]

theorem doMailboxDone_posts {c : MboxCmd} (runs : d.trust.cmd = some c) (done : c.store = false) :
    doMailboxDone d = modTrust (fun t =>
      { t with cmd := none, result := c.code, outLen := BitVec.ofNat 14 c.output.length,
               mbox := mboxPut c.output t.mbox }) d := by
  simp only [doMailboxDone, runs, done]
  rfl

end Ends

/-- Settles O57: the firmware commands by their checks, and each end by what is in progress. -/
theorem firmwareAndStore : Obligations.FirmwareAndStore := by
  unfold Obligations.FirmwareAndStore
  intro s n awake d
  refine ⟨fun free idle session => ⟨?_, fun i empty good durable => ?_, fun i empty running unbusy durable => ?_⟩,
    fun ended => ?_, fun lasts => ?_, fun pending failed ok => ?_, fun counted j job => ?_, fun items g t => ⟨rfl, rfl⟩,
    fun running => ?_, fun ok => ?_, fun c runs => ⟨fun store => ?_, fun done => ?_⟩⟩
  · intro off len x aligned nonempty short whole inside
    rw [exec_fwLoad, onHost_free awake free, doFwLoad_loads idle session aligned nonempty short whole inside]
    rfl
  · rw [exec_fwActivate, onHost_free awake free, doFwActivate_activates idle session empty good durable]
    rfl
  · rw [exec_rollbackAdvance, onHost_free awake free, doRollback_advances idle session empty running unbusy durable]
  · rw [exec_sessionExpired, onDev_nextWith awake, doSessionExpired, if_pos ended]
  · rw [exec_sessionExpired, onDev_nextWith awake, doSessionExpired, if_neg lasts]
  · rw [exec_storeWriteDone, onDev_nextWith awake, doStoreDone_count pending failed]
  · rw [exec_storeWriteDone, exec_storeWriteDone, onDev_nextWith awake, onDev_nextWith awake,
      doStoreDone_job counted job, doStoreDone_job counted job]
    exact ⟨rfl, rfl⟩
  · rw [exec_identityDerived, onDev_nextWith awake, doIdentity, if_pos running]
  · rw [exec_logEntryDurable, onDev_nextWith awake, doLogDurable]
  · rw [exec_mailboxCommandDone, onDev_nextWith awake, doMailboxDone_waits runs store]
  · rw [exec_mailboxCommandDone, onDev_nextWith awake, doMailboxDone_posts runs done]

end Sys2Proof.Machine
end

section
/-!
PROOFS of the family 11_fount: tree windows, the beats of region ports and direct feeds, feed maps, and the hold of a partial
load's regions, by which the statement about the stream's commands and release fails. The lemmas that say what each operation
does stand before the obligation that they settle.
-/
namespace Sys2Proof.Machine

/-! ## Tree windows (R405, R407) -/

theorem doTreeWindow_eq (t edges : Nat) (cycles : List QuadCycle) (user : List UserEdge) (d : Device) :
    doTreeWindow t edges cycles user d =
      let d1 := cycles.foldl (fun d c => if crossTree d c.quad.1 crossQuad = t then quadCycle c d else d) d
      let e := if treeDriven d1 t then edges else 0
      modFount (fun f =>
        { f with treeRun := setField f.treeRun t t (b2n (decide (e ≠ 0))),
                 treeOver := if 130 < e then setField f.treeOver t t 1 else f.treeOver,
                 isoOver := setField f.isoOver t t (b2n (decide (130 < e))),
                 isoTail := setField f.isoTail t t (b2n (!decide (130 < e) && bit f.isoOver t)) })
        (if e ≠ 0 then user.foldl (userEdge t) d1 else d1) := by
  simp only [doTreeWindow, decide_eq_true_eq]

/-! ## The beats of an open region port (R409 to R411, R473) -/

section Port
variable {d : Device} {r : Nat} (opened : regionShut d r = false)
include opened

/-- User logic accepts the next beat of the oldest chunk: the last one ends the chunk. -/
theorem doIwBeat_presented {u : PortPush} {rest : List PortPush} {last : Bool}
    (front : (regionPort d r).pushes = u :: rest) (unheld : behindRead (regionPort d r) u = false)
    (ends : decide (u.data.length ≤ 128 * (u.beats + 1)) = last) :
    doIwBeat r d =
      if last then pushDone r u (modPort r (fun x => { x with pushes := rest }) (emit (pushBeat r u last) d))
      else modPort r (fun x => { x with pushes := { u with beats := u.beats + 1 } :: rest })
        (emit (pushBeat r u last) d) := by
  simp only [doIwBeat, front, opened, unheld, ends]
  rfl

theorem doRqAccept_next {i : Nat} {u : PortRead} (room : ((regionPort d r).reads.filter (·.accepted)).length < 8)
    (next : findIdx? (fun u => !u.accepted) (regionPort d r).reads = some i)
    (request : (regionPort d r).reads[i]? = some u) :
    doRqAccept r d =
      if behindWrite (regionPort d r) u then d
      else emit (.rqAccepted r u.chan u.stream u.addr u.units)
        (modPort r (fun x => { x with reads := x.reads.set i { u with accepted := true } }) d) := by
  simp only [doRqAccept, opened, Nat.not_le.mpr room, next, request]
  rfl

theorem doRdBeat_surplus (surplus : (regionPort d r).surplus = true) (b : ReadBeat) :
    doRdBeat r b d = if b.last then modPort r (fun x => { x with surplus := false }) d else d := by
  simp only [doRdBeat, opened, surplus]
  rfl

section Read
variable {i : Nat} {u : PortRead} (answered : (regionPort d r).surplus = false)
  (oldest : findIdx? (fun u => u.accepted) (regionPort d r).reads = some i)
  (request : (regionPort d r).reads[i]? = some u) (b : ReadBeat)
include answered oldest request

theorem doRdBeat_fills (short : (u.data ++ leBytes 128 b.data.toNat).length < 128 * ((u.units + 1) / 2)) :
    doRdBeat r b d =
      let u' := { u with data := u.data ++ leBytes 128 b.data.toNat }
      let d' := modPort r (fun x => { x with reads := x.reads.set i u' }) d
      if decide (b.par = beatParity b.data) then d' else readBad r u' d' := by
  simp only [doRdBeat, opened, answered, oldest, request, short]
  rfl

theorem doRdBeat_completes (whole : 128 * ((u.units + 1) / 2) ≤ (u.data ++ leBytes 128 b.data.toNat).length) :
    doRdBeat r b d =
      let u' := { u with data := u.data ++ leBytes 128 b.data.toNat }
      let d' := modPort r (fun x => { x with reads := removeAt x.reads i, surplus := !b.last }) d
      if decide (b.par = beatParity b.data) then readDone r u' d' else readBad r u' d' := by
  simp only [doRdBeat, opened, answered, oldest, request, Nat.not_lt.mpr whole]
  rfl

end Read

end Port

/-! ## Feed beats and feed maps (R412 to R414, R421, R509) -/

section Feed
variable {d : Device} {k p : Nat} {pl : PlatenId} {o : PassOp}

/-- The FEED that holds an open feed takes its beat, or, where none does, the one that claims it. -/
theorem doFeedBeat_taken (opened : feedOpen d k = true)
    (takes : feedHolder d k = some (p, pl, o) ∨ feedHolder d k = none ∧ feedClaim d k = some (p, pl, o)) (v : BitVec 4096) :
    doFeedBeat k v d = feedTake k p pl o v d := by
  obtain holds | ⟨unheld, claims⟩ := takes
  · simp [doFeedBeat, opened, holds]
  · simp [doFeedBeat, opened, unheld, claims]

theorem feedTake_fenced (closed : fenced d p = true) (v : BitVec 4096) :
    feedTake k p pl o v d = emit (.fdFlush k) d := by
  rw [feedTake, if_pos closed]

section InService
variable (served : fenced d p = false) (v : BitVec 4096)
include served

theorem feedTake_data {f : Fmt} {l : List Byte} (format : o.feedFmt = some f) (run : o.runLeads = some l)
    (feeds : o.phase = .feeding) : feedTake k p pl o v d = dataBeat p pl o f l v d := by
  simp [feedTake, served, format, run, feeds]

theorem feedTake_leads (ended : o.runLeads = none) : feedTake k p pl o v d = leadBeat p pl o v d := by
  simp [feedTake, served, ended]

end InService

/-- A map is kept for its feed where it names a region there is and, if it connects, an output that no other feed of the die
has or will have. -/
theorem doFeedMapWrite_kept {v : Word} (region : fieldN (v &&& 0x8000001F#32) 3 0 < 12)
    (unnamed : bit (v &&& 0x8000001F#32) 31 = true → ∀ j, j < 32 → j ≠ k → j / 16 = k / 16 →
      ∀ m, m = feedMapOf d j ∨ m = vgetN 0 d.fount.feedMap j → bit m 31 = true →
        fieldN m 4 0 ≠ fieldN (v &&& 0x8000001F#32) 4 0) :
    doFeedMapWrite k v d =
      modFount (fun f => { f with feedNext := vmodN f.feedNext k fun _ => some (v &&& 0x8000001F#32) }) d := by
  rw [doFeedMapWrite]
  refine if_neg fun refused => ?_
  simp only [Bool.or_eq_true, Bool.and_eq_true, decide_eq_true_eq, List.any_eq_true, List.mem_range] at refused
  obtain absent | ⟨connects, j, inside, ⟨other, die⟩, names⟩ := refused
  · exact Nat.not_le.mpr region absent
  · obtain ⟨on, same⟩ | ⟨on, same⟩ := names
    · exact unnamed connects j inside other die _ (.inl rfl) on same
    · exact unnamed connects j inside other die _ (.inr rfl) on same

end Feed

/-- Settles O44: each crossing by its operation's branches, a window, a port's beats by the oldest chunk or request, a feed's
beat by the FEED that takes it. -/
theorem crossingsPassBeats : Obligations.CrossingsPassBeats := by
  unfold Obligations.CrossingsPassBeats
  intro s r awake d
  refine ⟨fun t edges cycles user => ?_, fun k l => ?_, fun free => ?_,
    fun opened => ⟨fun u rest front unheld => ⟨fun more => ?_, fun last => ?_⟩, fun i u room next request => ?_⟩,
    fun opened b => ⟨fun surplus => ?_, fun answered i u oldest request => ⟨fun short => ?_, fun whole => ?_⟩⟩,
    fun k v opened p pl o takes => ?_, fun k v => ?_⟩
  · rw [exec_treeWindow, onDev_nextWith awake, doTreeWindow_eq]
  · rw [exec_fountPllLock, onDev_nextWith awake, doPllLock]
  · rw [exec_ftClearCounts, onHost_free awake free, doFtClearCounts]
  · rw [exec_iwBeat, onDev_nextWith awake, doIwBeat_presented opened front unheld rfl, if_neg (ne_true_of_eq_false more)]
  · rw [exec_iwBeat, onDev_nextWith awake, doIwBeat_presented opened front unheld rfl, if_pos last]
  · rw [exec_rqAccept, onDev_nextWith awake, doRqAccept_next opened room next request]
  · rw [exec_rdBeat, onDev_nextWith awake, doRdBeat_surplus opened surplus]
  · rw [exec_rdBeat, onDev_nextWith awake, doRdBeat_fills opened answered oldest request b short]
  · rw [exec_rdBeat, onDev_nextWith awake, doRdBeat_completes opened answered oldest request b whole]
  · rw [exec_feedBeat, onDev_nextWith awake, doFeedBeat_taken opened takes]
    refine ⟨fun closed => ?_, fun served => ⟨fun f l format run feeds => ?_, fun ended => ?_⟩⟩
    · rw [feedTake_fenced closed]
    · rw [feedTake_data served v format run feeds]
    · rw [feedTake_leads served v ended]
  · intro w free region unnamed
    rw [exec_feedMapWrite, onHost_free awake free, doFeedMapWrite_kept region unnamed]

/-! ## A hold begins at the sheet's start (R438, R448) -/

section Hold
variable {d : Device} (holds : d.cf.holdNext ≠ 0) (due : sheetAfter d d.cf.holdSheet = true)
include holds due

theorem doRegionsHeld_due : doRegionsHeld d = modCf (fun c =>
    { c with held := c.held ||| c.holdNext, discardNext := c.discardNext &&& ~~~c.holdNext,
             wokenNext := c.wokenNext &&& ~~~c.holdNext, holdNext := 0 }) d := by
  rw [doRegionsHeld, if_pos (by simpa [due] using holds)]

/-- A hold drops the waiting release of its regions, and of no others. -/
theorem doRegionsHeld_discardNext : (doRegionsHeld d).cf.discardNext = d.cf.discardNext &&& ~~~d.cf.holdNext := by
  rw [doRegionsHeld_due holds due]
  rfl

end Hold

/-- In a calm device nothing follows, so that answers are told apart by their devices. -/
theorem eq_of_nextWith_eq {s : State} {d d' : Device} (same : nextWith s d = nextWith s d') (calmed : calm d = true)
    (calmed' : calm d' = true) : d = d' := by
  simpa [nextWith, settled_of_calm calmed, settled_of_calm calmed'] using same

@[simp] theorem calm_modCf (g : Conf → Conf) (d : Device) : calm (modCf g d) = calm d := rfl

/-- Point 0 of sheet 1. In sheet 0 a partial load of region 0 was discarded, so that a release of the region waits, and a new
one of the same region was accepted, so that its hold waits too. -/
def reloadedAtOnce : Device :=
  modCf (fun c => { c with regions := 0xFFFFFF, held := 1, state := .loadPartial, load := some { accepted := true, bound := 1 },
                           holdNext := 1, discardNext := 1 })
    (modTime (fun t => { t with count := 4096 }) Device.reset)

theorem calm_reloadedAtOnce : calm reloadedAtOnce = true := by
  rw [reloadedAtOnce, calm_modCf]
  decide +kernel

/-- Refutes O46: its clause for PARTIAL_REGIONS_HELD keeps `discardNext`, but a hold that begins drops the release that still waits
for its regions (R438, R448). Region 0 of `reloadedAtOnce` has both. -/
theorem not_streamAndRelease : ¬ Obligations.StreamAndRelease := by
  unfold Obligations.StreamAndRelease
  intro stated
  have awake : asleep reloadedAtOnce = false := by decide +kernel
  have holds : reloadedAtOnce.cf.holdNext ≠ 0 := by decide
  have due : sheetAfter reloadedAtOnce reloadedAtOnce.cf.holdSheet = true := by decide
  obtain ⟨-, -, -, -, -, -, -, -, held, -⟩ := stated ⟨reloadedAtOnce, []⟩ awake
  have answers := held holds (by decide) (by decide)
  rw [exec_partialRegionsHeld, onDev_nextWith awake] at answers
  have same := eq_of_nextWith_eq answers (by rw [doRegionsHeld_due holds due]; exact calm_reloadedAtOnce)
    calm_reloadedAtOnce
  have dropped := doRegionsHeld_discardNext holds due
  rw [same] at dropped
  exact absurd dropped (by decide)

end Sys2Proof.Machine
end

section
/-!
PROOFS of the families 12_configuration to 16_roles_and_trust: a ticket's sheet field and the state after reset, loads of the
fount, capture and readback, rings and the host link, the recovery of a press, power states, domains and budgets, and the
mailbox. The lemmas that say what each operation does stand before the obligation that they settle.
-/
namespace Sys2Proof.Machine

/-! ## The sheet that a field names (R478) -/

/-- The integer of R478: congruent to `field`, and within half a turn of the current sheet. -/
def sheetNamed (now field : Nat) : Int := now - 2 ^ 31 + (field - now + 2 ^ 31) % 2 ^ 32

theorem sheetNamed_congr {field : Nat} (now : Nat) (short : field < 2 ^ 32) : sheetNamed now field % 2 ^ 32 = field := by
  unfold sheetNamed
  omega

theorem sub_le_sheetNamed (now field : Nat) : (now : Int) - 2 ^ 31 ≤ sheetNamed now field := by
  unfold sheetNamed
  omega

theorem sheetNamed_le (now field : Nat) : sheetNamed now field ≤ (now : Int) + 2 ^ 31 - 1 := by
  unfold sheetNamed
  omega

theorem sheetNamed_unique {now field : Nat} {n : Int} (named : n % 2 ^ 32 = field) (low : (now : Int) - 2 ^ 31 ≤ n)
    (high : n ≤ (now : Int) + 2 ^ 31 - 1) : n = sheetNamed now field := by
  unfold sheetNamed
  omega

theorem fullSheet_eq_sheetNamed {now field : Nat} (short : field < 2 ^ 32) (sheet : 0 ≤ sheetNamed now field) :
    (fullSheet now field : Int) = sheetNamed now field := by
  unfold sheetNamed at sheet ⊢
  simp only [fullSheet]
  split <;> omega

/-- Settles O7: the sheet named is the one of the residue class in its window, and `fullSheet` computes it. -/
theorem fullSheetNumber : Obligations.FullSheetNumber := by
  unfold Obligations.FullSheetNumber
  intro now field short
  exact ⟨sheetNamed now field, sheetNamed_congr now short, sub_le_sheetNamed now field, sheetNamed_le now field,
    fun n => sheetNamed_unique, fullSheet_eq_sheetNamed short⟩

/-! ## After a device reset (R594) -/

theorem vgetN_ofFn {α : Type} {n i : Nat} (dflt : α) (f : Fin n → α) (h : i < n) :
    vgetN dflt (Vector.ofFn f) i = f ⟨i, h⟩ := by
  simp [vgetN, h]

theorem domain_reset {n : Nat} (h : n < 204) : domain Device.reset n = resetDomain .xg9480 n := vgetN_ofFn _ _ h

theorem stack_reset {n : Nat} (h : n < 8) : stack Device.reset n = resetStack .xg9480 n := vgetN_ofFn _ _ h

theorem forme_reset (f : Nat) : forme Device.reset f = {} := vgetN_replicate 16 ({} : Forme) f

/-- No unit of an XG9480 is absent. -/
theorem domainPresent_xg9480 {n : Nat} (h : n < 204) : domainPresent .xg9480 n = true := by
  simp only [domainPresent, stackPresent, quadPresent]
  split
  · rfl
  · split
    · exact decide_eq_true (by omega)
    · split
      · exact decide_eq_true (by omega)
      · exact decide_eq_true h

theorem dstate_resetDomain {n : Nat} (h : n < 204) :
    (resetDomain .xg9480 n).dstate = if n < 128 then .off else .on := by
  rw [resetDomain, if_pos (domainPresent_xg9480 h)]
  split <;> rfl

theorem resetStack_present {n : Nat} (h : n < 8) : resetStack .xg9480 n =
    { state := .filling, point := BitVec.ofNat 12 (0x200 * n), slotPoint := BitVec.ofNat 12 (0x200 * n) } :=
  if_pos (decide_eq_true h)

/-- Settles O5: the registers by their reset values, the domains, formes and stacks each by its own. -/
theorem resetState : Obligations.ResetState := by
  unfold Obligations.ResetState
  refine ⟨rfl, rfl, ⟨rfl, rfl, rfl, rfl⟩, ⟨rfl, rfl, rfl, rfl, rfl, rfl⟩, ⟨rfl, rfl, rfl, rfl⟩,
    ⟨rfl, rfl, rfl, rfl, rfl, rfl, rfl⟩, fun n inside => ?_, ⟨rfl, rfl, rfl, rfl, rfl⟩, ⟨rfl, rfl, rfl, rfl⟩,
    fun f _ => ?_, fun n inside => ?_⟩
  · exact (congrArg Domain.dstate (domain_reset inside)).trans (dstate_resetDomain inside)
  · exact ⟨congrArg Forme.state (forme_reset f), congrArg Forme.filling (forme_reset f)⟩
  · have eq : stack State.reset.dev n = _ := (stack_reset inside).trans (resetStack_present inside)
    rw [eq]
    exact ⟨rfl, rfl, rfl, rfl⟩

/-! ## The port and its stream (R424, R425, R443, R449) -/

@[simp] theorem logAct_running (action role outcome : Nat) (code : BitVec 16) (source target : Nat) (detail : BitVec 256)
    (d : Device) : (logAct action role outcome code source target detail d).trust.running = d.trust.running := by
  simp only [logAct, logAppend, modTrust_trust]
  split
  · rfl
  · split <;> rfl

theorem withRight_allowed {r : Requester} {d : Device} {right : Bool} (allowed : right = true) (addr : Nat) (v : Word)
    (act : Device → Device) : withRight right r addr v act d =
      act (logAct 1 (reqRole d r) 0 0 (reqSource r) addr (BitVec.ofNat 256 v.toNat) d) :=
  if_pos allowed

theorem doCfBegin_allowed {d : Device} {r : Requester} (right : lockable d r 0 = true)
    (running : d.trust.running.isSome = true) : doCfBegin r d =
      let d' := logAct 1 (reqRole d r) 0 0 (reqSource r) 0xD00000 1 d
      if portBusy d.cf then logConf 0x030C {} d'
      else modCf (fun c => { c with load := some { role := reqRole d' r, source := reqSource r, lastWord := d'.now },
                                    state := .opened, words := 0 }) d' := by
  rw [doCfBegin, withRight_allowed right, if_neg (by simpa using Option.isSome_iff_ne_none.mp running)]
  rfl

theorem doDoneRelease_unloaded {d : Device} (unconfigured : d.cf.regions = 0) (closed : d.cf.load = none)
    (driven : d.cf.doneDriven = true) :
    doDoneRelease d = emit (.cfDone false) (modCf (fun c => { c with doneDriven := false }) d) := by
  simp only [doDoneRelease, unconfigured, closed, driven]
  rfl

/-- A word of the stream that `g` puts in its place. -/
def wordTaken (g : Load → Load) (d : Device) : Device :=
  modLoad (fun l => { g l with lastWord := d.now }) (modCf (fun c => { c with words := satAdd c.words 1 }) d)

section Stream
variable {d : Device} {l : Load} (opened : d.cf.load = some l)
include opened

theorem doStreamWord_partial (w : Word) : doStreamWord w false d = endLoad 0x0308 none d := by
  simp only [doStreamWord, opened]
  rfl

section Takes
variable (going : l.ended = false) (image : noImage d = false) (w : Word)
include going image

theorem doStreamWord_header (header : l.header.length < 1024) : doStreamWord w true d =
    let d1 := wordTaken (fun l => { l with header := l.header ++ leBytes 4 w.toNat }) d
    if l.header.length + 4 < 1024 then d1 else modCf (fun c => { c with state := .verifying }) d1 := by
  simp only [doStreamWord, opened, going, image, header]
  rfl

theorem doStreamWord_buffer (header : 1024 ≤ l.header.length) (room : l.buf.length < 16384) :
    doStreamWord w true d = wordTaken (fun l => { l with buf := l.buf ++ [w] }) d := by
  simp only [doStreamWord, opened, going, image, Nat.not_lt.mpr header, room]
  rfl

theorem doStreamWord_waits (header : 1024 ≤ l.header.length) (full : 16384 ≤ l.buf.length) :
    doStreamWord w true d = holdLink (.row (.streamWord w true)) d := by
  simp only [doStreamWord, opened, going, image, Nat.not_lt.mpr header, Nat.not_lt.mpr full]
  rfl

end Takes

theorem doLoadTruncated_late (going : l.ended = false) (late : l.lastWord + 2684355 ≤ d.now) :
    doLoadTruncated d = endLoad 0x0302 none d := by
  have due : l.lastWord + truncPoints ≤ d.now := late
  simp only [doLoadTruncated, opened, going, due]
  rfl

end Stream

/-! ## The header and the end of a load (R428, R429, R439 to R445, R450) -/

theorem doClearingDone_clearing {d : Device} (clearing : d.cf.state = .clearing) : doClearingDone d =
    if d.cf.clearFailed then
      modCf (fun c => { c with load := none, clearFailed := false, state := .unconfigured }) d
    else modCf (fun c => { c with state := .loadFull }) d :=
  if_neg (not_not.mpr clearing)

theorem doHeaderAccepted_checks {d : Device} {l : Load} (opened : d.cf.load = some l) (whole : d.cf.state = .verifying)
    (image : noImage d = false) : doHeaderAccepted d =
      match headerFault d l.header with
      | some c => endLoad c none (headerLog d l (some c))
      | none => acceptHeader l (headerLog d l none) := by
  simp only [doHeaderAccepted, opened, whole, image]
  cases headerFault d l.header <;> rfl

/-- Where every PLL that drives a tree has locked, a full load is complete with no record (R442). -/
theorem doFullComplete_locked {d : Device} {l : Load} (opened : d.cf.load = some l) (full : l.full = true)
    (ended : l.ended = true) (loading : d.cf.state = .loadFull)
    (locked : ∀ k ∈ drivingPlls d.cf, bit d.fount.pllLock k = true) :
    doFullComplete d = emit (.cfDone false) (modCf (fun c =>
      { c with state := .waitPeers, doneDriven := false, doneSheet := d.sheet, lineSheet := none }) d) := by
  have slow : (drivingPlls d.cf).filter (fun k => !bit d.fount.pllLock k) = [] := by simpa using locked
  simp only [doFullComplete, opened, full, ended, loading, slow]
  rfl

theorem onCommand_next {op : Nat} {d : Device} {l : Load} {w : Word} {rest : List Word} (runs : loadRuns d = some l)
    (between : l.run = none) (next : l.buf = w :: rest) (named : fieldN w 31 24 = op)
    (act : Load → Word → Device → Device) : onCommand op act d = act l w d := by
  simp only [onCommand, runs, between, next, named, if_true]

section End
variable {d : Device} {l : Load} {w : Word} {rest : List Word} (runs : loadRuns d = some l) (between : l.run = none)
  (next : l.buf = w :: rest) (named : fieldN w 31 24 = 6) (zero : fieldN w 23 0 = 0) (units : l.units ≠ 0)
  (whole : 7 ≤ l.buf.length)
include runs between next named zero units whole

theorem doEnd_checks : doEnd_ d =
    let l' := takeClear 3 l
    if segTag l' ≠ wordsBytes ((l.buf.drop 3).take 4) then endLoad 0x030A none d
    else if l'.tally.toNat ≠ leNat (wordsBytes ((l.buf.drop 1).take 2)) then endLoad 0x030B none d
    else if l'.full && !((List.range 8).all (pllOutputsOk (mergedWregs d.cf.wregs l'.wregs))) then endLoad 0x0308 none d
    else completeLoad l' d := by
  rw [doEnd_, onCommand_next runs between next named, if_neg (by simp [zero, units]), if_neg (Nat.not_lt.mpr whole)]

theorem doEnd_badTag (bad : segTag (takeClear 3 l) ≠ wordsBytes ((l.buf.drop 3).take 4)) :
    doEnd_ d = endLoad 0x030A none d :=
  (doEnd_checks runs between next named zero units whole).trans (if_pos bad)

theorem doEnd_verified (tag : segTag (takeClear 3 l) = wordsBytes ((l.buf.drop 3).take 4))
    (sum : (takeClear 3 l).tally.toNat = leNat (wordsBytes ((l.buf.drop 1).take 2)))
    (plls : (takeClear 3 l).full = true →
      (List.range 8).all (pllOutputsOk (mergedWregs d.cf.wregs (takeClear 3 l).wregs)) = true) :
    doEnd_ d = completeLoad (takeClear 3 l) d := by
  refine (doEnd_checks runs between next named zero units whole).trans ?_
  simp only [tag, sum, ne_eq, not_true, if_false]
  refine if_neg fun bad => ?_
  simp only [Bool.and_eq_true, Bool.not_eq_true'] at bad
  obtain ⟨full, wrong⟩ := bad
  exact Bool.eq_false_iff.mp wrong (plls full)

end End

/-- Settles O45: the opening by the port, a stream word by the place it goes to, the header and END by their checks. -/
theorem loadsOpenAndEnd : Obligations.LoadsOpenAndEnd := by
  unfold Obligations.LoadsOpenAndEnd
  intro s awake d
  refine ⟨fun r free right running => ⟨fun busy => ?_, fun idle => ?_⟩, fun free => ?_,
    fun free unconfigured closed driven => ?_, fun clearing => ⟨fun good => ?_, fun failed => ?_⟩,
    fun w whole bad busy => ?_,
    fun l opened => ⟨fun free w => ?_, fun going => ⟨fun free image w => ⟨fun short => ?_, fun short last => ?_,
      fun header room => ?_, fun header full => ?_⟩, fun late => ?_⟩,
      fun whole image => ⟨fun good => ?_, fun c fault => ?_⟩, fun full ended loading locked => ?_⟩,
    fun l w rest runs between next named zero units whole => ⟨fun tag sum plls => ?_, fun bad => ?_⟩⟩
  · rw [exec_cfBegin, onSource_of_free awake free, doCfBegin_allowed right running]
    exact congrArg (nextWith s) (if_pos busy)
  · rw [exec_cfBegin, onSource_of_free awake free, doCfBegin_allowed right running]
    exact congrArg (nextWith s) (if_neg (Bool.eq_false_iff.mp idle))
  · rw [exec_cfAbort, onHost_free awake free, doCfAbort]
  · rw [exec_cfDoneRelease, onHost_free awake free, doDoneRelease_unloaded unconfigured closed driven]
  · rw [exec_clearingDone, onDev_nextWith awake, doClearingDone_clearing clearing, if_neg (Bool.eq_false_iff.mp good)]
  · rw [exec_clearingDone, onDev_nextWith awake, doClearingDone_clearing clearing, if_pos failed]
  · rw [exec_streamWord, onHost_busy awake busy]
  · rw [exec_streamWord, onHost_free awake free, hostWrite_clean, doStreamWord_partial opened]
  · rw [exec_streamWord, onHost_free awake free, hostWrite_clean, doStreamWord_header opened going image w (by omega)]
    exact congrArg (nextWith s) (if_pos short)
  · rw [exec_streamWord, onHost_free awake free, hostWrite_clean, doStreamWord_header opened going image w short]
    exact congrArg (nextWith s) (if_neg (Nat.not_lt.mpr last))
  · rw [exec_streamWord, onHost_free awake free, hostWrite_clean, doStreamWord_buffer opened going image w header room]
    rfl
  · rw [exec_streamWord, onHost_free awake free, hostWrite_clean, doStreamWord_waits opened going image w header full]
  · rw [exec_loadTruncated, onDev_nextWith awake, doLoadTruncated_late opened going late]
  · rw [exec_headerAccepted, onDev_nextWith awake, doHeaderAccepted_checks opened whole image, good]
  · rw [exec_headerAccepted, onDev_nextWith awake, doHeaderAccepted_checks opened whole image, fault]
  · rw [exec_fullLoadComplete, onDev_nextWith awake, doFullComplete_locked opened full ended loading locked]
  · rw [exec_endCmd, onDev_nextWith awake, doEnd_verified runs between next named zero units whole tag sum plls]
  · rw [exec_endCmd, onDev_nextWith awake, doEnd_badTag runs between next named zero units whole bad]

/-! ## Capture (R451 to R454) -/

/-- The device with the tree of a capture written. -/
def treeChosen (t : Nat) : Device → Device := modCf fun c => { c with capTree := BitVec.ofNat 5 t }

section Start
variable {d : Device} {t : Nat}

theorem doCaptureStart_eq : doCaptureStart t d =
    match captureFault (treeChosen t d).cf t (treeChosen t d).cf.capRegions with
    | some c => logConf c (capDetail (treeChosen t d).cf.capRegions) (treeChosen t d)
    | none => modCf (fun c =>
        { c with capState := .armed, capHeld := c.capRegions, capArmTree := BitVec.ofNat 5 t,
                 capTrigger := 2 ^ 32 * c.capAtHi.toNat + c.capAtLo.toNat }) (treeChosen t d) := rfl

theorem doCaptureStart_refused {c : BitVec 16}
    (fault : captureFault (treeChosen t d).cf t (treeChosen t d).cf.capRegions = some c) :
    doCaptureStart t d = logConf c (capDetail (treeChosen t d).cf.capRegions) (treeChosen t d) := by
  simp only [doCaptureStart_eq, fault]

theorem doCaptureStart_arms (good : captureFault (treeChosen t d).cf t (treeChosen t d).cf.capRegions = none) :
    doCaptureStart t d = modCf (fun c =>
      { c with capState := .armed, capHeld := c.capRegions, capArmTree := BitVec.ofNat 5 t,
               capTrigger := 2 ^ 32 * c.capAtHi.toNat + c.capAtLo.toNat }) (treeChosen t d) := by
  simp only [doCaptureStart_eq, good]

end Start

section Capture
variable {d : Device}

section Armed
variable (armed : d.cf.capState = .armed)
include armed

theorem doCaptureEdge_due (due : d.cf.capTrigger ≤ d.now) (moves : treeMoves d d.cf.capArmTree.toNat = true) :
    doCaptureEdge d = modCf (fun c => { takeCapture c.capHeld d c with capState := .copying }) d :=
  if_pos (by simp [armed, due, moves])

theorem doCaptureTimeout_late (late : d.cf.capTrigger + 2684355 ≤ d.now) : doCaptureTimeout d =
    modCf (fun c => { c with capState := .timedOut, capHeld := 0 }) (logConf 0x0313 (capDetail d.cf.capHeld) d) := by
  have due : d.cf.capTrigger + truncPoints ≤ d.now := late
  exact if_pos (by simp [armed, due])

end Armed

theorem doCaptureEdge_early (early : d.now < d.cf.capTrigger) : doCaptureEdge d = d :=
  if_neg (by simp [Nat.not_le.mpr early])

theorem doCaptureCancel_cancels (going : d.cf.capState = .armed ∨ d.cf.capState = .copying) :
    doCaptureCancel d = modCf cancelCapture d :=
  if_pos (by simpa using going)

end Capture

/-! ## Clock stop and the frame check (R455, R457, R463) -/

theorem sheetAfter_of_later {d : Device} {n : Nat} (start : d.point = 0) (later : n < d.sheet) :
    sheetAfter d n = true := by
  simp [sheetAfter, start, later]

section Stop
variable {d : Device} (due : sheetAfter d d.cf.stopSheet = true)
include due

theorem doFountStopped_due (asked : d.cf.stop = true) (running : d.cf.stopped = false) : doFountStopped d =
    modCf (fun c => { c with stopped := true, held := c.held ||| c.regions }) d :=
  if_pos (by simp [asked, running, due])

theorem doFountResumed_due (ended : d.cf.stop = false) (stopped : d.cf.stopped = true) : doFountResumed d =
    modCf (fun c => { releaseOutputs (c.regions &&& ~~~(loadShadows c)) c with stopped := false }) d :=
  if_pos (by simp [ended, stopped, due])

end Stop

theorem doFrameCheck_on {d : Device} (on : d.cf.frameCheck = true) : doFrameCheck d =
    let n := d.cf.sweep
    let d' := modCf (fun c => { c with sweep := (n + 1) % frameCount }) d
    if smapGet 0 d.cf.badChecks n = 0 then d'
    else logConf 0x0316 { frame := linearFar n }
      (modCf (fun c => { c with upset := true, upsetFrame := BitVec.ofNat 20 (linearFar n) }) d') :=
  if_neg (by simp [on])

/-- Settles O47: a capture by its state, clock stop by the sheet, the other commands by their own equations. -/
theorem captureAndReadback : Obligations.CaptureAndReadback := by
  unfold Obligations.CaptureAndReadback
  intro s awake d
  refine ⟨fun free t => ⟨fun c fault => ?_, fun good => ?_⟩,
    fun armed => ⟨fun due moves => ?_, fun early => ?_, fun late => ?_⟩, fun copying => ?_, fun free held => ?_,
    fun free going => ?_, fun free v => ?_,
    fun start later => ⟨fun asked running => ?_, fun ended stopped => ?_⟩, fun free v => ?_, fun on => ?_,
    fun free => ?_⟩
  · rw [exec_captureStart, onHost_free awake free, doCaptureStart_refused fault]
    rfl
  · rw [exec_captureStart, onHost_free awake free, doCaptureStart_arms good]
    rfl
  · rw [exec_captureEdge, onDev_nextWith awake, doCaptureEdge_due armed due moves]
  · rw [exec_captureEdge, onDev_nextWith awake, doCaptureEdge_early early]
  · rw [exec_captureTimeout, onDev_nextWith awake, doCaptureTimeout_late armed late]
  · rw [exec_captureCopyDone, onDev_nextWith awake, doCaptureCopied, if_pos copying]
  · rw [exec_captureRelease, onHost_free awake free, doCaptureRelease, if_pos held]
    rfl
  · rw [exec_captureCancel, onHost_free awake free, doCaptureCancel_cancels going]
    rfl
  · rw [exec_clockStopWrite, onHost_free awake free, doClockStop]
  · rw [exec_fountStopped, onDev_nextWith awake, doFountStopped_due (sheetAfter_of_later start later) asked running]
  · rw [exec_fountResumed, onDev_nextWith awake, doFountResumed_due (sheetAfter_of_later start later) ended stopped]
  · rw [exec_readSelWrite, onHost_free awake free, doReadSel]
  · rw [exec_frameCheck, onDev_nextWith awake, doFrameCheck_on on]
  · rw [exec_cfErrorClear, onHost_free awake free, doCfErrorClear]

/-! ## Rings, proof queues and the link (R482, R487, R491, R493, R495, R496) -/

section Serves
variable {d : Device} (serves : fnServes d .pf1 = true)
include serves

theorem doRingEnable_disabled {r : Nat} {v : Word} (disabled : (vgetN {} d.host.rings r).enable = false)
    (low : 2 ≤ fieldN v 12 0) (high : fieldN v 12 0 ≤ 4096) : doRingEnable r v d =
      let d' := modRing r (fun x => { x with pq := field v 18 16, size := field v 12 0 }) d
      if bit v 31 then logRing r true (modRing r (fun x => { x with enable := true, head := 0, tail := 0 }) d')
      else d' := by
  have legal : (decide (fieldN v 12 0 < 2) || decide (4096 < fieldN v 12 0)) = false := by
    simp [Nat.not_lt.mpr low, Nat.not_lt.mpr high]
  simp only [doRingEnable, serves, disabled, legal]
  rfl

theorem doRingEnable_disables {r : Nat} {v : Word} (enabled : (vgetN {} d.host.rings r).enable = true)
    (off : bit v 31 = false) (opened : (vgetN {} d.host.rings r).closing = false) : doRingEnable r v d =
      let d' := logRing r false d
      if ringBusy d' r then modRing r (fun x => { x with closing := true }) d'
      else modHost (fun h => { h with doorbells := h.doorbells.filter (·.ring ≠ r) })
        (modRing r (fun x => { x with enable := false }) d') := by
  simp only [doRingEnable, serves, enabled, off, opened]
  rfl

theorem doPqEnable_legal {q : Nat} {v : Word} (low : 4 ≤ fieldN v 20 16) (high : fieldN v 20 16 ≤ 16) :
    doPqEnable q v d =
      let d' := modPq q (fun x =>
        { x with enable := bit v 31, vector := field v 29 24, log2size := field v 20 16, holdoff := field v 15 0 }) d
      if bit v 31 && !(pqueue d q).enable then
        roomPq q (modPq q (fun x => { x with head := 0, tail := 0, phase := true, holding := [] }) d')
      else d' :=
  if_neg (by simp [serves, Nat.not_lt.mpr low, Nat.not_lt.mpr high])

theorem doPqHead_inside {q : Nat} {h : BitVec 16} (inside : h.toNat < pqSlots (pqueue d q)) :
    doPqHead q h d = roomPq q (modPq q (fun x => { x with head := h }) d) :=
  if_neg (by simp [serves, Nat.not_le.mpr inside])

end Serves

theorem doHoldoffEnd_eq {d : Device} {q t : Nat} (runs : (pqueue d q).holdUntil = some t) : doHoldoffEnd q d =
    if d.now < t then d
    else
      let x := pqueue d q
      let d' := modPq q (fun x => { x with holdUntil := none }) d
      if x.pendingV && x.head ≠ x.tail then
        modPq q (fun x => { x with pendingV := false }) (startHoldoff q (sendVector x.vector.toNat d'))
      else d' := by
  simp only [doHoldoffEnd, runs]

/-- Settles O49: a ring and a queue by whether they are enabled, holdoff by whether it has ended. -/
theorem ringsQueuesAndLink : Obligations.RingsQueuesAndLink := by
  unfold Obligations.RingsQueuesAndLink
  intro s awake d
  refine ⟨fun busy => ⟨fun r v b => ?_, fun q v b => ?_, fun q v b => ?_⟩,
    fun serves free => ⟨fun r v => ?_, fun q v => ?_, fun q v => ?_,
      fun r v => ⟨fun disabled low high => ?_, fun enabled off opened => ⟨fun inProgress => ?_, fun idle => ?_⟩⟩,
      fun q v low high => ?_, fun q h inside => ?_⟩,
    fun q t runs => ⟨fun early => ?_, fun due => ?_⟩, ?_, fun rate width flit => ?_⟩
  · rw [exec_ringEnable, onHost_busy awake busy]
  · rw [exec_pqEnable, onHost_busy awake busy]
  · rw [exec_pqHeadWrite, onHost_busy awake busy]
  · rw [exec_ringEnable, onHost_free awake free, hostWrite_poisoned serves]
    rfl
  · rw [exec_pqEnable, onHost_free awake free, hostWrite_poisoned serves]
    rfl
  · rw [exec_pqHeadWrite, onHost_free awake free, hostWrite_poisoned serves]
    rfl
  · rw [exec_ringEnable, onHost_free awake free, hostWrite_clean, doRingEnable_disabled serves disabled low high]
  · rw [exec_ringEnable, onHost_free awake free, hostWrite_clean, doRingEnable_disables serves enabled off opened]
    exact congrArg (nextWith s) (if_pos inProgress)
  · rw [exec_ringEnable, onHost_free awake free, hostWrite_clean, doRingEnable_disables serves enabled off opened]
    exact congrArg (nextWith s) (if_neg (Bool.eq_false_iff.mp idle))
  · rw [exec_pqEnable, onHost_free awake free, hostWrite_clean, doPqEnable_legal serves low high]
    simp only [Bool.and_eq_true, Bool.not_eq_true']
  · rw [exec_pqHeadWrite, onHost_free awake free, hostWrite_clean, doPqHead_inside serves inside]
  · rw [exec_holdoffEnd, onDev_nextWith awake, doHoldoffEnd_eq runs, if_pos early]
  · rw [exec_holdoffEnd, onDev_nextWith awake, doHoldoffEnd_eq runs, if_neg (Nat.not_lt.mpr due)]
    simp only [Bool.and_eq_true, decide_eq_true_eq]
  · rw [exec_linkDown, onDev_nextWith awake, doLinkDown]
  · rw [exec_hostLinkUp, onDev_nextWith awake, doLinkUp]

/-! ## The recovery of a press (R508 to R513) -/

section Recovery
variable {d : Device} {p : Nat}

/-- An internal failure closes the press's open frisket; only at a fenced press does it escalate (R515). -/
theorem doPsInternal_open (opened : fenced d p = false) (pl : Option PlatenId) : doPsInternal p pl d =
    faultTask ((pressTask (closeFrisket p 2 d) p).getD 0x1000) 0x0A02
      (match pl with | some y => unitPlaten p y | none => unitPress p) (internalCtx (press d p) p pl) none
      (closeFrisket p 2 d) := by
  simp only [doPsInternal, opened]
  rfl

section Draining
variable (draining : recNow d.now (press d p).recovery = .draining)
include draining

theorem doPressQuiet_quiet (quiet : pressQuiet d p = true) (idle : runningTask d p = none) :
    doPressQuiet p d = beginReset p d :=
  if_pos (by simp [draining, quiet, idle])

theorem doDrainExpired_eq : doDrainExpired p d =
    if (press d p).recovery.closedAt + 2 + (press d p).recovery.drainPt ≤ d.now then abandonDrain p 0x0A05 false d
    else d := by
  simp [doDrainExpired, draining]

end Draining

section Resetting
variable (resetting : (press d p).recovery.state = .resetting)
include resetting

theorem doResetDone_resetting : doResetDone p d = reopen p (resetPress p d) := by
  simp only [doResetDone, resetting]

theorem doResetExpired_eq : doResetExpired p d =
    if (press d p).recovery.stepAt + 2048 ≤ d.now then beginCycle p (logPress p 0x0A06 false d) else d := by
  simp [doResetExpired, resetting]

end Resetting

section Cycling
variable (cycling : (press d p).recovery.state = .powerCycling)
include cycling

theorem doResetDone_cycling : doResetDone p d = if domainOn d p then reopen p (resetPress p d) else d := by
  simp only [doResetDone, cycling]

theorem doCycleExpired_eq : doCycleExpired p d =
    if (press d p).recovery.stepAt + 8192 ≤ d.now then goOffline p d else d := by
  simp [doCycleExpired, cycling]

end Cycling

end Recovery

/-- Settles O52: the closing of the frisket by who asks, each step of the recovery by its own state. -/
theorem pressRecovers : Obligations.PressRecovers := by
  unfold Obligations.PressRecovers
  intro s p awake d r
  refine ⟨fun q free => ?_, fun pl opened => ?_,
    fun draining => ⟨fun quiet idle => ?_, fun due => ?_, fun early => ?_⟩,
    fun resetting => ⟨?_, ?_⟩, fun cycling => ⟨?_, ?_⟩⟩
  · rw [exec_psResetRequested, onSource_of_free awake free]
    rfl
  · rw [exec_psInternal, onDev_nextWith awake]
    exact congrArg (nextWith s) (doPsInternal_open opened pl)
  · rw [exec_pressQuiet, onDev_nextWith awake, doPressQuiet_quiet draining quiet idle]
    rfl
  · rw [exec_drainBoundExpired, onDev_nextWith awake, doDrainExpired_eq draining]
    exact congrArg (nextWith s) (if_pos due)
  · rw [exec_drainBoundExpired, onDev_nextWith awake, doDrainExpired_eq draining]
    exact congrArg (nextWith s) (if_neg (Nat.not_le.mpr early))
  · rw [exec_pressResetDone, onDev_nextWith awake, doResetDone_resetting resetting]
  · rw [exec_resetBoundExpired, onDev_nextWith awake, doResetExpired_eq resetting]
  · rw [exec_pressResetDone, onDev_nextWith awake, doResetDone_cycling cycling]
  · rw [exec_powerCycleBoundExpired, onDev_nextWith awake, doCycleExpired_eq cycling]

/-! ## Requests for a power state, and entry (R528 to R531) -/

section Requests
variable {d : Device} {r : Requester} {v : BitVec 3} {st : PwState} (named : pwState v.toNat = some st)
include named

theorem doStateRequest_refused (right : stateRight d r st = false) : doStateRequest r v d =
    logPlain unitPower 0x0801 (pwDetail { src := pwCode d.power.state, dst := v.toNat })
      (logAct 8 (reqRole d r) 1 0x0801 (reqSource r) 0x300000 (BitVec.ofNat 256 v.toNat) d) := by
  simp only [doStateRequest, named, right]
  rfl

section Permitted
variable (right : stateRight d r st = true)
include right

/-- A request for Stand or Deep that open tickets stand against. -/
theorem doStateRequest_ticketsOpen (steady : d.power.change = none) (other : st ≠ d.power.state)
    (sleeps : awakeState st = false) (tickets : d.mkr.tickets ≠ []) : doStateRequest r v d =
      startChange st .host (logAct 8 (reqRole d r) 2 0x0802 (reqSource r) 0x300000 (BitVec.ofNat 256 v.toNat) d) := by
  simp only [doStateRequest, named, right, Bool.not_true, Bool.false_eq_true, if_false]
  refine if_pos ?_
  simp [steady, other, sleeps, tickets]

theorem doStateRequest_taken (free : d.power.change.isSome = true ∨ st = d.power.state ∨ awakeState st = true ∨
    d.mkr.tickets = []) : doStateRequest r v d =
      requestState st .host (logAct 8 (reqRole d r) 0 0 (reqSource r) 0x300000 (BitVec.ofNat 256 v.toNat) d) := by
  simp only [doStateRequest, named, right, Bool.not_true, Bool.false_eq_true, if_false]
  refine if_neg fun refused => ?_
  simp only [Bool.and_eq_true, Option.isNone_iff_eq_none, decide_eq_true_eq, Bool.not_eq_true'] at refused
  obtain ⟨⟨⟨steady, other⟩, sleeps⟩, tickets⟩ := refused
  obtain changing | same | awake | closed := free
  · simp [steady] at changing
  · exact other same
  · simp [sleeps] at awake
  · exact tickets closed

end Permitted

end Requests

theorem awakeState_of_sleep {st : PwState} (h : st = .stand ∨ st = .deep) : awakeState st = false := by
  obtain rfl | rfl := h <;> rfl

theorem awakeState_ne {st : PwState} (awake : awakeState st = true) : st ≠ .stand ∧ st ≠ .deep := by
  constructor
  all_goals
    rintro rfl
    cases awake

theorem doChangeStart_held {d : Device} {st : PwState} {q : PwRequester} (held : d.power.heldReq = some (st, q))
    (steady : d.power.change = none) (notD3hot : q ≠ .d3hot) :
    doChangeStart d = startChange st q (modPower (fun w => { w with heldReq := none }) d) := by
  simp only [doChangeStart, held]
  exact if_neg (by simp [steady, notD3hot])

theorem doEntryStepDone_entering {d : Device} {c : PwChange} (changing : d.power.change = some c)
    (entering : c.wake = false) : doEntryStepDone d =
      let d' := entryStep c.target c.step d
      if (stepDomains c.step).all (entryDone c.target d') then
        if c.step = (if c.target = .deep then 5 else 4) then endEntry c.target d'
        else entryStep c.target (c.step + 1)
          (modPower (fun w => { w with change := some { c with step := c.step + 1 } }) d')
      else d' := by
  simp only [doEntryStepDone, changing, entering]
  rfl

/-! ## Wakes and the sideband (R532, R533, R537) -/

/-- The device with PW_WAKE_AT's high word written and its earlier entry removed. -/
def wakeAtWritten (v : Word) (d : Device) : Device :=
  modPower (fun w => { w with wakeAtHi := v, wakeWait := none }) (modMk (fun m =>
    { m with table := m.table.filter (fun ie => !(eSlot ie.2 = 0xFFF && eAction ie.2 = 6)) }) d)

/-- PW_WAKE_AT as its two words give it. -/
def wakePoint (v : Word) (d : Device) : Nat := 2 ^ 32 * v.toNat + d.power.wakeAtLo.toNat

theorem doWakeAtArm_eq (v : Word) (d : Device) : doWakeAtArm v d =
    let t := wakePoint v d
    let d' := wakeAtWritten v d
    if t < d.now then wakeEvent 3 none .makeready d'
    else if d.sheet + 524287 < t / 4096 then modPower (fun w => { w with wakeWait := some t }) d'
    else match lowestFree d' with
      | none => modPower (fun w => { w with wakeWait := some t }) d'
      | some i => writeEntries [(i, wakeAtEntry t)] d' := rfl

section Arm
variable {d : Device} {v : Word}

theorem doWakeAtArm_past (past : wakePoint v d < d.now) :
    doWakeAtArm v d = wakeEvent 3 none .makeready (wakeAtWritten v d) :=
  (doWakeAtArm_eq v d).trans (if_pos past)

section Ahead
variable (ahead : d.now ≤ wakePoint v d)
include ahead

theorem doWakeAtArm_placed (near : wakePoint v d / 4096 ≤ d.sheet + 524287) {i : Nat}
    (free : lowestFree (wakeAtWritten v d) = some i) :
    doWakeAtArm v d = writeEntries [(i, wakeAtEntry (wakePoint v d))] (wakeAtWritten v d) := by
  rw [doWakeAtArm_eq]
  simp only [Nat.not_lt.mpr ahead, Nat.not_lt.mpr near, free, if_false]

theorem doWakeAtArm_waits
    (waits : d.sheet + 524287 < wakePoint v d / 4096 ∨ lowestFree (wakeAtWritten v d) = none) :
    doWakeAtArm v d = modPower (fun w => { w with wakeWait := some (wakePoint v d) }) (wakeAtWritten v d) := by
  rw [doWakeAtArm_eq]
  simp only [Nat.not_lt.mpr ahead, if_false]
  obtain beyond | full := waits
  · exact if_pos beyond
  · simp only [full, ite_self]

end Ahead

end Arm

theorem wakeEvent_stand {d : Device} (steady : d.power.change = none) (stand : d.power.state = .stand) (source : Nat)
    (asked : Option PwState) (q : PwRequester) :
    wakeEvent source asked q d = beginWake source (asked.getD (wakeTarget d)) q d := by
  simp only [wakeEvent, steady, stand, if_true]

theorem wakeEvent_other {d : Device} (steady : d.power.change = none) (other : d.power.state ≠ .stand) (source : Nat)
    (asked : Option PwState) (q : PwRequester) : wakeEvent source asked q d = d := by
  simp only [wakeEvent, steady, other, if_false]

theorem times_power {g : Device → Device} (kept : ∀ d, (g d).power = d.power) (n : Nat) (d : Device) :
    (times g n d).power = d.power := by
  induction n generalizing d with
  | zero => rfl
  | succ n ih => exact (ih (g d)).trans (kept d)

/-- The device once the sideband's address and `n` written bytes are answered. -/
def sidebandAnswered (n : Nat) (d : Device) : Device := times (emit (.sideband none)) n (emit .sidebandAck d)

@[simp] theorem sidebandAnswered_power (n : Nat) (d : Device) : (sidebandAnswered n d).power = d.power :=
  times_power (g := emit (.sideband none)) (fun _ => rfl) n (emit .sidebandAck d)

section Sideband
variable {d : Device} (runs : inReset d = false) (cool : d.power.tripped = false)
include runs cool

theorem doSideband_eq (n : Nat) : doSideband n d =
    if d.power.state = .deep && d.power.change.isNone then wakeFromDeep (sidebandAnswered n d)
    else wakeEvent 1 none .sideband (sidebandAnswered n d) := by
  rw [doSideband, runs, cool, ← sidebandAnswered_power n d]
  rfl

theorem doSidebandRead_answered (awake : awakeState d.power.state = true) (noDeep : d.power.deepWake = false)
    (noWake : ∀ c, d.power.change = some c → c.wake = false) :
    doSidebandRead d = emit (.sideband (some (leBytes 4 (pwStatus d.power).toNat))) d := by
  rw [doSidebandRead, ← inReset, runs, cool]
  cases change : d.power.change with
  | none => simp [noDeep, awake]
  | some c => simp [noDeep, awake, noWake c change]

theorem doSidebandRead_refused
    (sleeps : d.power.state = .stand ∨ d.power.state = .deep ∨ d.power.deepWake = true) :
    doSidebandRead d = emit (.sideband none) d := by
  rw [doSidebandRead, ← inReset, runs, cool]
  obtain stand | deep | wakes := sleeps
  · simp [stand, awakeState]
  · simp [deep, awakeState]
  · simp [wakes]

theorem doLatchedWake_latched (steady : d.power.change = none) {src : BitVec 4} {asked : Option PwState}
    (latched : d.power.latched = some (src, asked)) : doLatchedWake d =
      match d.power.state with
      | .stand => beginWake src.toNat (asked.getD (wakeTarget d)) (if src = 1 then .sideband else .host) d
      | .deep => wakeFromDeep d
      | _ => d := by
  simp only [doLatchedWake, runs, cool, steady, latched]
  rfl

end Sideband

/-- Settles O53: a request by its right and the open tickets, an entry step by whether its domains are off, PW_WAKE_AT by
where its point lies, the sideband by the state. -/
theorem powerStates : Obligations.PowerStates := by
  unfold Obligations.PowerStates
  intro s d
  refine ⟨fun awake => ⟨fun r v st free named => ?_, fun st q held steady notD3hot => ?_,
    fun c changing entering => ?_, fun free v => ?_⟩, fun runs cool => ⟨fun w => ?_, fun awake noDeep noWake => ?_,
    fun sleeps => ?_, fun src asked steady latched => ?_⟩⟩
  · intro detail
    rw [exec_powerStateRequest, onSource_of_free awake free]
    refine ⟨fun right => ?_, fun right => ⟨fun steady other sleep tickets => ?_, fun unhindered => ?_⟩⟩
    · rw [doStateRequest_refused named right]
    · rw [doStateRequest_ticketsOpen named right steady other (awakeState_of_sleep sleep) tickets]
    · rw [doStateRequest_taken named right unhindered]
  · rw [exec_stateChangeStart, onDev_nextWith awake, doChangeStart_held held steady notD3hot]
  · intro d'
    rw [exec_stateEntryStepDone, onDev_nextWith awake, doEntryStepDone_entering changing entering]
    refine ⟨fun busy => congrArg (nextWith s) (if_neg (Bool.eq_false_iff.mp busy)),
      fun done => ⟨fun last => ?_, fun more => ?_⟩⟩
    · exact congrArg (nextWith s) ((if_pos done).trans (if_pos last))
    · exact congrArg (nextWith s) ((if_pos done).trans (if_neg more))
  · intro t d' e
    rw [exec_wakeAtArm, onHost_free awake free]
    exact ⟨fun past => congrArg (nextWith s) (doWakeAtArm_past past),
      fun ahead near i lowest => congrArg (nextWith s) (doWakeAtArm_placed ahead near lowest),
      fun ahead waits => congrArg (nextWith s) (doWakeAtArm_waits ahead waits)⟩
  · intro d'
    have power : d'.power = d.power := sidebandAnswered_power w.toNat d
    rw [exec_sidebandAddressMatch, onAlways_nextWith, doSideband_eq runs cool]
    refine ⟨fun deep steady => ?_, fun stand steady => ?_, fun awake steady => ?_⟩
    · exact congrArg (nextWith s) (if_pos (by simp [d, deep, steady]))
    · rw [if_neg (by simp [d, stand])]
      exact congrArg (nextWith s) (wakeEvent_stand (power ▸ steady) (power ▸ stand) ..)
    · obtain ⟨notStand, notDeep⟩ := awakeState_ne awake
      rw [if_neg (by simp [d, notDeep])]
      exact congrArg (nextWith s) (wakeEvent_other (power ▸ steady) (power ▸ notStand) ..)
  · rw [exec_sidebandRead, onAlways_nextWith, doSidebandRead_answered runs cool awake noDeep noWake]
  · rw [exec_sidebandRead, onAlways_nextWith, doSidebandRead_refused runs cool sleeps]
  · rw [exec_latchedWake, onAlways_nextWith, doLatchedWake_latched runs cool steady latched]
    exact ⟨fun stand => by rw [stand], fun deep => by rw [deep]⟩

/-! ## Gates, and domains that come on and go off (R525, R526, R534, R538, R542) -/

/-- A gate request that is refused is reported by the power unit too. -/
theorem gateRequest_eq (r : Requester) (addr : Nat) (v : Word) (act : Device → Device) (d : Device) :
    gateRequest r addr v act d =
      let d' := withRight (lockable d r 2) r addr v act d
      if lockable d r 2 then d' else logPlain unitPower 0x0801 (pwDetail {}) d' := rfl

theorem doGovernorTick_due {d : Device} (due : d.now % 16 = 0) (new : d.power.lastTick ≠ some d.now) :
    doGovernorTick d =
      let d' := modPower (fun w =>
        { w with lastTick := some d.now,
                 tokens := BitVec.ofNat 8 (min w.cap.toNat (w.tokens.toNat + max 1 w.rate.toNat)) }) d
      settleDomains (grantWakes d'.power.queue d') :=
  if_neg (by simp [due, new])

theorem doGovernorTick_early {d : Device} (early : d.now % 16 ≠ 0) : doGovernorTick d = d :=
  if_pos (by simp [early])

/-! The kind of a domain by its number. -/

theorem domKind_filled {n : Nat} (h : n < 152) :
    (∃ p, domKind n = .press p) ∨ (∃ f, domKind n = .forme f) ∨ ∃ k, domKind n = .stack k := by
  unfold domKind
  split
  · exact .inl ⟨_, rfl⟩
  · split
    · exact .inr (.inl ⟨_, rfl⟩)
    · exact .inr (.inr ⟨_, rfl⟩)

theorem domKind_shared {n : Nat} (h : 200 ≤ n) : domKind n = .host ∨ domKind n = .conf ∨ domKind n = .bridge := by
  unfold domKind
  rw [if_neg (by omega), if_neg (by omega), if_neg (by omega), if_neg (by omega), if_neg (by omega)]
  split
  · exact .inl rfl
  · split
    · exact .inr (.inl rfl)
    · exact .inr (.inr rfl)

theorem domKind_press {n : Nat} (h : n < 128) : domKind n = .press n := if_pos h

theorem domKind_ne_press {n : Nat} (h : ¬ n < 128) (p : Nat) : domKind n ≠ .press p := by
  unfold domKind
  rw [if_neg h]
  repeat' split
  all_goals exact nofun

section Waking
variable {d : Device} {n : Nat} (waking : (domain d n).dstate = .waking)
include waking

theorem doPowerGood_ramps (ramps : (domain d n).ramp.isSome = true) : doPowerGood n d =
    match domKind n with
    | .press _ | .forme _ | .stack _ => modDomain n (fun x => { x with ramp := none }) d
    | .quad q => beginTraining (portOf d q) (domainUp n d)
    | .region r => regionUp r (domainUp n d)
    | _ => domainUp n d :=
  if_neg (by simp [waking, Option.isSome_iff_ne_none.mp ramps])

theorem doDomainFault_eq {t : Nat} (ramps : (domain d n).ramp = some t) : doDomainFault n d =
    if t + 2 * domRamp n ≤ d.now then
      let d' := logPlain unitPower 0x0805 (pwDetail { domain := n, req := 4 })
        (modDomain n (fun x => { x with dstate := .goingOff, failed := true, held := false, ramp := none }) d)
      wakeCheck (if n < 128 then goOffline n d' else d')
    else d := by
  simp only [doDomainFault, waking, ramps, Option.any_some, decide_true, Bool.true_and, decide_eq_true_eq]
  by_cases press : n < 128
  · simp only [domKind_press press, press, if_true]
  · simp only [press, if_false]
    split
    · split
      · next p kind => exact absurd kind (domKind_ne_press press p)
      · rfl
    · rfl

end Waking

section GoingOff
variable {d : Device} {n : Nat} (going : (domain d n).dstate = .goingOff)
include going

theorem doDomainOff_eq : doDomainOff n d =
    let d0 := beforeOff n d
    let d' := domainOff n (offState d0 n) d0
    if mayBeOff d0 n then (if pressCycling d' n then govRequest n true (dropRequest n d') else settleDomain d' n)
    else d0 := by
  rw [doDomainOff, if_neg (not_not.mpr going)]
  cases empty : mayBeOff (beforeOff n d) n <;> simp [empty]

end GoingOff

/-- Settles O54: gates by the right, the governor by its point, a domain by its kind and its ramp. -/
theorem domainsSwitch : Obligations.DomainsSwitch := by
  unfold Obligations.DomainsSwitch
  intro s awake d
  refine ⟨fun r v => ?_, fun due new => ?_, fun early => ?_,
    fun n waking ramps => ⟨fun filled => ?_, fun q kind => ?_, fun r kind => ?_, fun shared => ?_,
      fun t ramp => ⟨fun early => ?_, fun late => ?_⟩⟩,
    fun n going => ⟨fun busy => ?_, fun empty => ?_⟩, fun free b => ?_⟩
  · intro refused free
    rw [exec_pwGateQuadWrite, exec_pwGateRegionWrite, onSource_of_free awake free, onSource_of_free awake free,
      doGateQuad, doGateRegion, gateRequest_eq, gateRequest_eq]
    simp only [Bool.not_eq_true', ← Bool.not_eq_true, ite_not]
    exact ⟨rfl, rfl⟩
  · rw [exec_governorTick, onDev_nextWith awake, doGovernorTick_due due new]
  · rw [exec_governorTick, onDev_nextWith awake, doGovernorTick_early early]
  · rw [exec_domainPowerGood, onDev_nextWith awake, doPowerGood_ramps waking ramps]
    obtain ⟨p, kind⟩ | ⟨f, kind⟩ | ⟨k, kind⟩ := domKind_filled filled <;> rw [kind]
  · rw [exec_domainPowerGood, onDev_nextWith awake, doPowerGood_ramps waking ramps, kind]
  · rw [exec_domainPowerGood, onDev_nextWith awake, doPowerGood_ramps waking ramps, kind]
  · rw [exec_domainPowerGood, onDev_nextWith awake, doPowerGood_ramps waking ramps]
    obtain kind | kind | kind := domKind_shared shared <;> rw [kind]
  · rw [exec_domainFault, onDev_nextWith awake, doDomainFault_eq waking ramp, if_neg (Nat.not_le.mpr early)]
  · rw [exec_domainFault, onDev_nextWith awake, doDomainFault_eq waking ramp, if_pos late]
  · rw [exec_domainOff, onDev_nextWith awake, doDomainOff_eq going]
    exact congrArg (nextWith s) (if_neg (Bool.eq_false_iff.mp busy))
  · rw [exec_domainOff, onDev_nextWith awake, doDomainOff_eq going]
    exact congrArg (nextWith s) (if_pos empty)
  · rw [exec_padHoldRelease, onHost_free awake free, doPadRelease]

/-! ## Budgets, stretch and the thermal trip (R543 to R548, R585) -/

/-- A change of the power unit that keeps its state leaves the part awake. -/
theorem asleep_modPower {g : Power → Power} {d : Device} (state : (g d.power).state = d.power.state)
    (change : (g d.power).change = d.power.change) (tripped : (g d.power).tripped = d.power.tripped) :
    asleep (modPower g d) = asleep d := by
  simp only [asleep, modPower_power, modPower_trust, state, change, tripped]

theorem tripped_of_awake {d : Device} (awake : asleep d = false) : d.power.tripped = false := by
  simp only [asleep, Bool.or_eq_false_iff] at awake
  exact awake.2

theorem doThrottleN_awake {d : Device} (awake : asleep d = false) (low : Bool) : doThrottleN low d =
    rebudget 0x10 2 .powerUnit (modPower (fun w => { w with pinLow := low }) d) :=
  if_neg (Bool.eq_false_iff.mp ((asleep_modPower rfl rfl rfl).trans awake))

theorem doAlertN_awake {d : Device} (awake : asleep d = false) (low : Bool) : doAlertN low d =
    updateStretch (modPower (fun w => { w with alert := low }) d) :=
  if_neg (Bool.eq_false_iff.mp ((asleep_modPower rfl rfl rfl).trans awake))

theorem doThermalTrip_cool {d : Device} (cool : d.power.tripped = false) : doThermalTrip d =
    emit .thermTrip (modPower (fun w => { w with tripped := true }) d) :=
  if_neg (Bool.eq_false_iff.mp cool)

/-- Each flag is set at its threshold, and kept until the temperature is down at its release point (R543, R544). -/
theorem tempJudge_eq (c : BitVec 8) (w : Power) : tempJudge c w =
    { w with temp := c
             tempHot := decide ((w.tempThrottle.toNat : Int) ≤ c.toInt)
               || (w.tempHot && decide ((w.tempThrottle.toNat : Int) - 5 < c.toInt))
             tempLevel := decide (110 ≤ c.toInt) || (w.tempLevel && decide (105 ≤ c.toInt)) } := by
  simp only [tempJudge, hysteresis, ← decide_not, not_le, not_lt]

theorem doDroop_clears {d : Device} (droop : d.power.droop = true) (unheld : d.power.droopEnd = none) :
    doDroop false d = modPower (fun w => { w with droopEnd := some d.now }) d := by
  simp [doDroop, droop, unheld]

theorem doHoldExpired_eq {d : Device} {t : Nat} (droop : d.power.droop = true) (held : d.power.droopEnd = some t) :
    doHoldExpired d =
      if t + 64 ≤ d.now then updateStretch (modPower (fun w => { w with droop := false, droopEnd := none }) d)
      else d := by
  simp [doHoldExpired, droop, held]

theorem doPowerWindow_due {d : Device} (due : d.now % 64 = 0) (new : d.power.lastWindow ≠ some d.now)
    (v : BitVec 12) : doPowerWindow v d =
      let above := decide (4 * effectiveNow d < v.toNat)
      let up := if above then min 4 (d.power.overRun + 1) else 0
      let down := if above then 0 else min 4 (d.power.underRun + 1)
      updateStretch (modPower (fun w =>
        { w with power := v, lastWindow := some d.now, overRun := up, underRun := down,
                 powerOver := hysteresis (up = 4) (down = 4) w.powerOver }) d) :=
  if_neg (by simp [due, new])

/-- Settles O55: each cause of a budget or a stretch by its own equation. -/
theorem budgetsAndStretch : Obligations.BudgetsAndStretch := by
  unfold Obligations.BudgetsAndStretch
  intro s awake d
  refine ⟨fun r v free => ?_, fun low => ?_, fun c => ?_, ?_, fun droop unheld => ?_,
    fun t droop held => ⟨fun early => ?_, fun due => ?_⟩, fun due new v => ?_, fun low => ?_, ?_⟩
  · rw [exec_pwThrottleApply, onSource_of_free awake free, doThrottleApply]
  · rw [exec_pwThrottleN, onAlways_nextWith, doThrottleN_awake awake]
  · rw [exec_temperatureCrossing, onDev_nextWith awake, doTemperature]
    simp only [modPower, tempJudge_eq]
    rfl
  · rw [exec_droopTrip, onDev_nextWith awake]
    rfl
  · rw [exec_droopTrip, onDev_nextWith awake, doDroop_clears droop unheld]
  · rw [exec_stretchHoldExpired, onDev_nextWith awake, doHoldExpired_eq droop held, if_neg (Nat.not_le.mpr early)]
  · rw [exec_stretchHoldExpired, onDev_nextWith awake, doHoldExpired_eq droop held, if_pos due]
  · rw [exec_powerWindow, onDev_nextWith awake, doPowerWindow_due due new]
    rfl
  · rw [exec_pwAlertN, onAlways_nextWith, doAlertN_awake awake]
  · rw [exec_thermalTrip, onAlways_nextWith, doThermalTrip_cool (tripped_of_awake awake)]

/-! ## The mailbox's commands (R551 to R558, R569 to R575) -/

/-- A command that finds another running is reported, and discarded. -/
theorem mailbox_busy {d : Device} (busy : d.trust.cmd.isSome = true) (op : Nat) (act : Option Act)
    (checks : List (Bool × Nat × BitVec 16)) (run : Device → Device) :
    mailbox op act checks run d = reportTrust act 2 0x0905 d :=
  if_pos busy

/-- A command of an idle mailbox ends with the code of the first check that fails. -/
theorem mailbox_fails {d : Device} (idle : d.trust.cmd = none) {checks : List (Bool × Nat × BitVec 16)} {failed : Bool}
    {outcome : Nat} {code : BitVec 16} (first : checks.find? (·.1) = some (failed, outcome, code)) (op : Nat)
    (act : Option Act) (run : Device → Device) :
    mailbox op act checks run d = startCmd op code [] false (reportTrust act outcome code d) := by
  simp only [mailbox, idle, first]
  rfl

@[simp] theorem needIdentity_fst (d : Device) : (needIdentity d).1 = !d.trust.identity := rfl

/-- The public half of the key that a label names. -/
def publicKey (label : List Byte) : List Byte := beBytes 512 (keyModulus label) ++ beBytes 4 65537

section Mailbox
variable {d : Device} {n : BitVec 14} (idle : d.trust.cmd = none)
include idle

section Firmware
variable (running : d.trust.running.isSome = true)
include running

theorem doGetCert_runs (form : n = 0) : doGetCert n d = startCmd 1 0 (Config.certificate.take 4096) false d := by
  refine mailbox_runs idle ?_ _
  simp [form, running, ← Option.not_isSome]

section Identity
variable (identity : d.trust.identity = true)
include identity

theorem doGetWrapKey_runs (form : n = 0) : doGetWrapKey n d =
    startCmd 2 0 (signed (publicKey wrapLabel) d).1 false { d with free := d.free + 1 } := by
  refine (mailbox_runs idle ?_ _).trans rfl
  simp [form, running, identity, ← Option.not_isSome]

theorem doQuote_runs (form : n = 64) : doQuote n d =
    startCmd 3 0 (signed (quoteBytes (mboxRead d 0 64) d) d).1 false { d with free := d.free + 1 } := by
  refine (mailbox_runs idle ?_ _).trans rfl
  simp [form, running, identity, ← Option.not_isSome]

theorem doLogRead_runs {f c : Nat} (first : leNat (mboxRead d 64 8) = f) (count : leNat (mboxRead d 72 2) = c)
    (form : n = 74) (nonempty : 1 ≤ c) (few : c ≤ 64) (held : rangeHeld d.trust f c = true) : doLogRead n d =
      startCmd 4 0 (signed (readoutBytes (mboxRead d 0 64) f c d) d).1 false { d with free := d.free + 1 } := by
  simp only [doLogRead, first, count]
  refine (mailbox_runs idle ?_ _).trans rfl
  simp [form, running, identity, nonempty, few, held, ← Option.not_isSome]

end Identity

section Unowned
variable (form : n = 516) (unowned : d.trust.store.installer = none) (unbusy : storeBusy d = false)
include form unowned unbusy

theorem doClaim_runs (durable : d.trust.logFails = false) : doClaim n d =
    beginJob 0x10 ⟨2, 1, keyDetail (mboxRead d 0 516)⟩ (keyJob (mboxRead d 0 516)) d := by
  refine mailbox_runs idle ?_ _
  simp [form, running, unowned, unbusy, durable, ← Option.not_isSome]

/-- Where no log entry can reach flash, no ownership changes (R571). -/
theorem doClaim_logFails (lost : d.trust.logFails = true) : doClaim n d =
    startCmd 0x10 0x0908 [] false
      (logRefused 2 (reqRole d .pf0) 2 0x0908 0 1 (keyDetail (mboxRead d 0 516)) d) := by
  refine mailbox_fails idle (failed := true) ?_ ..
  simp [List.find?, form, running, unowned, unbusy, lost, needLog, ← Option.not_isSome]

end Unowned

section Installer
variable (session : d.trust.session = true) (unbusy : storeBusy d = false) (durable : d.trust.logFails = false)
include session unbusy durable

theorem doTransfer_runs (form : n = 516) : doTransfer n d =
    beginJob 0x13 ⟨2, 1, keyDetail (mboxRead d 0 516)⟩ (keyJob (mboxRead d 0 516)) d := by
  refine mailbox_runs idle ?_ _
  simp [form, running, session, unbusy, durable, ← Option.not_isSome]

theorem doRelease_runs (form : n = 0) : doRelease n d = endSession 2 0 2 (beginJob 0x14 ⟨2, 1, 0⟩ .release d) := by
  rw [doRelease]
  refine mailbox_runs idle ?_ _
  simp [form, running, session, unbusy, durable, ← Option.not_isSome]

theorem doStoreWrite_runs {item : Nat} {j : StoreJob} (named : leNat (mboxRead d 0 1) = item) (long : 4 ≤ n.toNat)
    (zero : mboxRead d 1 3 = [0, 0, 0]) (identity : 8 ≤ item → item ≤ 15 → d.trust.identity = true)
    (good : storeItem item (mboxRead d 4 (n.toNat - 4)) = some j) : doStoreWrite n d =
      beginJob 0x15 ⟨4, item, BitVec.ofNat 256 item⟩ j d := by
  simp only [doStoreWrite, named, good]
  refine mailbox_runs idle ?_ _
  simpa [running, session, unbusy, durable, long, zero, ← Option.not_isSome] using identity

end Installer

end Firmware

theorem doOpen_opens (owned : d.trust.store.installer.isSome = true) (form : n = 1024)
    (good : grantGood (mboxRead d 0 1024) d = true) : doOpen n d =
      let sheets := leAt (mboxRead d 0 1024) 4 4
      newChallenge (startCmd 0x11 0 [] false (modTrust (fun t =>
        { t with session := true, sheets := BitVec.ofNat 25 sheets, granted := BitVec.ofNat 25 sheets })
        (actDone ⟨3, 4, sessionDetail sheets 0⟩ d))) := by
  rw [doOpen, idle]
  refine congrArg newChallenge (mailbox_runs idle ?_ _)
  simp [form, owned, good, ← Option.not_isSome]

theorem doClose_closes (session : d.trust.session = true) (form : n = 0) :
    doClose n d = startCmd 0x12 0 [] false (endSession 2 0 1 d) := by
  refine mailbox_runs idle ?_ _
  simp [form, session]

theorem doClose_noRight (closed : d.trust.session = false) : doClose n d =
    startCmd 0x12 0x0901 [] false (logRefused 3 (reqRole d .pf0) 1 0x0901 0 4 (sessionDetail 0 1) d) := by
  refine mailbox_fails idle (failed := true) ?_ ..
  simp [List.find?, needInstaller, closed]

end Mailbox

/-- Settles O56: each command by the checks that it passes, or by the one that stops it. -/
theorem mailboxCommands : Obligations.MailboxCommands := by
  unfold Obligations.MailboxCommands
  intro s n awake free d k ka
  refine ⟨fun busy => ⟨?_, ?_⟩,
    fun idle running => ⟨fun form => ?_, fun identity => ⟨fun form => ?_, fun form => ?_, ?_⟩,
      fun unbusy durable => ⟨fun form unowned => ?_, fun session => ⟨fun form => ?_, fun form => ?_,
        fun j long zero => ?_⟩⟩⟩,
    fun idle lost unbusy running form unowned => ?_,
    fun idle => ⟨fun owned form good => ?_, fun session form => ?_, fun closed => ?_⟩⟩
  · rw [exec_getCert, onHost_free awake free, doGetCert, mailbox_busy busy]
    rfl
  · rw [exec_claim, onHost_free awake free, doClaim, mailbox_busy busy]
    rfl
  · rw [exec_getCert, onHost_free awake free, doGetCert_runs idle running form]
  · rw [exec_getWrapKey, onHost_free awake free, doGetWrapKey_runs idle running identity form]
    rfl
  · rw [exec_quote, onHost_free awake free, doQuote_runs idle running identity form]
  · intro f c form nonempty few held
    rw [exec_logRead, onHost_free awake free, doLogRead_runs idle running identity rfl rfl form nonempty few held]
  · rw [exec_claim, onHost_free awake free, doClaim_runs idle running form unowned unbusy durable]
  · rw [exec_transferOwner, onHost_free awake free, doTransfer_runs idle running session unbusy durable form]
  · rw [exec_releaseOwner, onHost_free awake free, doRelease_runs idle running session unbusy durable form]
  · intro item identity good
    rw [exec_storeWrite, onHost_free awake free,
      doStoreWrite_runs idle running session unbusy durable rfl long zero identity good]
  · rw [exec_claim, onHost_free awake free, doClaim_logFails idle running form unowned unbusy lost]
  · rw [exec_openSession, onHost_free awake free, doOpen_opens idle owned form good]
  · rw [exec_closeSession, onHost_free awake free, doClose_closes idle session form]
  · rw [exec_closeSession, onHost_free awake free, doClose_noRight idle closed]

end Sys2Proof.Machine
end
